-- ==== Sys2Proof/Word.lean ====
section
/-!
DEFINITION. The word types of the part (R6, R368) and the plain shapes that describe a register field.
-/

namespace Sys2Proof

/-- A byte. -/
abbrev Byte := BitVec 8

/-- A register word of a page (R6), and one Thrumo instruction word (R410). -/
abbrev Word := BitVec 32

/-- A scalar register of a thread context (R368). -/
abbrev Reg64 := BitVec 64

/-- A field of a register page: the register's byte offset in the page, the lowest bit, the width. -/
structure Fld where
  off : Nat
  lo : Nat
  w : Nat
  deriving DecidableEq, Repr

/-- The access codes of R10. -/
inductive Acc where
  | ro | rw | rws | w1c | wo | rc | rwl
  deriving DecidableEq, Repr

/-- Where a field's reset value comes from, as the spec's register tables say it. -/
inductive RstSrc where
  | val (n : Nat)
  | fuse
  | firmware
  | hardwired
  | pin
  | alwaysOn
  | template
  deriving DecidableEq, Repr

/-- One row of a page's register table: the field, two strides with their counts for an array of registers, the access
code and the reset value. -/
structure RegRow where
  fld : Fld
  s1 : Nat
  n1 : Nat
  s2 : Nat
  n2 : Nat
  acc : Acc
  rst : RstSrc
  deriving DecidableEq, Repr

end Sys2Proof
end

