-- ==== Sys2Proof/Syntax.lean ====
section
/-!
DEFINITION. The commands of the block: one constructor of `Instr` for every row of the operation table, with its operands.
-/

namespace Sys2Proof

/-- A register page (R678): its scope and its block B. Core slots are numbered 0 to 39 as die × 20 + cluster × 5 + k. -/
inductive Page where
  | pkg (b : Nat)
  | die (d b : Nat)
  | cl (d c b : Nat)
  | core (slot b : Nat)
  deriving DecidableEq, Repr

/-- A block in the sense of a reset episode (R547, R556): the unit that enters and leaves reset as one. `eng` is the
engine group of a slot with its engines (L5), `point` the die-common blocks B1 to B4, `cc` the control cores, page B9. -/
inductive Block where
  | pkg | pcie | tap
  | die (d : Nat)
  | point (d : Nat)
  | cc (d : Nat)
  | cluster (d c : Nat)
  | core (slot : Nat)
  | eng (slot : Nat)
  deriving DecidableEq, Repr

/-- The master that makes an access (R622): its MID, the UNIT flag, and the source node when it came over the Gallery. -/
structure Requester where
  mid : Nat
  unit : Bool
  node : Option Nat
  deriving DecidableEq, Repr

/-- A clock domain of R32; the PLL domains are per die. -/
inductive Clk where
  | aclk (d : Fin 2) | fclk (d : Fin 2) | pclk (d : Fin 2) | kclk (d : Fin 2) | tclk | xclk
  deriving DecidableEq, Repr

/-- A rail that a brown-out is detected on (R710). -/
inductive Rail where
  | core0 | core1 | sram | dram
  deriving DecidableEq, Repr

/-- Where an image that the boot ROM checks was read from (R565, R571). -/
inductive ImageSource where
  | flashA | flashB | host | dramCopy (d : Fin 2)
  deriving DecidableEq, Repr

/-- A thread context: the physical slot of its core and its context number. -/
structure ThreadRef where
  slot : Fin 40
  ctx : Fin 2048
  deriving DecidableEq, Repr

/-- A scalar register number of a context (R368). -/
abbrev RegNum := Fin 32

/-- The fields of a PTP message that the time base reads (R55): messageType, versionPTP, messageLength, domainNumber,
twoStepFlag, correctionField (2^-16 ns), sourcePortIdentity, sequenceId, logMessageInterval, the timestamp it carries in
nanoseconds, requestingPortIdentity, an Announce's grandmaster data in order of comparison, stepsRemoved, and a gPTP
Follow_Up's cumulativeScaledRateOffset. -/
structure PtpMsg where
  typ : Nat
  version : Nat
  length : Nat
  domain : Nat
  twoStep : Bool
  corr : Int
  src : Nat
  seq : Nat
  logInterval : Int
  stamp : Nat
  reqId : Nat
  grand : List Nat
  steps : Nat
  rateOffset : Int
  deriving DecidableEq, Repr

/-- A received Ethernet frame: its bytes from the destination address to the end of the payload (the frame check sequence
left out, so the length is four more), how it was received, and its ingress time in 2^-16 ns. -/
structure EthFrame where
  bytes : List Byte
  fcsOk : Bool
  pcsError : Bool
  fecUncorr : Bool
  fecCorr : Nat
  ts : Nat
  deriving DecidableEq, Repr

/-- A tensor instruction (R429, R430, R432): issued by a thread with its BASE register and words 1 to 3, or run by its
unit on the instruction of a core with this number, once its queue has passed it there. -/
inductive TensorOp where
  | issue (t : ThreadRef) (base : RegNum) (offset : Word) (notify : Byte) (result : Word)
  | run (slot : Fin 40) (id : Nat)
  deriving DecidableEq, Repr

/-- The flags and width of an atomic (R392, R422). -/
structure AmoFlags where
  wide : Bool
  acq : Bool
  rel : Bool
  deriving DecidableEq, Repr

/-- The queues of a core (R375, R432). -/
inductive Queue where
  | engine | mover | sparse | embedding
  deriving DecidableEq, Repr

/-- What a detector event is (R587): a bit error comes to stand in a stored word of memory, or a detector of a page reports
now with this INFO and address. -/
inductive Upset where
  | stored (addr : BitVec 58) (uncorrectable : Bool)
  | report (p : Page) (detector : Nat) (info : Nat) (addr : BitVec 58)
  deriving DecidableEq, Repr

/-- A hop (R468) and the element that finds the parity error there: the fabric port of a core, a link of a cluster's fabric,
a physical DRAM channel, a corridor lane. -/
inductive Hop where
  | port (slot : Fin 40)
  | fabric (d : Fin 2) (c : Fin 4)
  | channel (d : Fin 2) (ch : Fin 17)
  | corridor (group : Fin 64) (lane : Fin 33)
  deriving DecidableEq, Repr

/-- Whose transfer a hop abandons (R469): a thread's oldest outstanding access, a tensor instruction's, or another
master's. -/
inductive HopVictim where
  | thread (t : ThreadRef)
  | unit (slot : Fin 40) (id : Nat)
  | other
  deriving DecidableEq, Repr

/-- The outbound read that a PCI Express completion timeout ends (R504): a thread's load with its place among those
outstanding, or the oldest read that another node has asked of a host window. -/
inductive Outbound where
  | load (t : ThreadRef) (i : Nat)
  | node
  deriving DecidableEq, Repr

/-- The commands; those without operands stand last. -/
inductive Instr where
  -- registers and commits
  | registerWrite (rq : Requester) (addr : BitVec 24) (width : Nat) (v : Word)
  | rcRegisterRead (rq : Requester) (addr : BitVec 24) (width : Nat)
  | loRegisterRead (rq : Requester) (addr : BitVec 24) (width : Nat)
  | timeSecHiRead (rq : Requester)
  | capHeadHiRead (rq : Requester) (n : Fin 4)
  | histSelWrite (rq : Requester) (v : Word)
  | pageCommit (rq : Requester) (p : Page) (v : Word)
  | commitTakeEffect (p : Page)
  | portSetTakeEffect (n : Fin 4)
  -- the time base
  | set (rq : Requester)
  | armPps (rq : Requester)
  | sync (port : Fin 2) (m : PtpMsg) (ing : Int) (eg : Option Int)
  | followUp (port : Fin 2) (m : PtpMsg)
  | followUpRelease (port : Fin 2) (m : PtpMsg) (ing eg : Int)
  | announce (port : Fin 2) (m : PtpMsg)
  | delayResp (port : Fin 2) (m : PtpMsg)
  | pdelayReq (port : Fin 2) (m : PtpMsg) (ing eg : Int)
  | pdelayResp (port : Fin 2) (m : PtpMsg) (ing : Int)
  | pdelayRespFollowUp (port : Fin 2) (m : PtpMsg)
  -- the stair schedule
  | encoderEdge (a b : Bool)
  | alcoveMergeDone (d : Fin 2)
  | indexEmpty (d : Fin 2)
  | carryDone (d : Fin 2)
  | waitComplete (t : ThreadRef)
  | waitDeadlineExpire (t : ThreadRef)
  | triggerFire (n : Fin 8)
  | captureEdge (n : Fin 4) (rising : Bool)
  -- sensor ports and the bypass
  | ethernetFrameReceive (n : Fin 4) (f : EthFrame)
  | relayStart (e : Fin 2) (arriving : Bool)
  | portLinkChange (n : Fin 4) (up : Bool)
  | bypassForceChange (high : Bool)
  -- Point Front and Voxel Hall
  | pointProbe (d : Fin 2)
  | egoWrWrite (rq : Requester) (d : Fin 2) (v : Word)
  | egoWrBothWrite (rq : Requester) (v : Word)
  | egoSampleRead (d : Fin 2)
  | replayWrWrite (rq : Requester) (d : Fin 2) (v : Word)
  | replayRelease (d : Fin 2)
  -- tensor instructions and their units
  | hallQuery (o : TensorOp)
  | rbBuild (o : TensorOp)
  | segmentBuildDone (d : Fin 2)
  | nbrQuery (o : TensorOp)
  | nbrRequestRun (d : Fin 2)
  | pass (o : TensorOp)
  | move (o : TensorOp)
  | spGather (o : TensorOp)
  | spCompress (o : TensorOp)
  | ruleGather (o : TensorOp)
  | ruleScatter (o : TensorOp)
  | cellFinish (o : TensorOp)
  | mapScatter (o : TensorOp)
  | embGather (o : TensorOp)
  | missFill (d : Fin 2) (c : Fin 4)
  | embUpdate (o : TensorOp)
  | embFlush (o : TensorOp)
  | embApply (o : TensorOp)
  -- scalar instructions
  | instructionFetch (t : ThreadRef)
  | add (t : ThreadRef) (dst src1 src2 : RegNum)
  | sub (t : ThreadRef) (dst src1 src2 : RegNum)
  | and (t : ThreadRef) (dst src1 src2 : RegNum)
  | or (t : ThreadRef) (dst src1 src2 : RegNum)
  | xor (t : ThreadRef) (dst src1 src2 : RegNum)
  | sll (t : ThreadRef) (dst src1 src2 : RegNum)
  | srl (t : ThreadRef) (dst src1 src2 : RegNum)
  | sra (t : ThreadRef) (dst src1 src2 : RegNum)
  | slt (t : ThreadRef) (dst src1 src2 : RegNum)
  | sltu (t : ThreadRef) (dst src1 src2 : RegNum)
  | min (t : ThreadRef) (dst src1 src2 : RegNum)
  | max (t : ThreadRef) (dst src1 src2 : RegNum)
  | minu (t : ThreadRef) (dst src1 src2 : RegNum)
  | maxu (t : ThreadRef) (dst src1 src2 : RegNum)
  | mul (t : ThreadRef) (dst src1 src2 : RegNum)
  | mulh (t : ThreadRef) (dst src1 src2 : RegNum)
  | mulhu (t : ThreadRef) (dst src1 src2 : RegNum)
  | div (t : ThreadRef) (dst src1 src2 : RegNum)
  | divu (t : ThreadRef) (dst src1 src2 : RegNum)
  | rem (t : ThreadRef) (dst src1 src2 : RegNum)
  | remu (t : ThreadRef) (dst src1 src2 : RegNum)
  | fadd (t : ThreadRef) (dst src1 src2 : RegNum)
  | fsub (t : ThreadRef) (dst src1 src2 : RegNum)
  | fmul (t : ThreadRef) (dst src1 src2 : RegNum)
  | fmin (t : ThreadRef) (dst src1 src2 : RegNum)
  | fmax (t : ThreadRef) (dst src1 src2 : RegNum)
  | feq (t : ThreadRef) (dst src1 src2 : RegNum)
  | flt (t : ThreadRef) (dst src1 src2 : RegNum)
  | fle (t : ThreadRef) (dst src1 src2 : RegNum)
  | fcvtFi (t : ThreadRef) (dst src1 : RegNum)
  | fcvtIf (t : ThreadRef) (dst src1 : RegNum)
  | addi (t : ThreadRef) (dst src1 : RegNum) (imm : BitVec 14)
  | andi (t : ThreadRef) (dst src1 : RegNum) (imm : BitVec 14)
  | ori (t : ThreadRef) (dst src1 : RegNum) (imm : BitVec 14)
  | xori (t : ThreadRef) (dst src1 : RegNum) (imm : BitVec 14)
  | slti (t : ThreadRef) (dst src1 : RegNum) (imm : BitVec 14)
  | sltiu (t : ThreadRef) (dst src1 : RegNum) (imm : BitVec 14)
  | slli (t : ThreadRef) (dst src1 : RegNum) (count : BitVec 6)
  | srli (t : ThreadRef) (dst src1 : RegNum) (count : BitVec 6)
  | srai (t : ThreadRef) (dst src1 : RegNum) (count : BitVec 6)
  | lui (t : ThreadRef) (dst : RegNum) (imm : BitVec 19)
  | pcadd (t : ThreadRef) (dst : RegNum) (imm : BitVec 19)
  | ldpc (t : ThreadRef) (dst : RegNum) (imm : BitVec 19)
  | ld8 (t : ThreadRef) (dst src1 : RegNum) (imm : BitVec 14)
  | ld8u (t : ThreadRef) (dst src1 : RegNum) (imm : BitVec 14)
  | ld16 (t : ThreadRef) (dst src1 : RegNum) (imm : BitVec 14)
  | ld16u (t : ThreadRef) (dst src1 : RegNum) (imm : BitVec 14)
  | ld32 (t : ThreadRef) (dst src1 : RegNum) (imm : BitVec 14)
  | ld32u (t : ThreadRef) (dst src1 : RegNum) (imm : BitVec 14)
  | ld64 (t : ThreadRef) (dst src1 : RegNum) (imm : BitVec 14)
  | st8 (t : ThreadRef) (src1 src2 : RegNum) (imm : BitVec 14)
  | st16 (t : ThreadRef) (src1 src2 : RegNum) (imm : BitVec 14)
  | st32 (t : ThreadRef) (src1 src2 : RegNum) (imm : BitVec 14)
  | st64 (t : ThreadRef) (src1 src2 : RegNum) (imm : BitVec 14)
  | stc (t : ThreadRef) (src1 src2 : RegNum) (width : Fin 4) (ctr : Fin 64)
  | loadComplete (t : ThreadRef) (n : Nat)
  | scalarAccessRelease (t : ThreadRef)
  | inboundWriteRelease (slot : Fin 40) (n : Nat)
  | amoAdd (t : ThreadRef) (dst src1 src2 : RegNum) (f : AmoFlags)
  | amoMin (t : ThreadRef) (dst src1 src2 : RegNum) (f : AmoFlags)
  | amoMax (t : ThreadRef) (dst src1 src2 : RegNum) (f : AmoFlags)
  | amoMinu (t : ThreadRef) (dst src1 src2 : RegNum) (f : AmoFlags)
  | amoMaxu (t : ThreadRef) (dst src1 src2 : RegNum) (f : AmoFlags)
  | amoCas (t : ThreadRef) (dst src1 src2 : RegNum) (f : AmoFlags)
  | amoFadd (t : ThreadRef) (dst src1 src2 : RegNum) (f : AmoFlags)
  | beq (t : ThreadRef) (src1 src2 : RegNum) (imm : BitVec 14)
  | bne (t : ThreadRef) (src1 src2 : RegNum) (imm : BitVec 14)
  | blt (t : ThreadRef) (src1 src2 : RegNum) (imm : BitVec 14)
  | bge (t : ThreadRef) (src1 src2 : RegNum) (imm : BitVec 14)
  | bltu (t : ThreadRef) (src1 src2 : RegNum) (imm : BitVec 14)
  | bgeu (t : ThreadRef) (src1 src2 : RegNum) (imm : BitVec 14)
  | jal (t : ThreadRef) (dst : RegNum) (imm : BitVec 19)
  | jalr (t : ThreadRef) (dst src1 : RegNum) (imm : BitVec 14)
  | fenceAcq (t : ThreadRef)
  | fenceRel (t : ThreadRef)
  | fenceFull (t : ThreadRef)
  | fenceComplete (t : ThreadRef)
  | ifence (t : ThreadRef)
  | exit (t : ThreadRef)
  | contextFree (t : ThreadRef)
  | arrive (t : ThreadRef) (src1 src2 : RegNum)
  | spawn (t : ThreadRef) (dst src1 src2 : RegNum) (a : Fin 29)
  | selfThreadId (t : ThreadRef) (dst : RegNum)
  | selfNodeId (t : ThreadRef) (dst : RegNum)
  | selfLogicalCore (t : ThreadRef) (dst : RegNum)
  | selfContext (t : ThreadRef) (dst : RegNum)
  | selfDomain (t : ThreadRef) (dst : RegNum)
  | selfClass (t : ThreadRef) (dst : RegNum)
  | selfDeviceTime (t : ThreadRef) (dst : RegNum)
  | selfFrameNo (t : ThreadRef) (dst : RegNum)
  | waitTread (t : ThreadRef) (dst src1 src2 : RegNum)
  | waitLanding (t : ThreadRef) (dst src1 src2 : RegNum)
  | waitTime (t : ThreadRef) (dst src1 src2 : RegNum)
  | waitCount (t : ThreadRef) (dst src1 src2 : RegNum) (n : Fin 64)
  | waitHalo (t : ThreadRef) (dst src1 src2 : RegNum) (j : Fin 32)
  | treadMark (t : ThreadRef) (src1 : RegNum) (j : Fin 32)
  | treadMarkEffect (t : ThreadRef)
  | starvationPromote (t : ThreadRef)
  -- tensor instructions on their way
  | tensorEnter (t : ThreadRef)
  | tensorAdmit (slot : Fin 40) (id : Nat)
  | queueDispatch (slot : Fin 40) (q : Queue)
  | tensorRetire (slot : Fin 40) (id : Nat)
  | tensorFaultDeliver (slot : Fin 40) (id : Nat)
  | passNext (slot : Fin 40)
  | passLedgerAdmit (slot : Fin 40)
  | passIssue (slot : Fin 40) (cycle : Nat)
  | chainAbandon (slot : Fin 40) (cycle : Nat)
  -- scratchpads, DRAM and hops
  | correctedWriteback (slot : Fin 40) (off : BitVec 23)
  | scrubRead (slot : Fin 40) (bank : Fin 16)
  | scrubForce (slot : Fin 40) (bank : Fin 16)
  | scratchpadClearDone (slot : Fin 40)
  | patrolRead (d : Fin 2) (ch : Fin 16)
  | hopParityReplay (h : Hop) (fails : Fin 5) (v : HopVictim)
  | spareCmdGo (rq : Requester) (d : Fin 2) (ch : Fin 16)
  | sparingDone (d : Fin 2)
  | channelFail (d : Fin 2) (ch : Fin 17)
  | corridorLaneSpare (group : Fin 64)
  -- the Gallery
  | galleryDetect (p : Fin 6) (seen : BitVec 5)
  | equaliseDone (p : Fin 6) (locked : BitVec 5)
  | alignDone (p : Fin 6)
  | exchange (p : Fin 6) (node : Fin 1024) (port : Fin 6) (x y z : Nat)
  | laneLockLoss (p : Fin 6)
  | retrainTimeout (p : Fin 6)
  | flitTransmit (p : Fin 6)
  | flitReceive (p : Fin 6) (flit : List Byte)
  | nakRepeat (p : Fin 6)
  | galleryRoute (p : Fin 6)
  | galleryRequestTimeout (tag : Fin 4096)
  | msgPop (rq : Requester)
  -- energy, supplies and ageing
  | ledgerSample (rails : List (Nat × Nat))
  | frequencyStepLock (d : Fin 2)
  | frequencyStepSwitch (d : Fin 2)
  | frequencyStepAbandon (d : Fin 2)
  | clusterTempSample (m : Fin 8) (t : Int)
  | marginSample (m : Fin 8) (slacks drifts : List Int)
  | replan (derate0 derate1 : Nat)
  | ageCmdReplan (rq : Requester)
  | watchdogExpire (d : Fin 2) (n : Fin 4)
  -- resets and boot
  | pornChange (high : Bool)
  | resetnChange (high : Bool)
  | perstnChange (high : Bool)
  | trstnChange (high : Bool)
  | brownout (r : Rail)
  | brownoutRelease (r : Rail)
  | clkGoodRise (c : Clk)
  | clkLoss (c : Clk)
  | swResetPulse (rq : Requester) (level : Fin 8) (scope : Byte)
  | swResetAssert (rq : Requester) (level : Fin 8) (scope : Byte)
  | swResetRelease (rq : Requester) (level : Fin 8) (scope : Byte)
  | stubAnswer (rq : Requester) (wr : Bool) (addr : BitVec 58)
  | blockRelease (b : Block)
  | releaseDone (b : Block)
  | accessTableRestore (d : Fin 2)
  | bootImageCheck (src : ImageSource) (img : List Byte)
  | bootDoneSet (fw : List (Page × Nat × Word))
  | bootCmdGo (rq : Requester)
  | bootCmdRecoveryExit (rq : Requester)
  -- errors and fencing
  | detectorEvent (u : Upset)
  | slotFenceWrite (rq : Requester) (d : Fin 2) (c : Fin 4) (v : Word)
  | injectWrite (rq : Requester) (p : Page) (v : Word)
  | ctxCmdFree (rq : Requester) (slot : Fin 40)
  | ctxCmdKill (rq : Requester) (slot : Fin 40)
  | ctrWrite (rq : Requester) (slot : Fin 40) (n : Fin 64) (v : Word)
  | quiesceReqWrite (rq : Requester) (p : Page) (on : Bool)
  -- attestation and test access
  | quoteCmdGo (rq : Requester)
  | extendCmdGo (rq : Requester) (slot : Fin 4)
  | debugEnSet (rq : Requester)
  | samplePreload (cells : List Bool)
  | jtagBypass (code : Byte)
  | dbgAccessUpdate (wr : Bool) (addr : BitVec 58) (data : Word)
  -- management bus
  | smbWrite (cmd : Byte) (data : List Byte)
  -- the host
  | slidingWindowAccess (wr : Bool) (off : BitVec 36) (len : Nat) (data : List Byte)
  | hostIrqSetWrite (rq : Requester) (v : Word)
  | msixUnmask (v : Fin 64) (addr : BitVec 64) (data : Word)
  | pcieDstateChange (d3 : Bool)
  | pcieLinkChange (up : Bool) (speed width : Nat)
  | outboundCompletionTimeout (o : Outbound)
  | mbxNudge (rq : Requester) (v : Word)
  -- supplies, DRAM and identity
  | avsbusTransactionDone (d : Fin 2) (ok : Bool) (mv : BitVec 16)
  | dramTempSample (d : Fin 2) (t : BitVec 8)
  | dramTrainingDone (ok : Bool)
  -- the time base (no operands)
  | ptpRequestInterval
  | residenceEntryExpire
  | discTimeoutExpire
  | ppsInEdge
  | ppsOutPulse
  -- the stair schedule (no operands)
  | encoderIndex
  | newelTimeoutExpire
  | catchupDone
  | frame0Open
  | treadCut
  | pointFrontBarrierDone
  | treadEvent
  -- sensor ports and the bypass (no operands)
  | violationRecordSecond
  | holdoffExpire
  -- the Gallery (no operands)
  | rd
  | wr
  | wrc
  | amo
  | galleryArrive
  | msg
  | reset
  | contrib
  | cpl
  | cplData
  -- energy, supplies and ageing (no operands)
  | ledgerPeriodEnd
  | throttleTick
  | thermalTripRelease
  | supplyWarnFall
  | holdDeadlineExpire
  | supplyHoldEnter
  | supplyWarnRise
  | supplyRelease
  | poweredHour
  -- resets and boot (no operands)
  | pcieHotReset
  | pcieFlr
  | resetSourceTimer
  | vddAonLoss
  | mirrorResyncDone
  | bootTimerExpire
  -- errors and fencing (no operands)
  | errorRecordSecond
  | historyRecordWrite
  | coreFence
  -- attestation and test access (no operands)
  | quoteDone
  | extest
  | idcode
  | dbgAccessCapture
  -- management bus (no operands)
  | smbReadPkgInfo
  | smbReadStatus
  | smbReadTemperature
  | smbReadFaultLatch
  | smbReadFail
  | smbReadPoweredHours
  -- the host (no operands)
  | mbxScan
  | nop
  | mbxSpawn
  | kill
  | free
  -- supplies, DRAM and identity (no operands)
  | identityKeyDerived
  | vddAonReturn
  deriving DecidableEq, Repr

end Sys2Proof
end

