-- ==== Sys2Proof/Decode.lean ====
section
/-!
DEFINITION. The commands that a word spells by the operation table's bits. The table gives no row any bits: commands come
from outside the block as events and accesses, not as encoded words. The words of thread instructions (R410 to R431) are
read by INSTRUCTION_FETCH, in Machine/Issue.lean.
-/

namespace Sys2Proof

/-- No row of the operation table has bits, so no word spells a command. -/
def decodeTableWord (_nbits _w : Nat) : Option Instr := none

end Sys2Proof
end

