-- ==== Sys2Proof/Machine/Maps.lean ====
section
/-!
DEFINITION. Sorted association lists (the one shape of every sparse store of the model) and the bit-field and byte-order
helpers. Keys rise strictly; a store with a default value lists no key at its default, so equal stores are equal data.
-/

namespace Sys2Proof.Machine

/-- The value listed at key `k`. -/
def SMap.find {α : Type} : List (Nat × α) → Nat → Option α
  | [], _ => none
  | (a, v) :: m, k => if k = a then some v else SMap.find m k

/-- List `v` at key `k`, in place of what was there, keeping the keys in rising order. -/
def SMap.put {α : Type} : List (Nat × α) → Nat → α → List (Nat × α)
  | [], k, v => [(k, v)]
  | (a, u) :: m, k, v =>
    if k < a then (k, v) :: (a, u) :: m
    else if k = a then (k, v) :: m
    else (a, u) :: SMap.put m k v

/-- List nothing at key `k`. -/
def SMap.del {α : Type} : List (Nat × α) → Nat → List (Nat × α)
  | [], _ => []
  | (a, u) :: m, k => if k = a then SMap.del m k else (a, u) :: SMap.del m k

/-- Read with the default `d` of an unlisted key. -/
def SMap.getD {α : Type} (m : List (Nat × α)) (k : Nat) (d : α) : α :=
  (SMap.find m k).getD d

/-- Write with the default `d`: the default is never listed. -/
def SMap.setD {α : Type} [DecidableEq α] (m : List (Nat × α)) (k : Nat) (v d : α) : List (Nat × α) :=
  if v = d then SMap.del m k else SMap.put m k v

/-- Keys rise strictly, all of them above `lo` where a lower bound is given. -/
def SMap.sorted {α : Type} : Option Nat → List (Nat × α) → Bool
  | _, [] => true
  | none, (a, _) :: m => SMap.sorted (some a) m
  | some b, (a, _) :: m => decide (b < a) && SMap.sorted (some a) m

/-- The canonical form of a store with default `d`. -/
def SMap.canon {α : Type} [DecidableEq α] (d : α) (m : List (Nat × α)) : Bool :=
  SMap.sorted none m && m.all (fun c => decide (c.2 ≠ d))

/-- Bits `[lo + w - 1 : lo]` of `n`. -/
def bits (n lo w : Nat) : Nat := n / 2 ^ lo % 2 ^ w

/-- Bit `i` of `n`. -/
def bit (n i : Nat) : Bool := n / 2 ^ i % 2 = 1

/-- `n` with bits `[lo + w - 1 : lo]` set to the low `w` bits of `v`. -/
def setBits (n lo w v : Nat) : Nat :=
  n / 2 ^ (lo + w) * 2 ^ (lo + w) + v % 2 ^ w * 2 ^ lo + n % 2 ^ lo

/-- The Bool as a bit. -/
def b2n (b : Bool) : Nat := if b then 1 else 0

/-- The low `w` bits of `n` read as a two's complement number. -/
def sext (w n : Nat) : Int :=
  let v := n % 2 ^ w
  if v < 2 ^ (w - 1) then (v : Int) else (v : Int) - (2 ^ w : Nat)

/-- An integer as `w` bits of two's complement. -/
def wrap (w : Nat) (i : Int) : Nat := (i % ((2 ^ w : Nat) : Int)).toNat

/-- Saturate an integer to the signed range of `w` bits. -/
def satS (w : Nat) (i : Int) : Int :=
  let hi : Int := ((2 ^ (w - 1) : Nat) : Int) - 1
  if i > hi then hi else if i < -hi - 1 then -hi - 1 else i

/-- Clamp an integer. -/
def clampI (lo hi i : Int) : Int := if i < lo then lo else if hi < i then hi else i

/-- The number that `bs` spells, least significant byte first (R6). -/
def leNat : List Nat → Nat
  | [] => 0
  | b :: bs => b % 256 + 256 * leNat bs

/-- The `k` bytes of `n`, least significant first. -/
def toLe : Nat → Nat → List Nat
  | 0, _ => []
  | k + 1, n => n % 256 :: toLe k (n / 256)

/-- The number that `bs` spells, most significant byte first (network order). -/
def beNat (bs : List Nat) : Nat := bs.foldl (fun a b => a * 256 + b % 256) 0

/-- The `k` bytes of `n`, most significant first. -/
def toBe (k n : Nat) : List Nat := (toLe k n).reverse

/-- Saturating add of a `w`-bit counter. -/
def satAdd (w a b : Nat) : Nat := if a + b < 2 ^ w then a + b else 2 ^ w - 1

/-- The set bits of `n` below `w`, rising. -/
def bitList (w n : Nat) : List Nat := (List.range w).filter (bit n)

/-- Replace the element at place `i`. -/
def setAt {α : Type} : List α → Nat → α → List α
  | [], _, _ => []
  | _ :: xs, 0, v => v :: xs
  | x :: xs, i + 1, v => x :: setAt xs i v

/-- Insert in order by a key. -/
def insertBy {α : Type} (k : α → Nat) (x : α) : List α → List α
  | [] => [x]
  | y :: ys => if k x < k y then x :: y :: ys else y :: insertBy k x ys

/-- Stable sort by a key. -/
def sortBy {α : Type} (k : α → Nat) (xs : List α) : List α :=
  xs.foldl (fun acc x => insertBy k x acc) []

end Sys2Proof.Machine
end

