-- ==== Sys2Proof/Machine/RegTable.lean ====
section
/-!
DEFINITION. The register map: every field of every register page, at the offset, the bits, the access code (R10) and
the reset value that the tables of the spec's chapters give it (the rule of the table stands beside each row).
A page's namespace is its scope and block: PBn package-common, DBn die-common, CBn cluster-common, KBn core (KB4 stands
for the engine pages B4 to B7), HDR the header that every page begins with (R676, R590, R582).
-/

namespace Sys2Proof.Machine

/-! ### HDR -/

def HDR.INJECT_BUSY : Fld := ⟨0x20, 31, 1⟩
def HDR.INJECT_MODE : Fld := ⟨0x20, 24, 2⟩
def HDR.INJECT_DETECTOR : Fld := ⟨0x20, 16, 8⟩
def HDR.INJECT_COUNT : Fld := ⟨0x20, 0, 16⟩
def HDR.ERR_COUNT : Fld := ⟨0x24, 0, 32⟩
def HDR.ERR_FIRST_VALID : Fld := ⟨0x28, 31, 1⟩
def HDR.ERR_FIRST_INJECTED : Fld := ⟨0x28, 30, 1⟩
def HDR.ERR_FIRST_MORE : Fld := ⟨0x28, 29, 1⟩
def HDR.ERR_FIRST_CLASS : Fld := ⟨0x28, 27, 2⟩
def HDR.ERR_FIRST_DETECTOR : Fld := ⟨0x28, 16, 8⟩
def HDR.ERR_FIRST_INFO : Fld := ⟨0x28, 0, 16⟩
def HDR.ERR_ADDR_LO : Fld := ⟨0x2C, 0, 32⟩
def HDR.ERR_ADDR_HI : Fld := ⟨0x30, 0, 26⟩
def HDR.PAGE_ID_CLASS : Fld := ⟨0, 24, 8⟩
def HDR.PAGE_ID_INSTANCE : Fld := ⟨0, 16, 8⟩
def HDR.PAGE_ID_MAJOR : Fld := ⟨0, 8, 8⟩
def HDR.PAGE_ID_MINOR : Fld := ⟨0, 0, 8⟩
def HDR.PAGE_CAPS_MIRRORED : Fld := ⟨4, 3, 1⟩
def HDR.PAGE_CAPS_INJECT : Fld := ⟨4, 2, 1⟩
def HDR.PAGE_CAPS_SHADOW : Fld := ⟨4, 1, 1⟩
def HDR.PAGE_CAPS_QUIESCE : Fld := ⟨4, 0, 1⟩
def HDR.PAGE_CTRL_QUIESCE_REQ : Fld := ⟨8, 1, 1⟩
def HDR.PAGE_CTRL_EN : Fld := ⟨8, 0, 1⟩
def HDR.PAGE_STATUS_COMMIT_ERR : Fld := ⟨0xC, 4, 1⟩
def HDR.PAGE_STATUS_FENCED : Fld := ⟨0xC, 3, 1⟩
def HDR.PAGE_STATUS_COMMIT_PENDING : Fld := ⟨0xC, 2, 1⟩
def HDR.PAGE_STATUS_QUIESCED : Fld := ⟨0xC, 1, 1⟩
def HDR.PAGE_STATUS_BUSY : Fld := ⟨0xC, 0, 1⟩
def HDR.PAGE_COMMIT : Fld := ⟨0x10, 0, 8⟩
def HDR.INT_RAW : Fld := ⟨0x14, 0, 32⟩
def HDR.INT_EN : Fld := ⟨0x18, 0, 32⟩
def HDR.INT_STAT : Fld := ⟨0x1C, 0, 32⟩
def HDR.VIOL_COUNT : Fld := ⟨0x34, 0, 32⟩
def HDR.CLK_RST_STATE_EPISODES : Fld := ⟨0x38, 8, 8⟩
def HDR.CLK_RST_STATE_CLK_LOST : Fld := ⟨0x38, 7, 1⟩
def HDR.CLK_RST_STATE_CLK_GOOD : Fld := ⟨0x38, 6, 1⟩
def HDR.CLK_RST_STATE_STUB : Fld := ⟨0x38, 5, 1⟩
def HDR.CLK_RST_STATE_IN_RESET : Fld := ⟨0x38, 4, 1⟩
def HDR.CLK_RST_STATE_LEVEL : Fld := ⟨0x38, 0, 3⟩

def rowsHDR : List RegRow := [
  ⟨⟨0x20, 31, 1⟩, 0, 1, 0, 1, .ro, .val 0⟩ /- INJECT_BUSY R590 -/,
  ⟨⟨0x20, 24, 2⟩, 0, 1, 0, 1, .rwl, .val 0⟩ /- INJECT_MODE R590 -/,
  ⟨⟨0x20, 16, 8⟩, 0, 1, 0, 1, .rwl, .val 0⟩ /- INJECT_DETECTOR R590 -/,
  ⟨⟨0x20, 0, 16⟩, 0, 1, 0, 1, .rwl, .val 0⟩ /- INJECT_COUNT R590 -/,
  ⟨⟨0x24, 0, 32⟩, 0, 1, 0, 1, .rc, .val 0⟩ /- ERR_COUNT R590 -/,
  ⟨⟨0x28, 31, 1⟩, 0, 1, 0, 1, .w1c, .val 0⟩ /- ERR_FIRST_VALID R590 -/,
  ⟨⟨0x28, 30, 1⟩, 0, 1, 0, 1, .ro, .val 0⟩ /- ERR_FIRST_INJECTED R590 -/,
  ⟨⟨0x28, 29, 1⟩, 0, 1, 0, 1, .ro, .val 0⟩ /- ERR_FIRST_MORE R590 -/,
  ⟨⟨0x28, 27, 2⟩, 0, 1, 0, 1, .ro, .val 0⟩ /- ERR_FIRST_CLASS R590 -/,
  ⟨⟨0x28, 16, 8⟩, 0, 1, 0, 1, .ro, .val 0⟩ /- ERR_FIRST_DETECTOR R590 -/,
  ⟨⟨0x28, 0, 16⟩, 0, 1, 0, 1, .ro, .val 0⟩ /- ERR_FIRST_INFO R590 -/,
  ⟨⟨0x2C, 0, 32⟩, 0, 1, 0, 1, .ro, .val 0⟩ /- ERR_ADDR_LO R590 -/,
  ⟨⟨0x30, 0, 26⟩, 0, 1, 0, 1, .ro, .val 0⟩ /- ERR_ADDR_HI R590 -/,
  ⟨⟨0, 24, 8⟩, 0, 1, 0, 1, .ro, .hardwired⟩ /- PAGE_ID_CLASS R676 -/,
  ⟨⟨0, 16, 8⟩, 0, 1, 0, 1, .ro, .hardwired⟩ /- PAGE_ID_INSTANCE R676 -/,
  ⟨⟨0, 8, 8⟩, 0, 1, 0, 1, .ro, .val 1⟩ /- PAGE_ID_MAJOR R676 -/,
  ⟨⟨0, 0, 8⟩, 0, 1, 0, 1, .ro, .val 0⟩ /- PAGE_ID_MINOR R676 -/,
  ⟨⟨4, 3, 1⟩, 0, 1, 0, 1, .ro, .hardwired⟩ /- PAGE_CAPS_MIRRORED R676 -/,
  ⟨⟨4, 2, 1⟩, 0, 1, 0, 1, .ro, .hardwired⟩ /- PAGE_CAPS_INJECT R676 -/,
  ⟨⟨4, 1, 1⟩, 0, 1, 0, 1, .ro, .hardwired⟩ /- PAGE_CAPS_SHADOW R676 -/,
  ⟨⟨4, 0, 1⟩, 0, 1, 0, 1, .ro, .hardwired⟩ /- PAGE_CAPS_QUIESCE R676 -/,
  ⟨⟨8, 1, 1⟩, 0, 1, 0, 1, .rw, .val 0⟩ /- PAGE_CTRL_QUIESCE_REQ R676 -/,
  ⟨⟨8, 0, 1⟩, 0, 1, 0, 1, .rw, .val 1⟩ /- PAGE_CTRL_EN R676 -/,
  ⟨⟨0xC, 4, 1⟩, 0, 1, 0, 1, .w1c, .val 0⟩ /- PAGE_STATUS_COMMIT_ERR R676 -/,
  ⟨⟨0xC, 3, 1⟩, 0, 1, 0, 1, .ro, .val 0⟩ /- PAGE_STATUS_FENCED R676 -/,
  ⟨⟨0xC, 2, 1⟩, 0, 1, 0, 1, .ro, .val 0⟩ /- PAGE_STATUS_COMMIT_PENDING R676 -/,
  ⟨⟨0xC, 1, 1⟩, 0, 1, 0, 1, .ro, .val 0⟩ /- PAGE_STATUS_QUIESCED R676 -/,
  ⟨⟨0xC, 0, 1⟩, 0, 1, 0, 1, .ro, .val 0⟩ /- PAGE_STATUS_BUSY R676 -/,
  ⟨⟨0x10, 0, 8⟩, 0, 1, 0, 1, .wo, .val 0⟩ /- PAGE_COMMIT R676 -/,
  ⟨⟨0x14, 0, 32⟩, 0, 1, 0, 1, .ro, .val 0⟩ /- INT_RAW R676 -/,
  ⟨⟨0x18, 0, 32⟩, 0, 1, 0, 1, .rw, .val 0⟩ /- INT_EN R676 -/,
  ⟨⟨0x1C, 0, 32⟩, 0, 1, 0, 1, .w1c, .val 0⟩ /- INT_STAT R676 -/,
  ⟨⟨0x34, 0, 32⟩, 0, 1, 0, 1, .rc, .val 0⟩ /- VIOL_COUNT R676 -/,
  ⟨⟨0x38, 8, 8⟩, 0, 1, 0, 1, .ro, .val 0⟩ /- CLK_RST_STATE_EPISODES R582 -/,
  ⟨⟨0x38, 7, 1⟩, 0, 1, 0, 1, .w1c, .val 0⟩ /- CLK_RST_STATE_CLK_LOST R582 -/,
  ⟨⟨0x38, 6, 1⟩, 0, 1, 0, 1, .ro, .val 0⟩ /- CLK_RST_STATE_CLK_GOOD R582 -/,
  ⟨⟨0x38, 5, 1⟩, 0, 1, 0, 1, .ro, .val 0⟩ /- CLK_RST_STATE_STUB R582 -/,
  ⟨⟨0x38, 4, 1⟩, 0, 1, 0, 1, .ro, .val 0⟩ /- CLK_RST_STATE_IN_RESET R582 -/,
  ⟨⟨0x38, 0, 3⟩, 0, 1, 0, 1, .ro, .val 0⟩ /- CLK_RST_STATE_LEVEL R582 -/]

/-! ### PB0 -/

def PB0.PKG_INFO_SILICON_REV : Fld := ⟨0x40, 16, 8⟩
def PB0.PKG_INFO_PART_CODE : Fld := ⟨0x40, 8, 8⟩
def PB0.PKG_INFO_GRADE : Fld := ⟨0x40, 0, 4⟩
def PB0.PKG_STATUS_MIRROR_OK : Fld := ⟨0x44, 2, 1⟩
def PB0.PKG_STATUS_FAILED_OVER : Fld := ⟨0x44, 1, 1⟩
def PB0.PKG_STATUS_ACTIVE_DIE : Fld := ⟨0x44, 0, 1⟩
def PB0.UNIT_COUNT_CORES_IN_SERVICE : Fld := ⟨0x48, 24, 6⟩
def PB0.UNIT_COUNT_SPARES_LEFT : Fld := ⟨0x48, 16, 4⟩
def PB0.FUSE_SEL : Fld := ⟨0x4C, 0, 10⟩
def PB0.FUSE_DATA : Fld := ⟨0x50, 0, 32⟩

def rowsPB0 : List RegRow := [
  ⟨⟨0x40, 16, 8⟩, 0, 1, 0, 1, .ro, .fuse⟩ /- PKG_INFO_SILICON_REV R30 -/,
  ⟨⟨0x40, 8, 8⟩, 0, 1, 0, 1, .ro, .val 0x26⟩ /- PKG_INFO_PART_CODE R30 -/,
  ⟨⟨0x40, 0, 4⟩, 0, 1, 0, 1, .ro, .fuse⟩ /- PKG_INFO_GRADE R30 -/,
  ⟨⟨0x44, 2, 1⟩, 0, 1, 0, 1, .ro, .val 0⟩ /- PKG_STATUS_MIRROR_OK R30 -/,
  ⟨⟨0x44, 1, 1⟩, 0, 1, 0, 1, .ro, .val 0⟩ /- PKG_STATUS_FAILED_OVER R30 -/,
  ⟨⟨0x44, 0, 1⟩, 0, 1, 0, 1, .ro, .val 0⟩ /- PKG_STATUS_ACTIVE_DIE R30 -/,
  ⟨⟨0x48, 24, 6⟩, 0, 1, 0, 1, .ro, .fuse⟩ /- UNIT_COUNT_CORES_IN_SERVICE R30 -/,
  ⟨⟨0x48, 16, 4⟩, 0, 1, 0, 1, .ro, .fuse⟩ /- UNIT_COUNT_SPARES_LEFT R30 -/,
  ⟨⟨0x4C, 0, 10⟩, 0, 1, 0, 1, .rw, .val 0⟩ /- FUSE_SEL R30 -/,
  ⟨⟨0x50, 0, 32⟩, 0, 1, 0, 1, .ro, .fuse⟩ /- FUSE_DATA R30 -/]

/-! ### PB1 -/

def PB1.RST_STATUS_SW_HELD : Fld := ⟨0x40, 8, 8⟩
def PB1.RST_STATUS_LAST_SOURCE : Fld := ⟨0x40, 4, 4⟩
def PB1.RST_STATUS_LAST_LEVEL : Fld := ⟨0x40, 0, 3⟩
def PB1.SRC_ASSERTED : Fld := ⟨0x44, 0, 13⟩
def PB1.SW_RESET_CMD : Fld := ⟨0x48, 30, 2⟩
def PB1.SW_RESET_LEVEL : Fld := ⟨0x48, 24, 3⟩
def PB1.SW_RESET_SCOPE : Fld := ⟨0x48, 16, 8⟩
def PB1.PIN_STATE_BOOTSEL : Fld := ⟨0x4C, 4, 2⟩
def PB1.PIN_STATE_TRSTN : Fld := ⟨0x4C, 3, 1⟩
def PB1.PIN_STATE_PERSTN : Fld := ⟨0x4C, 2, 1⟩
def PB1.PIN_STATE_RESETN : Fld := ⟨0x4C, 1, 1⟩
def PB1.PIN_STATE_PORN : Fld := ⟨0x4C, 0, 1⟩
def PB1.REACH_FUSE0 : Fld := ⟨0x50, 0, 24⟩
def PB1.REACH_FUSE1 : Fld := ⟨0x54, 0, 12⟩
def PB1.STUB_ANSWERS : Fld := ⟨0x58, 0, 32⟩
def PB1.STUB_DISCARDS : Fld := ⟨0x5C, 0, 32⟩
def PB1.CLK_LOSS_COUNT : Fld := ⟨0x60, 0, 32⟩
def PB1.EPISODES : Fld := ⟨0x64, 0, 32⟩

def rowsPB1 : List RegRow := [
  ⟨⟨0x40, 8, 8⟩, 0, 1, 0, 1, .ro, .val 0⟩ /- RST_STATUS_SW_HELD R581 -/,
  ⟨⟨0x40, 4, 4⟩, 0, 1, 0, 1, .ro, .alwaysOn⟩ /- RST_STATUS_LAST_SOURCE R581 -/,
  ⟨⟨0x40, 0, 3⟩, 0, 1, 0, 1, .ro, .alwaysOn⟩ /- RST_STATUS_LAST_LEVEL R581 -/,
  ⟨⟨0x44, 0, 13⟩, 0, 1, 0, 1, .ro, .val 0⟩ /- SRC_ASSERTED R581 -/,
  ⟨⟨0x48, 30, 2⟩, 0, 1, 0, 1, .wo, .val 0⟩ /- SW_RESET_CMD R581 -/,
  ⟨⟨0x48, 24, 3⟩, 0, 1, 0, 1, .wo, .val 0⟩ /- SW_RESET_LEVEL R581 -/,
  ⟨⟨0x48, 16, 8⟩, 0, 1, 0, 1, .wo, .val 0⟩ /- SW_RESET_SCOPE R581 -/,
  ⟨⟨0x4C, 4, 2⟩, 0, 1, 0, 1, .ro, .pin⟩ /- PIN_STATE_BOOTSEL R581 -/,
  ⟨⟨0x4C, 3, 1⟩, 0, 1, 0, 1, .ro, .pin⟩ /- PIN_STATE_TRSTN R581 -/,
  ⟨⟨0x4C, 2, 1⟩, 0, 1, 0, 1, .ro, .pin⟩ /- PIN_STATE_PERSTN R581 -/,
  ⟨⟨0x4C, 1, 1⟩, 0, 1, 0, 1, .ro, .pin⟩ /- PIN_STATE_RESETN R581 -/,
  ⟨⟨0x4C, 0, 1⟩, 0, 1, 0, 1, .ro, .pin⟩ /- PIN_STATE_PORN R581 -/,
  ⟨⟨0x50, 0, 24⟩, 0, 1, 0, 1, .ro, .fuse⟩ /- REACH_FUSE0 R581 -/,
  ⟨⟨0x54, 0, 12⟩, 0, 1, 0, 1, .ro, .fuse⟩ /- REACH_FUSE1 R581 -/,
  ⟨⟨0x58, 0, 32⟩, 0, 1, 0, 1, .rc, .val 0⟩ /- STUB_ANSWERS R581 -/,
  ⟨⟨0x5C, 0, 32⟩, 0, 1, 0, 1, .rc, .val 0⟩ /- STUB_DISCARDS R581 -/,
  ⟨⟨0x60, 0, 32⟩, 0, 1, 0, 1, .rc, .val 0⟩ /- CLK_LOSS_COUNT R581 -/,
  ⟨⟨0x64, 0, 32⟩, 0, 1, 0, 1, .rc, .val 0⟩ /- EPISODES R581 -/]

/-! ### PB2 -/

def PB2.TIME_CTRL_DOMAIN : Fld := ⟨0x40, 16, 8⟩
def PB2.TIME_CTRL_TRANSPORT : Fld := ⟨0x40, 8, 3⟩
def PB2.TIME_CTRL_PROFILE : Fld := ⟨0x40, 4, 2⟩
def PB2.TIME_CTRL_SOURCE : Fld := ⟨0x40, 2, 2⟩
def PB2.TIME_CTRL_TC_EN : Fld := ⟨0x40, 1, 1⟩
def PB2.TIME_STATUS_MASTER_PORT : Fld := ⟨0x44, 4, 1⟩
def PB2.TIME_STATUS_MASTER_VALID : Fld := ⟨0x44, 3, 1⟩
def PB2.TIME_STATUS_STATE : Fld := ⟨0x44, 0, 2⟩
def PB2.TIME_SEC_HI : Fld := ⟨0x48, 0, 16⟩
def PB2.TIME_SEC_LO : Fld := ⟨0x4C, 0, 32⟩
def PB2.TIME_NS : Fld := ⟨0x50, 0, 32⟩
def PB2.TIME_FRAC : Fld := ⟨0x54, 0, 16⟩
def PB2.SET_SEC_HI : Fld := ⟨0x58, 0, 16⟩
def PB2.SET_SEC_LO : Fld := ⟨0x5C, 0, 32⟩
def PB2.SET_NS : Fld := ⟨0x60, 0, 32⟩
def PB2.TIME_CMD : Fld := ⟨0x64, 0, 2⟩
def PB2.OFFSET : Fld := ⟨0x68, 0, 32⟩
def PB2.FREQ_ADJ : Fld := ⟨0x6C, 0, 32⟩
def PB2.SERVO_GAIN_KI : Fld := ⟨0x70, 16, 16⟩
def PB2.SERVO_GAIN_KP : Fld := ⟨0x70, 0, 16⟩
def PB2.LOCK_THRESH : Fld := ⟨0x74, 0, 16⟩
def PB2.STEP_THRESH : Fld := ⟨0x78, 0, 32⟩
def PB2.DISC_TIMEOUT : Fld := ⟨0x7C, 0, 16⟩
def PB2.LINK_DELAY0 : Fld := ⟨0x80, 0, 32⟩
def PB2.LINK_DELAY1 : Fld := ⟨0x84, 0, 32⟩
def PB2.RESID_LAST : Fld := ⟨0x88, 0, 32⟩
def PB2.REQ_INTERVAL : Fld := ⟨0x8C, 0, 8⟩
def PB2.PPS_OUT_CTRL_WIDTH : Fld := ⟨0x90, 16, 16⟩
def PB2.PPS_OUT_CTRL_FREE : Fld := ⟨0x90, 1, 1⟩
def PB2.PPS_OUT_CTRL_EN : Fld := ⟨0x90, 0, 1⟩
def PB2.FU_NOMATCH : Fld := ⟨0x94, 0, 32⟩
def PB2.CORR_SAT : Fld := ⟨0x98, 0, 32⟩
def PB2.PTP_REJECT : Fld := ⟨0x9C, 0, 32⟩
def PB2.PPS_REJECT : Fld := ⟨0xA0, 0, 32⟩

def rowsPB2 : List RegRow := [
  ⟨⟨0x40, 16, 8⟩, 0, 1, 0, 1, .rws, .val 0⟩ /- TIME_CTRL_DOMAIN R90 -/,
  ⟨⟨0x40, 8, 3⟩, 0, 1, 0, 1, .rws, .val 7⟩ /- TIME_CTRL_TRANSPORT R90 -/,
  ⟨⟨0x40, 4, 2⟩, 0, 1, 0, 1, .rws, .val 0⟩ /- TIME_CTRL_PROFILE R90 -/,
  ⟨⟨0x40, 2, 2⟩, 0, 1, 0, 1, .rws, .val 0⟩ /- TIME_CTRL_SOURCE R90 -/,
  ⟨⟨0x40, 1, 1⟩, 0, 1, 0, 1, .rws, .val 1⟩ /- TIME_CTRL_TC_EN R90 -/,
  ⟨⟨0x44, 4, 1⟩, 0, 1, 0, 1, .ro, .val 0⟩ /- TIME_STATUS_MASTER_PORT R90 -/,
  ⟨⟨0x44, 3, 1⟩, 0, 1, 0, 1, .ro, .val 0⟩ /- TIME_STATUS_MASTER_VALID R90 -/,
  ⟨⟨0x44, 0, 2⟩, 0, 1, 0, 1, .ro, .val 0⟩ /- TIME_STATUS_STATE R90 -/,
  ⟨⟨0x48, 0, 16⟩, 0, 1, 0, 1, .ro, .val 0⟩ /- TIME_SEC_HI R90 -/,
  ⟨⟨0x4C, 0, 32⟩, 0, 1, 0, 1, .ro, .val 0⟩ /- TIME_SEC_LO R90 -/,
  ⟨⟨0x50, 0, 32⟩, 0, 1, 0, 1, .ro, .val 0⟩ /- TIME_NS R90 -/,
  ⟨⟨0x54, 0, 16⟩, 0, 1, 0, 1, .ro, .val 0⟩ /- TIME_FRAC R90 -/,
  ⟨⟨0x58, 0, 16⟩, 0, 1, 0, 1, .rw, .val 0⟩ /- SET_SEC_HI R90 -/,
  ⟨⟨0x5C, 0, 32⟩, 0, 1, 0, 1, .rw, .val 0⟩ /- SET_SEC_LO R90 -/,
  ⟨⟨0x60, 0, 32⟩, 0, 1, 0, 1, .rw, .val 0⟩ /- SET_NS R90 -/,
  ⟨⟨0x64, 0, 2⟩, 0, 1, 0, 1, .wo, .val 0⟩ /- TIME_CMD R90 -/,
  ⟨⟨0x68, 0, 32⟩, 0, 1, 0, 1, .ro, .val 0⟩ /- OFFSET R90 -/,
  ⟨⟨0x6C, 0, 32⟩, 0, 1, 0, 1, .ro, .val 0⟩ /- FREQ_ADJ R90 -/,
  ⟨⟨0x70, 16, 16⟩, 0, 1, 0, 1, .rw, .val 0x40⟩ /- SERVO_GAIN_KI R90 -/,
  ⟨⟨0x70, 0, 16⟩, 0, 1, 0, 1, .rw, .val 0x200⟩ /- SERVO_GAIN_KP R90 -/,
  ⟨⟨0x74, 0, 16⟩, 0, 1, 0, 1, .rw, .val 0x64⟩ /- LOCK_THRESH R90 -/,
  ⟨⟨0x78, 0, 32⟩, 0, 1, 0, 1, .rw, .val 0x3E8⟩ /- STEP_THRESH R90 -/,
  ⟨⟨0x7C, 0, 16⟩, 0, 1, 0, 1, .rw, .val 0xBB8⟩ /- DISC_TIMEOUT R90 -/,
  ⟨⟨0x80, 0, 32⟩, 0, 1, 0, 1, .ro, .val 0⟩ /- LINK_DELAY0 R90 -/,
  ⟨⟨0x84, 0, 32⟩, 0, 1, 0, 1, .ro, .val 0⟩ /- LINK_DELAY1 R90 -/,
  ⟨⟨0x88, 0, 32⟩, 0, 1, 0, 1, .ro, .val 0⟩ /- RESID_LAST R90 -/,
  ⟨⟨0x8C, 0, 8⟩, 0, 1, 0, 1, .rw, .val 0⟩ /- REQ_INTERVAL R90 -/,
  ⟨⟨0x90, 16, 16⟩, 0, 1, 0, 1, .rw, .val 0x3E8⟩ /- PPS_OUT_CTRL_WIDTH R90 -/,
  ⟨⟨0x90, 1, 1⟩, 0, 1, 0, 1, .rw, .val 0⟩ /- PPS_OUT_CTRL_FREE R90 -/,
  ⟨⟨0x90, 0, 1⟩, 0, 1, 0, 1, .rw, .val 1⟩ /- PPS_OUT_CTRL_EN R90 -/,
  ⟨⟨0x94, 0, 32⟩, 0, 1, 0, 1, .rc, .val 0⟩ /- FU_NOMATCH R90 -/,
  ⟨⟨0x98, 0, 32⟩, 0, 1, 0, 1, .rc, .val 0⟩ /- CORR_SAT R90 -/,
  ⟨⟨0x9C, 0, 32⟩, 0, 1, 0, 1, .rc, .val 0⟩ /- PTP_REJECT R90 -/,
  ⟨⟨0xA0, 0, 32⟩, 0, 1, 0, 1, .rc, .val 0⟩ /- PPS_REJECT R90 -/]

/-! ### PB3 -/

def PB3.STAIR_CTRL_EN : Fld := ⟨0x40, 12, 1⟩
def PB3.STAIR_CTRL_NEWEL_SENSOR : Fld := ⟨0x40, 8, 4⟩
def PB3.STAIR_CTRL_NEWEL_SRC : Fld := ⟨0x40, 4, 2⟩
def PB3.STAIR_CTRL_TREADS : Fld := ⟨0x40, 0, 3⟩
def PB3.TREAD0_ANGLE : Fld := ⟨0x44, 0, 16⟩
def PB3.SYNTH_RATE : Fld := ⟨0x48, 0, 16⟩
def PB3.ENC_CPR_DIR : Fld := ⟨0x4C, 31, 1⟩
def PB3.ENC_CPR_CPR : Fld := ⟨0x4C, 0, 20⟩
def PB3.ENC_Z_ANGLE : Fld := ⟨0x50, 0, 16⟩
def PB3.NEWEL_TIMEOUT : Fld := ⟨0x54, 0, 16⟩
def PB3.CONTRIB : Fld := ⟨0x58, 0, 16⟩
def PB3.MARGIN : Fld := ⟨0x5C, 0, 16⟩
def PB3.SENSOR_LAG_COVER_LAG (n : Nat) : Fld := ⟨0x60 + 4 * n, 16, 16⟩
def PB3.SENSOR_LAG_PHASE_OFFSET (n : Nat) : Fld := ⟨0x60 + 4 * n, 0, 16⟩
def PB3.NEWEL_ANGLE_ANGLE : Fld := ⟨0xA0, 16, 16⟩
def PB3.NEWEL_ANGLE_FRACTION : Fld := ⟨0xA0, 0, 16⟩
def PB3.NEWEL_RATE : Fld := ⟨0xA4, 0, 16⟩
def PB3.STAIR_STATUS_LAST_CLOSED : Fld := ⟨0xA8, 16, 8⟩
def PB3.STAIR_STATUS_CURRENT : Fld := ⟨0xA8, 8, 8⟩
def PB3.STAIR_STATUS_CLOSED_ANY : Fld := ⟨0xA8, 3, 1⟩
def PB3.STAIR_STATUS_CATCHUP : Fld := ⟨0xA8, 2, 1⟩
def PB3.STAIR_STATUS_HOLDOVER : Fld := ⟨0xA8, 1, 1⟩
def PB3.STAIR_STATUS_RUNNING : Fld := ⟨0xA8, 0, 1⟩
def PB3.FRAME_NO : Fld := ⟨0xAC, 0, 32⟩
def PB3.CLOSE_NS : Fld := ⟨0xB0, 0, 32⟩
def PB3.HOLDOVER_COUNT : Fld := ⟨0xB4, 0, 32⟩
def PB3.NEWEL_REJECT : Fld := ⟨0xB8, 0, 32⟩
def PB3.LATE_POINTS : Fld := ⟨0xBC, 0, 32⟩
def PB3.LANDING_OUT_CTRL : Fld := ⟨0xC0, 0, 16⟩

def rowsPB3 : List RegRow := [
  ⟨⟨0x40, 12, 1⟩, 0, 1, 0, 1, .rws, .val 0⟩ /- STAIR_CTRL_EN R92 -/,
  ⟨⟨0x40, 8, 4⟩, 0, 1, 0, 1, .rws, .val 0⟩ /- STAIR_CTRL_NEWEL_SENSOR R92 -/,
  ⟨⟨0x40, 4, 2⟩, 0, 1, 0, 1, .rws, .val 2⟩ /- STAIR_CTRL_NEWEL_SRC R92 -/,
  ⟨⟨0x40, 0, 3⟩, 0, 1, 0, 1, .rws, .val 2⟩ /- STAIR_CTRL_TREADS R92 -/,
  ⟨⟨0x44, 0, 16⟩, 0, 1, 0, 1, .rws, .val 0⟩ /- TREAD0_ANGLE R92 -/,
  ⟨⟨0x48, 0, 16⟩, 0, 1, 0, 1, .rws, .val 0x2710⟩ /- SYNTH_RATE R92 -/,
  ⟨⟨0x4C, 31, 1⟩, 0, 1, 0, 1, .rws, .val 0⟩ /- ENC_CPR_DIR R92 -/,
  ⟨⟨0x4C, 0, 20⟩, 0, 1, 0, 1, .rws, .val 0x1000⟩ /- ENC_CPR_CPR R92 -/,
  ⟨⟨0x50, 0, 16⟩, 0, 1, 0, 1, .rws, .val 0⟩ /- ENC_Z_ANGLE R92 -/,
  ⟨⟨0x54, 0, 16⟩, 0, 1, 0, 1, .rws, .val 0x7D0⟩ /- NEWEL_TIMEOUT R92 -/,
  ⟨⟨0x58, 0, 16⟩, 0, 1, 0, 1, .rws, .val 0⟩ /- CONTRIB R92 -/,
  ⟨⟨0x5C, 0, 16⟩, 0, 1, 0, 1, .rws, .val 0x80⟩ /- MARGIN R92 -/,
  ⟨⟨0x60, 16, 16⟩, 4, 16, 0, 1, .rws, .val 0⟩ /- SENSOR_LAG_COVER_LAG R92 -/,
  ⟨⟨0x60, 0, 16⟩, 4, 16, 0, 1, .rws, .val 0⟩ /- SENSOR_LAG_PHASE_OFFSET R92 -/,
  ⟨⟨0xA0, 16, 16⟩, 0, 1, 0, 1, .ro, .val 0⟩ /- NEWEL_ANGLE_ANGLE R92 -/,
  ⟨⟨0xA0, 0, 16⟩, 0, 1, 0, 1, .ro, .val 0⟩ /- NEWEL_ANGLE_FRACTION R92 -/,
  ⟨⟨0xA4, 0, 16⟩, 0, 1, 0, 1, .ro, .val 0⟩ /- NEWEL_RATE R92 -/,
  ⟨⟨0xA8, 16, 8⟩, 0, 1, 0, 1, .ro, .val 0⟩ /- STAIR_STATUS_LAST_CLOSED R92 -/,
  ⟨⟨0xA8, 8, 8⟩, 0, 1, 0, 1, .ro, .val 0⟩ /- STAIR_STATUS_CURRENT R92 -/,
  ⟨⟨0xA8, 3, 1⟩, 0, 1, 0, 1, .ro, .val 0⟩ /- STAIR_STATUS_CLOSED_ANY R92 -/,
  ⟨⟨0xA8, 2, 1⟩, 0, 1, 0, 1, .ro, .val 0⟩ /- STAIR_STATUS_CATCHUP R92 -/,
  ⟨⟨0xA8, 1, 1⟩, 0, 1, 0, 1, .ro, .val 0⟩ /- STAIR_STATUS_HOLDOVER R92 -/,
  ⟨⟨0xA8, 0, 1⟩, 0, 1, 0, 1, .ro, .val 0⟩ /- STAIR_STATUS_RUNNING R92 -/,
  ⟨⟨0xAC, 0, 32⟩, 0, 1, 0, 1, .ro, .val 0⟩ /- FRAME_NO R92 -/,
  ⟨⟨0xB0, 0, 32⟩, 0, 1, 0, 1, .ro, .val 0⟩ /- CLOSE_NS R92 -/,
  ⟨⟨0xB4, 0, 32⟩, 0, 1, 0, 1, .rc, .val 0⟩ /- HOLDOVER_COUNT R92 -/,
  ⟨⟨0xB8, 0, 32⟩, 0, 1, 0, 1, .rc, .val 0⟩ /- NEWEL_REJECT R92 -/,
  ⟨⟨0xBC, 0, 32⟩, 0, 1, 0, 1, .rc, .val 0⟩ /- LATE_POINTS R92 -/,
  ⟨⟨0xC0, 0, 16⟩, 0, 1, 0, 1, .rw, .val 0x64⟩ /- LANDING_OUT_CTRL R92 -/]

/-! ### PB4 -/

def PB4.PORTS_CTRL : Fld := ⟨0x40, 0, 1⟩
def PB4.PORT_CTRL_MAX_FRAME (n : Nat) : Fld := ⟨0x100 + 0x80 * n, 16, 14⟩
def PB4.PORT_CTRL_FEC (n : Nat) : Fld := ⟨0x100 + 0x80 * n, 2, 1⟩
def PB4.PORT_CTRL_MODE (n : Nat) : Fld := ⟨0x100 + 0x80 * n, 0, 2⟩
def PB4.PORT_STATUS_BYPASSED_RING (n : Nat) : Fld := ⟨0x104 + 0x80 * n, 3, 1⟩
def PB4.PORT_STATUS_BYPASSED (n : Nat) : Fld := ⟨0x104 + 0x80 * n, 3, 1⟩
def PB4.PORT_STATUS_FEC_LOCK (n : Nat) : Fld := ⟨0x104 + 0x80 * n, 2, 1⟩
def PB4.PORT_STATUS_BLOCK_LOCK (n : Nat) : Fld := ⟨0x104 + 0x80 * n, 1, 1⟩
def PB4.PORT_STATUS_LINK (n : Nat) : Fld := ⟨0x104 + 0x80 * n, 0, 1⟩
def PB4.PORT_MAC_LO (n : Nat) : Fld := ⟨0x108 + 0x80 * n, 0, 32⟩
def PB4.PORT_MAC_HI (n : Nat) : Fld := ⟨0x10C + 0x80 * n, 0, 16⟩
def PB4.RX_GOOD (n : Nat) : Fld := ⟨0x110 + 0x80 * n, 0, 32⟩
def PB4.RX_RUNT (n : Nat) : Fld := ⟨0x114 + 0x80 * n, 0, 32⟩
def PB4.RX_FCS (n : Nat) : Fld := ⟨0x118 + 0x80 * n, 0, 32⟩
def PB4.RX_OVERSIZE (n : Nat) : Fld := ⟨0x11C + 0x80 * n, 0, 32⟩
def PB4.RX_MALFORMED (n : Nat) : Fld := ⟨0x120 + 0x80 * n, 0, 32⟩
def PB4.RX_FRAG (n : Nat) : Fld := ⟨0x124 + 0x80 * n, 0, 32⟩
def PB4.RX_FILTER_MISS (n : Nat) : Fld := ⟨0x128 + 0x80 * n, 0, 32⟩
def PB4.RX_LINKLOCAL (n : Nat) : Fld := ⟨0x12C + 0x80 * n, 0, 32⟩
def PB4.RX_PTP_DROP (n : Nat) : Fld := ⟨0x130 + 0x80 * n, 0, 32⟩
def PB4.FEC_CORR (n : Nat) : Fld := ⟨0x134 + 0x80 * n, 0, 32⟩
def PB4.FEC_UNCORR (n : Nat) : Fld := ⟨0x138 + 0x80 * n, 0, 32⟩
def PB4.PF_DROP (n : Nat) : Fld := ⟨0x13C + 0x80 * n, 0, 32⟩
def PB4.AZ_RANGE (n : Nat) : Fld := ⟨0x140 + 0x80 * n, 0, 32⟩
def PB4.TS_BACK (n : Nat) : Fld := ⟨0x144 + 0x80 * n, 0, 32⟩
def PB4.RELAY_FWD (n : Nat) : Fld := ⟨0x148 + 0x80 * n, 0, 32⟩
def PB4.RELAY_DROP (n : Nat) : Fld := ⟨0x14C + 0x80 * n, 0, 32⟩
def PB4.RELAY_STOMP (n : Nat) : Fld := ⟨0x150 + 0x80 * n, 0, 32⟩
def PB4.PFILT_CTRL_VALID (n : Nat) : Fld := ⟨0x400 + 0x20 * n, 31, 1⟩
def PB4.PFILT_CTRL_IPV6 (n : Nat) : Fld := ⟨0x400 + 0x20 * n, 30, 1⟩
def PB4.PFILT_CTRL_PORT_MASK (n : Nat) : Fld := ⟨0x400 + 0x20 * n, 24, 4⟩
def PB4.PFILT_CTRL_VID (n : Nat) : Fld := ⟨0x400 + 0x20 * n, 0, 12⟩
def PB4.PFILT_UDP (n : Nat) : Fld := ⟨0x404 + 0x20 * n, 0, 16⟩
def PB4.PFILT_SRC_IP (n : Nat) (i : Nat) : Fld := ⟨0x408 + 0x20 * n + 4 * i, 0, 32⟩

def rowsPB4 : List RegRow := [
  ⟨⟨0x40, 0, 1⟩, 0, 1, 0, 1, .rws, .val 1⟩ /- PORTS_CTRL R118 -/,
  ⟨⟨0x100, 16, 14⟩, 0x80, 4, 0, 1, .rws, .val 0x2400⟩ /- PORT_CTRL_MAX_FRAME R118 -/,
  ⟨⟨0x100, 2, 1⟩, 0x80, 4, 0, 1, .rws, .val 1⟩ /- PORT_CTRL_FEC R118 -/,
  ⟨⟨0x100, 0, 2⟩, 0x80, 4, 0, 1, .rws, .val 2⟩ /- PORT_CTRL_MODE R118 -/,
  ⟨⟨0x104, 3, 1⟩, 0x80, 2, 0, 1, .ro, .val 1⟩ /- PORT_STATUS_BYPASSED_RING R118 -/,
  ⟨⟨0x104, 3, 1⟩, 0x80, 4, 0, 1, .ro, .val 0⟩ /- PORT_STATUS_BYPASSED R118 -/,
  ⟨⟨0x104, 2, 1⟩, 0x80, 4, 0, 1, .ro, .val 0⟩ /- PORT_STATUS_FEC_LOCK R118 -/,
  ⟨⟨0x104, 1, 1⟩, 0x80, 4, 0, 1, .ro, .val 0⟩ /- PORT_STATUS_BLOCK_LOCK R118 -/,
  ⟨⟨0x104, 0, 1⟩, 0x80, 4, 0, 1, .ro, .val 0⟩ /- PORT_STATUS_LINK R118 -/,
  ⟨⟨0x108, 0, 32⟩, 0x80, 4, 0, 1, .rw, .fuse⟩ /- PORT_MAC_LO R118 -/,
  ⟨⟨0x10C, 0, 16⟩, 0x80, 4, 0, 1, .rw, .fuse⟩ /- PORT_MAC_HI R118 -/,
  ⟨⟨0x110, 0, 32⟩, 0x80, 4, 0, 1, .rc, .val 0⟩ /- RX_GOOD R118 -/,
  ⟨⟨0x114, 0, 32⟩, 0x80, 4, 0, 1, .rc, .val 0⟩ /- RX_RUNT R118 -/,
  ⟨⟨0x118, 0, 32⟩, 0x80, 4, 0, 1, .rc, .val 0⟩ /- RX_FCS R118 -/,
  ⟨⟨0x11C, 0, 32⟩, 0x80, 4, 0, 1, .rc, .val 0⟩ /- RX_OVERSIZE R118 -/,
  ⟨⟨0x120, 0, 32⟩, 0x80, 4, 0, 1, .rc, .val 0⟩ /- RX_MALFORMED R118 -/,
  ⟨⟨0x124, 0, 32⟩, 0x80, 4, 0, 1, .rc, .val 0⟩ /- RX_FRAG R118 -/,
  ⟨⟨0x128, 0, 32⟩, 0x80, 4, 0, 1, .rc, .val 0⟩ /- RX_FILTER_MISS R118 -/,
  ⟨⟨0x12C, 0, 32⟩, 0x80, 4, 0, 1, .rc, .val 0⟩ /- RX_LINKLOCAL R118 -/,
  ⟨⟨0x130, 0, 32⟩, 0x80, 4, 0, 1, .rc, .val 0⟩ /- RX_PTP_DROP R118 -/,
  ⟨⟨0x134, 0, 32⟩, 0x80, 4, 0, 1, .rc, .val 0⟩ /- FEC_CORR R118 -/,
  ⟨⟨0x138, 0, 32⟩, 0x80, 4, 0, 1, .rc, .val 0⟩ /- FEC_UNCORR R118 -/,
  ⟨⟨0x13C, 0, 32⟩, 0x80, 4, 0, 1, .rc, .val 0⟩ /- PF_DROP R118 -/,
  ⟨⟨0x140, 0, 32⟩, 0x80, 4, 0, 1, .rc, .val 0⟩ /- AZ_RANGE R118 -/,
  ⟨⟨0x144, 0, 32⟩, 0x80, 4, 0, 1, .rc, .val 0⟩ /- TS_BACK R118 -/,
  ⟨⟨0x148, 0, 32⟩, 0x80, 4, 0, 1, .rc, .val 0⟩ /- RELAY_FWD R118 -/,
  ⟨⟨0x14C, 0, 32⟩, 0x80, 4, 0, 1, .rc, .val 0⟩ /- RELAY_DROP R118 -/,
  ⟨⟨0x150, 0, 32⟩, 0x80, 4, 0, 1, .rc, .val 0⟩ /- RELAY_STOMP R118 -/,
  ⟨⟨0x400, 31, 1⟩, 0x20, 16, 0, 1, .rws, .val 0⟩ /- PFILT_CTRL_VALID R119 -/,
  ⟨⟨0x400, 30, 1⟩, 0x20, 16, 0, 1, .rws, .val 0⟩ /- PFILT_CTRL_IPV6 R119 -/,
  ⟨⟨0x400, 24, 4⟩, 0x20, 16, 0, 1, .rws, .val 0⟩ /- PFILT_CTRL_PORT_MASK R119 -/,
  ⟨⟨0x400, 0, 12⟩, 0x20, 16, 0, 1, .rws, .val 0⟩ /- PFILT_CTRL_VID R119 -/,
  ⟨⟨0x404, 0, 16⟩, 0x20, 16, 0, 1, .rws, .val 0⟩ /- PFILT_UDP R119 -/,
  ⟨⟨0x408, 0, 32⟩, 0x20, 16, 4, 4, .rws, .val 0⟩ /- PFILT_SRC_IP R119 -/]

/-! ### PB5 -/

def PB5.TRIG_CTRL_IDLE (n : Nat) : Fld := ⟨0x100 + 0x20 * n, 3, 1⟩
def PB5.TRIG_CTRL_MODE (n : Nat) : Fld := ⟨0x100 + 0x20 * n, 0, 2⟩
def PB5.TRIG_SEC_HI (n : Nat) : Fld := ⟨0x104 + 0x20 * n, 0, 16⟩
def PB5.TRIG_SEC_LO (n : Nat) : Fld := ⟨0x108 + 0x20 * n, 0, 32⟩
def PB5.TRIG_AT (n : Nat) : Fld := ⟨0x10C + 0x20 * n, 0, 32⟩
def PB5.TRIG_PERIOD_NS (n : Nat) : Fld := ⟨0x110 + 0x20 * n, 0, 32⟩
def PB5.TRIG_WIDTH_NS (n : Nat) : Fld := ⟨0x114 + 0x20 * n, 0, 32⟩
def PB5.TRIG_STATUS_LATE (n : Nat) : Fld := ⟨0x118 + 0x20 * n, 31, 1⟩
def PB5.TRIG_STATUS_FIRED (n : Nat) : Fld := ⟨0x118 + 0x20 * n, 0, 31⟩
def PB5.CAP_CTRL_LEVEL (n : Nat) : Fld := ⟨0x200 + 0x20 * n, 8, 5⟩
def PB5.CAP_CTRL_OVERFLOW (n : Nat) : Fld := ⟨0x200 + 0x20 * n, 2, 1⟩
def PB5.CAP_CTRL_EDGE (n : Nat) : Fld := ⟨0x200 + 0x20 * n, 0, 2⟩
def PB5.CAP_HEAD_HI_VALID (n : Nat) : Fld := ⟨0x204 + 0x20 * n, 31, 1⟩
def PB5.CAP_HEAD_HI_EDGE (n : Nat) : Fld := ⟨0x204 + 0x20 * n, 30, 1⟩
def PB5.CAP_HEAD_HI_SEC_HI (n : Nat) : Fld := ⟨0x204 + 0x20 * n, 0, 16⟩
def PB5.CAP_SEC_LO (n : Nat) : Fld := ⟨0x208 + 0x20 * n, 0, 32⟩
def PB5.CAP_NS (n : Nat) : Fld := ⟨0x20C + 0x20 * n, 0, 32⟩
def PB5.CAP_FRAC (n : Nat) : Fld := ⟨0x210 + 0x20 * n, 0, 16⟩
def PB5.BYP_CTRL_FORCE_CLOSE : Fld := ⟨0x40, 16, 1⟩
def PB5.BYP_CTRL_HOLDOFF_MS : Fld := ⟨0x40, 0, 16⟩
def PB5.BYP_STATUS_HOLDOFF : Fld := ⟨0x44, 8, 1⟩
def PB5.BYP_STATUS_PORT_OFF : Fld := ⟨0x44, 7, 1⟩
def PB5.BYP_STATUS_FAILOVER : Fld := ⟨0x44, 6, 1⟩
def PB5.BYP_STATUS_RECOVERY : Fld := ⟨0x44, 5, 1⟩
def PB5.BYP_STATUS_SUPPLY_HOLD : Fld := ⟨0x44, 4, 1⟩
def PB5.BYP_STATUS_FORCE : Fld := ⟨0x44, 3, 1⟩
def PB5.BYP_STATUS_PIN : Fld := ⟨0x44, 2, 1⟩
def PB5.BYP_STATUS_RESET : Fld := ⟨0x44, 1, 1⟩
def PB5.BYP_STATUS_CLOSED : Fld := ⟨0x44, 0, 1⟩
def PB5.BYP_CLOSE_COUNT : Fld := ⟨0x48, 0, 32⟩
def PB5.BYP_LAST_NS : Fld := ⟨0x4C, 0, 32⟩

def rowsPB5 : List RegRow := [
  ⟨⟨0x100, 3, 1⟩, 0x20, 8, 0, 1, .ro, .fuse⟩ /- TRIG_CTRL_IDLE R94 -/,
  ⟨⟨0x100, 0, 2⟩, 0x20, 8, 0, 1, .rws, .val 0⟩ /- TRIG_CTRL_MODE R94 -/,
  ⟨⟨0x104, 0, 16⟩, 0x20, 8, 0, 1, .rws, .val 0⟩ /- TRIG_SEC_HI R94 -/,
  ⟨⟨0x108, 0, 32⟩, 0x20, 8, 0, 1, .rws, .val 0⟩ /- TRIG_SEC_LO R94 -/,
  ⟨⟨0x10C, 0, 32⟩, 0x20, 8, 0, 1, .rws, .val 0⟩ /- TRIG_AT R94 -/,
  ⟨⟨0x110, 0, 32⟩, 0x20, 8, 0, 1, .rws, .val 0⟩ /- TRIG_PERIOD_NS R94 -/,
  ⟨⟨0x114, 0, 32⟩, 0x20, 8, 0, 1, .rws, .val 0⟩ /- TRIG_WIDTH_NS R94 -/,
  ⟨⟨0x118, 31, 1⟩, 0x20, 8, 0, 1, .w1c, .val 0⟩ /- TRIG_STATUS_LATE R94 -/,
  ⟨⟨0x118, 0, 31⟩, 0x20, 8, 0, 1, .ro, .val 0⟩ /- TRIG_STATUS_FIRED R94 -/,
  ⟨⟨0x200, 8, 5⟩, 0x20, 4, 0, 1, .ro, .val 0⟩ /- CAP_CTRL_LEVEL R95 -/,
  ⟨⟨0x200, 2, 1⟩, 0x20, 4, 0, 1, .w1c, .val 0⟩ /- CAP_CTRL_OVERFLOW R95 -/,
  ⟨⟨0x200, 0, 2⟩, 0x20, 4, 0, 1, .rw, .val 0⟩ /- CAP_CTRL_EDGE R95 -/,
  ⟨⟨0x204, 31, 1⟩, 0x20, 4, 0, 1, .ro, .val 0⟩ /- CAP_HEAD_HI_VALID R95 -/,
  ⟨⟨0x204, 30, 1⟩, 0x20, 4, 0, 1, .ro, .val 0⟩ /- CAP_HEAD_HI_EDGE R95 -/,
  ⟨⟨0x204, 0, 16⟩, 0x20, 4, 0, 1, .ro, .val 0⟩ /- CAP_HEAD_HI_SEC_HI R95 -/,
  ⟨⟨0x208, 0, 32⟩, 0x20, 4, 0, 1, .ro, .val 0⟩ /- CAP_SEC_LO R95 -/,
  ⟨⟨0x20C, 0, 32⟩, 0x20, 4, 0, 1, .ro, .val 0⟩ /- CAP_NS R95 -/,
  ⟨⟨0x210, 0, 16⟩, 0x20, 4, 0, 1, .ro, .val 0⟩ /- CAP_FRAC R95 -/,
  ⟨⟨0x40, 16, 1⟩, 0, 1, 0, 1, .rw, .val 1⟩ /- BYP_CTRL_FORCE_CLOSE R122 -/,
  ⟨⟨0x40, 0, 16⟩, 0, 1, 0, 1, .rw, .val 0xA⟩ /- BYP_CTRL_HOLDOFF_MS R122 -/,
  ⟨⟨0x44, 8, 1⟩, 0, 1, 0, 1, .ro, .val 0⟩ /- BYP_STATUS_HOLDOFF R122 -/,
  ⟨⟨0x44, 7, 1⟩, 0, 1, 0, 1, .ro, .val 0⟩ /- BYP_STATUS_PORT_OFF R122 -/,
  ⟨⟨0x44, 6, 1⟩, 0, 1, 0, 1, .ro, .val 0⟩ /- BYP_STATUS_FAILOVER R122 -/,
  ⟨⟨0x44, 5, 1⟩, 0, 1, 0, 1, .ro, .val 0⟩ /- BYP_STATUS_RECOVERY R122 -/,
  ⟨⟨0x44, 4, 1⟩, 0, 1, 0, 1, .ro, .val 0⟩ /- BYP_STATUS_SUPPLY_HOLD R122 -/,
  ⟨⟨0x44, 3, 1⟩, 0, 1, 0, 1, .ro, .val 1⟩ /- BYP_STATUS_FORCE R122 -/,
  ⟨⟨0x44, 2, 1⟩, 0, 1, 0, 1, .ro, .val 0⟩ /- BYP_STATUS_PIN R122 -/,
  ⟨⟨0x44, 1, 1⟩, 0, 1, 0, 1, .ro, .val 0⟩ /- BYP_STATUS_RESET R122 -/,
  ⟨⟨0x44, 0, 1⟩, 0, 1, 0, 1, .ro, .val 1⟩ /- BYP_STATUS_CLOSED R122 -/,
  ⟨⟨0x48, 0, 32⟩, 0, 1, 0, 1, .rc, .val 0⟩ /- BYP_CLOSE_COUNT R122 -/,
  ⟨⟨0x4C, 0, 32⟩, 0, 1, 0, 1, .ro, .val 0⟩ /- BYP_LAST_NS R122 -/]

/-! ### PB6 -/

def PB6.LED_CTRL_PERIOD_SRC : Fld := ⟨0x40, 1, 1⟩
def PB6.LED_CTRL_BUDGET_EN : Fld := ⟨0x40, 0, 1⟩
def PB6.POWER_CAP : Fld := ⟨0x44, 0, 16⟩
def PB6.FRAME_BUDGET : Fld := ⟨0x48, 0, 32⟩
def PB6.RESERVE1 : Fld := ⟨0x4C, 0, 32⟩
def PB6.RESERVE2 : Fld := ⟨0x50, 0, 32⟩
def PB6.RESERVE3 : Fld := ⟨0x54, 0, 32⟩
def PB6.PERIOD_US : Fld := ⟨0x58, 0, 32⟩
def PB6.COEF_COEF_16 : Fld := ⟨0x5C, 20, 10⟩
def PB6.COEF_COEF_4 : Fld := ⟨0x5C, 10, 10⟩
def PB6.COEF_COEF_8 : Fld := ⟨0x5C, 0, 10⟩
def PB6.THROTTLE_CFG_STRETCH_HOLD_US : Fld := ⟨0x60, 8, 8⟩
def PB6.THROTTLE_CFG_HYST : Fld := ⟨0x60, 0, 8⟩
def PB6.SUPPLY_CFG_RELEASE_MS : Fld := ⟨0x64, 16, 16⟩
def PB6.SUPPLY_CFG_HOLD_DEADLINE_US : Fld := ⟨0x64, 0, 16⟩
def PB6.LED_STATUS_STRETCH : Fld := ⟨0x68, 9, 4⟩
def PB6.LED_STATUS_THERM_WARN : Fld := ⟨0x68, 8, 1⟩
def PB6.LED_STATUS_SUPPLY_HOLD : Fld := ⟨0x68, 7, 1⟩
def PB6.LED_STATUS_SUPPLY_PENDING : Fld := ⟨0x68, 6, 1⟩
def PB6.LED_STATUS_OVERDRAW : Fld := ⟨0x68, 5, 1⟩
def PB6.LED_STATUS_CAP_UNMET : Fld := ⟨0x68, 4, 1⟩
def PB6.LED_STATUS_OVER_CAP : Fld := ⟨0x68, 3, 1⟩
def PB6.LED_STATUS_STEP : Fld := ⟨0x68, 0, 3⟩
def PB6.SPENT : Fld := ⟨0x6C, 0, 32⟩
def PB6.COMMIT : Fld := ⟨0x70, 0, 32⟩
def PB6.HEADROOM : Fld := ⟨0x74, 0, 32⟩
def PB6.POWER_P_LAST : Fld := ⟨0x78, 16, 16⟩
def PB6.POWER_P_AVG : Fld := ⟨0x78, 0, 16⟩
def PB6.LAST_PERIOD_UJ : Fld := ⟨0x7C, 0, 32⟩
def PB6.ADMITTED : Fld := ⟨0x80, 0, 32⟩
def PB6.ADMIT_WAIT : Fld := ⟨0x84, 0, 32⟩
def PB6.OVERDRAWS : Fld := ⟨0x88, 0, 32⟩
def PB6.CAP_EVENTS : Fld := ⟨0x8C, 0, 32⟩
def PB6.SUPPLY_EVENTS : Fld := ⟨0x90, 0, 32⟩
def PB6.THERM_EVENTS : Fld := ⟨0x94, 0, 32⟩
def PB6.STEP_FAIL : Fld := ⟨0x98, 0, 32⟩
def PB6.TREAD_UJ (n : Nat) : Fld := ⟨0x400 + 4 * n, 0, 32⟩

def rowsPB6 : List RegRow := [
  ⟨⟨0x40, 1, 1⟩, 0, 1, 0, 1, .rws, .val 0⟩ /- LED_CTRL_PERIOD_SRC R539 -/,
  ⟨⟨0x40, 0, 1⟩, 0, 1, 0, 1, .rws, .val 0⟩ /- LED_CTRL_BUDGET_EN R539 -/,
  ⟨⟨0x44, 0, 16⟩, 0, 1, 0, 1, .rws, .fuse⟩ /- POWER_CAP R539 -/,
  ⟨⟨0x48, 0, 32⟩, 0, 1, 0, 1, .rws, .val 0⟩ /- FRAME_BUDGET R539 -/,
  ⟨⟨0x4C, 0, 32⟩, 0, 1, 0, 1, .rws, .val 0⟩ /- RESERVE1 R539 -/,
  ⟨⟨0x50, 0, 32⟩, 0, 1, 0, 1, .rws, .val 0⟩ /- RESERVE2 R539 -/,
  ⟨⟨0x54, 0, 32⟩, 0, 1, 0, 1, .rws, .val 0⟩ /- RESERVE3 R539 -/,
  ⟨⟨0x58, 0, 32⟩, 0, 1, 0, 1, .rws, .val 0x186A0⟩ /- PERIOD_US R539 -/,
  ⟨⟨0x5C, 20, 10⟩, 0, 1, 0, 1, .rws, .firmware⟩ /- COEF_COEF_16 R539 -/,
  ⟨⟨0x5C, 10, 10⟩, 0, 1, 0, 1, .rws, .firmware⟩ /- COEF_COEF_4 R539 -/,
  ⟨⟨0x5C, 0, 10⟩, 0, 1, 0, 1, .rws, .firmware⟩ /- COEF_COEF_8 R539 -/,
  ⟨⟨0x60, 8, 8⟩, 0, 1, 0, 1, .rws, .val 0x32⟩ /- THROTTLE_CFG_STRETCH_HOLD_US R539 -/,
  ⟨⟨0x60, 0, 8⟩, 0, 1, 0, 1, .rws, .val 8⟩ /- THROTTLE_CFG_HYST R539 -/,
  ⟨⟨0x64, 16, 16⟩, 0, 1, 0, 1, .rws, .val 0xA⟩ /- SUPPLY_CFG_RELEASE_MS R539 -/,
  ⟨⟨0x64, 0, 16⟩, 0, 1, 0, 1, .rws, .val 0x7D0⟩ /- SUPPLY_CFG_HOLD_DEADLINE_US R539 -/,
  ⟨⟨0x68, 9, 4⟩, 0, 1, 0, 1, .ro, .val 0⟩ /- LED_STATUS_STRETCH R539 -/,
  ⟨⟨0x68, 8, 1⟩, 0, 1, 0, 1, .ro, .val 0⟩ /- LED_STATUS_THERM_WARN R539 -/,
  ⟨⟨0x68, 7, 1⟩, 0, 1, 0, 1, .ro, .val 0⟩ /- LED_STATUS_SUPPLY_HOLD R539 -/,
  ⟨⟨0x68, 6, 1⟩, 0, 1, 0, 1, .ro, .val 0⟩ /- LED_STATUS_SUPPLY_PENDING R539 -/,
  ⟨⟨0x68, 5, 1⟩, 0, 1, 0, 1, .ro, .val 0⟩ /- LED_STATUS_OVERDRAW R539 -/,
  ⟨⟨0x68, 4, 1⟩, 0, 1, 0, 1, .ro, .val 0⟩ /- LED_STATUS_CAP_UNMET R539 -/,
  ⟨⟨0x68, 3, 1⟩, 0, 1, 0, 1, .ro, .val 0⟩ /- LED_STATUS_OVER_CAP R539 -/,
  ⟨⟨0x68, 0, 3⟩, 0, 1, 0, 1, .ro, .val 0⟩ /- LED_STATUS_STEP R539 -/,
  ⟨⟨0x6C, 0, 32⟩, 0, 1, 0, 1, .ro, .val 0⟩ /- SPENT R539 -/,
  ⟨⟨0x70, 0, 32⟩, 0, 1, 0, 1, .ro, .val 0⟩ /- COMMIT R539 -/,
  ⟨⟨0x74, 0, 32⟩, 0, 1, 0, 1, .ro, .val 0⟩ /- HEADROOM R539 -/,
  ⟨⟨0x78, 16, 16⟩, 0, 1, 0, 1, .ro, .val 0⟩ /- POWER_P_LAST R539 -/,
  ⟨⟨0x78, 0, 16⟩, 0, 1, 0, 1, .ro, .val 0⟩ /- POWER_P_AVG R539 -/,
  ⟨⟨0x7C, 0, 32⟩, 0, 1, 0, 1, .ro, .val 0⟩ /- LAST_PERIOD_UJ R539 -/,
  ⟨⟨0x80, 0, 32⟩, 0, 1, 0, 1, .rc, .val 0⟩ /- ADMITTED R539 -/,
  ⟨⟨0x84, 0, 32⟩, 0, 1, 0, 1, .rc, .val 0⟩ /- ADMIT_WAIT R539 -/,
  ⟨⟨0x88, 0, 32⟩, 0, 1, 0, 1, .rc, .val 0⟩ /- OVERDRAWS R539 -/,
  ⟨⟨0x8C, 0, 32⟩, 0, 1, 0, 1, .rc, .val 0⟩ /- CAP_EVENTS R539 -/,
  ⟨⟨0x90, 0, 32⟩, 0, 1, 0, 1, .rc, .val 0⟩ /- SUPPLY_EVENTS R539 -/,
  ⟨⟨0x94, 0, 32⟩, 0, 1, 0, 1, .rc, .val 0⟩ /- THERM_EVENTS R539 -/,
  ⟨⟨0x98, 0, 32⟩, 0, 1, 0, 1, .rc, .val 0⟩ /- STEP_FAIL R539 -/,
  ⟨⟨0x400, 0, 32⟩, 4, 256, 0, 1, .ro, .val 0⟩ /- TREAD_UJ R539 -/]

/-! ### PB7 -/

def PB7.PCIE_STATUS_SPEED : Fld := ⟨0x40, 16, 4⟩
def PB7.PCIE_STATUS_WIDTH : Fld := ⟨0x40, 8, 3⟩
def PB7.PCIE_STATUS_DSTATE : Fld := ⟨0x40, 4, 2⟩
def PB7.PCIE_STATUS_LINK_UP : Fld := ⟨0x40, 0, 1⟩
def PB7.WIN_BASE_LO : Fld := ⟨0x44, 16, 16⟩
def PB7.WIN_BASE_HI : Fld := ⟨0x48, 0, 26⟩
def PB7.HOST_IRQ_SET : Fld := ⟨0x4C, 0, 32⟩
def PB7.HOST_IRQ_STAT : Fld := ⟨0x50, 0, 32⟩
def PB7.EGO_WR_BOTH : Fld := ⟨0x54, 0, 16⟩
def PB7.HOST_REFUSED : Fld := ⟨0x58, 0, 32⟩
def PB7.HOST_TGT_RESET : Fld := ⟨0x5C, 0, 32⟩
def PB7.HOST_POISONED : Fld := ⟨0x60, 0, 32⟩
def PB7.HOST_UNMAPPED : Fld := ⟨0x64, 0, 32⟩
def PB7.OUT_TIMEOUT : Fld := ⟨0x68, 0, 32⟩
def PB7.OUT_ERR : Fld := ⟨0x6C, 0, 32⟩
def PB7.LINK_DOWN : Fld := ⟨0x70, 0, 32⟩
def PB7.AER_CORR : Fld := ⟨0x74, 0, 32⟩
def PB7.AER_UNCORR : Fld := ⟨0x78, 0, 32⟩
def PB7.OUTWIN_BASE_LO (n : Nat) : Fld := ⟨0x100 + 0x10 * n, 12, 20⟩
def PB7.OUTWIN_BASE_HI (n : Nat) : Fld := ⟨0x104 + 0x10 * n, 0, 32⟩
def PB7.OUTWIN_SIZE_M1 (n : Nat) : Fld := ⟨0x108 + 0x10 * n, 0, 32⟩
def PB7.OUTWIN_ATTR_NS (n : Nat) : Fld := ⟨0x10C + 0x10 * n, 2, 1⟩
def PB7.OUTWIN_ATTR_RO (n : Nat) : Fld := ⟨0x10C + 0x10 * n, 1, 1⟩
def PB7.OUTWIN_ATTR_VALID (n : Nat) : Fld := ⟨0x10C + 0x10 * n, 0, 1⟩

def rowsPB7 : List RegRow := [
  ⟨⟨0x40, 16, 4⟩, 0, 1, 0, 1, .ro, .val 0⟩ /- PCIE_STATUS_SPEED R681 -/,
  ⟨⟨0x40, 8, 3⟩, 0, 1, 0, 1, .ro, .val 0⟩ /- PCIE_STATUS_WIDTH R681 -/,
  ⟨⟨0x40, 4, 2⟩, 0, 1, 0, 1, .ro, .val 0⟩ /- PCIE_STATUS_DSTATE R681 -/,
  ⟨⟨0x40, 0, 1⟩, 0, 1, 0, 1, .ro, .val 0⟩ /- PCIE_STATUS_LINK_UP R681 -/,
  ⟨⟨0x44, 16, 16⟩, 0, 1, 0, 1, .rws, .val 0⟩ /- WIN_BASE_LO R681 -/,
  ⟨⟨0x48, 0, 26⟩, 0, 1, 0, 1, .rws, .val 0⟩ /- WIN_BASE_HI R681 -/,
  ⟨⟨0x4C, 0, 32⟩, 0, 1, 0, 1, .wo, .val 0⟩ /- HOST_IRQ_SET R681 -/,
  ⟨⟨0x50, 0, 32⟩, 0, 1, 0, 1, .w1c, .val 0⟩ /- HOST_IRQ_STAT R681 -/,
  ⟨⟨0x54, 0, 16⟩, 0, 1, 0, 1, .wo, .val 0⟩ /- EGO_WR_BOTH R681 -/,
  ⟨⟨0x58, 0, 32⟩, 0, 1, 0, 1, .rc, .val 0⟩ /- HOST_REFUSED R681 -/,
  ⟨⟨0x5C, 0, 32⟩, 0, 1, 0, 1, .rc, .val 0⟩ /- HOST_TGT_RESET R681 -/,
  ⟨⟨0x60, 0, 32⟩, 0, 1, 0, 1, .rc, .val 0⟩ /- HOST_POISONED R681 -/,
  ⟨⟨0x64, 0, 32⟩, 0, 1, 0, 1, .rc, .val 0⟩ /- HOST_UNMAPPED R681 -/,
  ⟨⟨0x68, 0, 32⟩, 0, 1, 0, 1, .rc, .val 0⟩ /- OUT_TIMEOUT R681 -/,
  ⟨⟨0x6C, 0, 32⟩, 0, 1, 0, 1, .rc, .val 0⟩ /- OUT_ERR R681 -/,
  ⟨⟨0x70, 0, 32⟩, 0, 1, 0, 1, .rc, .val 0⟩ /- LINK_DOWN R681 -/,
  ⟨⟨0x74, 0, 32⟩, 0, 1, 0, 1, .rc, .val 0⟩ /- AER_CORR R681 -/,
  ⟨⟨0x78, 0, 32⟩, 0, 1, 0, 1, .rc, .val 0⟩ /- AER_UNCORR R681 -/,
  ⟨⟨0x100, 12, 20⟩, 0x10, 8, 0, 1, .rws, .val 0⟩ /- OUTWIN_BASE_LO R681 -/,
  ⟨⟨0x104, 0, 32⟩, 0x10, 8, 0, 1, .rws, .val 0⟩ /- OUTWIN_BASE_HI R681 -/,
  ⟨⟨0x108, 0, 32⟩, 0x10, 8, 0, 1, .rws, .val 0⟩ /- OUTWIN_SIZE_M1 R681 -/,
  ⟨⟨0x10C, 2, 1⟩, 0x10, 8, 0, 1, .rws, .val 0⟩ /- OUTWIN_ATTR_NS R681 -/,
  ⟨⟨0x10C, 1, 1⟩, 0x10, 8, 0, 1, .rws, .val 0⟩ /- OUTWIN_ATTR_RO R681 -/,
  ⟨⟨0x10C, 0, 1⟩, 0x10, 8, 0, 1, .rws, .val 0⟩ /- OUTWIN_ATTR_VALID R681 -/]

/-! ### PB8 -/

def PB8.GAL_CTRL_RRESET_EN : Fld := ⟨0x40, 2, 1⟩
def PB8.GAL_CTRL_EN : Fld := ⟨0x40, 0, 1⟩
def PB8.GAL_NODE_HOST_NODE : Fld := ⟨0x44, 16, 10⟩
def PB8.GAL_NODE_NODE_ID : Fld := ⟨0x44, 0, 10⟩
def PB8.GAL_TOPO_ZM1 : Fld := ⟨0x48, 8, 4⟩
def PB8.GAL_TOPO_YM1 : Fld := ⟨0x48, 4, 3⟩
def PB8.GAL_TOPO_XM1 : Fld := ⟨0x48, 0, 3⟩
def PB8.GAL_TIMEOUT : Fld := ⟨0x4C, 0, 16⟩
def PB8.GAL_RETRAIN_CRC_THRESH : Fld := ⟨0x50, 16, 16⟩
def PB8.GAL_RETRAIN_MS : Fld := ⟨0x50, 0, 16⟩
def PB8.RRESET_SRC_MAX : Fld := ⟨0x54, 16, 10⟩
def PB8.RRESET_SRC_MIN : Fld := ⟨0x54, 0, 10⟩
def PB8.GAL_STATUS_LINKS_UP : Fld := ⟨0x58, 24, 6⟩
def PB8.GAL_STATUS_HOST_LINK : Fld := ⟨0x58, 16, 1⟩
def PB8.GAL_STATUS_OUTSTANDING : Fld := ⟨0x58, 0, 13⟩
def PB8.REQ_SENT : Fld := ⟨0x5C, 0, 32⟩
def PB8.REQ_SERVED : Fld := ⟨0x60, 0, 32⟩
def PB8.FORWARDED : Fld := ⟨0x64, 0, 32⟩
def PB8.TIMEOUTS : Fld := ⟨0x68, 0, 32⟩
def PB8.UNROUTABLE : Fld := ⟨0x6C, 0, 32⟩
def PB8.TURNED : Fld := ⟨0x70, 0, 32⟩
def PB8.ORPHAN_CPL : Fld := ⟨0x74, 0, 32⟩
def PB8.BAD_PKT : Fld := ⟨0x78, 0, 32⟩
def PB8.RRESET_RECV : Fld := ⟨0x7C, 0, 32⟩
def PB8.RRESET_REFUSED : Fld := ⟨0x80, 0, 32⟩
def PB8.MSG_STATUS_VALID : Fld := ⟨0x84, 31, 1⟩
def PB8.MSG_STATUS_LEVEL : Fld := ⟨0x84, 0, 7⟩
def PB8.MSG_SRC : Fld := ⟨0x88, 0, 10⟩
def PB8.MSG_POP : Fld := ⟨0x8C, 0, 1⟩
def PB8.MSG_DROP : Fld := ⟨0x90, 0, 32⟩
def PB8.MSG_DATA (n : Nat) : Fld := ⟨0xC0 + 4 * n, 0, 32⟩
def PB8.GP_CTRL (n : Nat) : Fld := ⟨0x100 + 0x40 * n, 0, 1⟩
def PB8.GP_STATUS_PEER_PORT (n : Nat) : Fld := ⟨0x104 + 0x40 * n, 28, 3⟩
def PB8.GP_STATUS_PEER_NODE (n : Nat) : Fld := ⟨0x104 + 0x40 * n, 16, 10⟩
def PB8.GP_STATUS_SPARE_USED (n : Nat) : Fld := ⟨0x104 + 0x40 * n, 8, 1⟩
def PB8.GP_STATUS_LANE_OUT (n : Nat) : Fld := ⟨0x104 + 0x40 * n, 4, 3⟩
def PB8.GP_STATUS_STATE (n : Nat) : Fld := ⟨0x104 + 0x40 * n, 0, 3⟩
def PB8.GP_TX_FLITS (n : Nat) : Fld := ⟨0x108 + 0x40 * n, 0, 32⟩
def PB8.GP_RX_FLITS (n : Nat) : Fld := ⟨0x10C + 0x40 * n, 0, 32⟩
def PB8.GP_CRC_ERR (n : Nat) : Fld := ⟨0x110 + 0x40 * n, 0, 32⟩
def PB8.GP_REPLAYS (n : Nat) : Fld := ⟨0x114 + 0x40 * n, 0, 32⟩
def PB8.GP_RETRAINS (n : Nat) : Fld := ⟨0x118 + 0x40 * n, 0, 32⟩
def PB8.GP_LINK_DOWN (n : Nat) : Fld := ⟨0x11C + 0x40 * n, 0, 32⟩
def PB8.GP_LOST (n : Nat) : Fld := ⟨0x120 + 0x40 * n, 0, 32⟩
def PB8.GP_PROTO_ERR (n : Nat) : Fld := ⟨0x124 + 0x40 * n, 0, 32⟩
def PB8.GP_MISMATCH (n : Nat) : Fld := ⟨0x128 + 0x40 * n, 0, 32⟩

def rowsPB8a : List RegRow := [
  ⟨⟨0x40, 2, 1⟩, 0, 1, 0, 1, .rws, .val 0⟩ /- GAL_CTRL_RRESET_EN R507 -/,
  ⟨⟨0x40, 0, 1⟩, 0, 1, 0, 1, .rws, .val 0⟩ /- GAL_CTRL_EN R507 -/,
  ⟨⟨0x44, 16, 10⟩, 0, 1, 0, 1, .rws, .val 0⟩ /- GAL_NODE_HOST_NODE R507 -/,
  ⟨⟨0x44, 0, 10⟩, 0, 1, 0, 1, .rws, .val 0⟩ /- GAL_NODE_NODE_ID R507 -/,
  ⟨⟨0x48, 8, 4⟩, 0, 1, 0, 1, .rws, .val 0⟩ /- GAL_TOPO_ZM1 R507 -/,
  ⟨⟨0x48, 4, 3⟩, 0, 1, 0, 1, .rws, .val 0⟩ /- GAL_TOPO_YM1 R507 -/,
  ⟨⟨0x48, 0, 3⟩, 0, 1, 0, 1, .rws, .val 0⟩ /- GAL_TOPO_XM1 R507 -/,
  ⟨⟨0x4C, 0, 16⟩, 0, 1, 0, 1, .rws, .val 0x3E8⟩ /- GAL_TIMEOUT R507 -/,
  ⟨⟨0x50, 16, 16⟩, 0, 1, 0, 1, .rws, .val 0x40⟩ /- GAL_RETRAIN_CRC_THRESH R507 -/,
  ⟨⟨0x50, 0, 16⟩, 0, 1, 0, 1, .rws, .val 0xA⟩ /- GAL_RETRAIN_MS R507 -/,
  ⟨⟨0x54, 16, 10⟩, 0, 1, 0, 1, .rws, .val 0⟩ /- RRESET_SRC_MAX R507 -/,
  ⟨⟨0x54, 0, 10⟩, 0, 1, 0, 1, .rws, .val 0⟩ /- RRESET_SRC_MIN R507 -/,
  ⟨⟨0x58, 24, 6⟩, 0, 1, 0, 1, .ro, .val 0⟩ /- GAL_STATUS_LINKS_UP R507 -/,
  ⟨⟨0x58, 16, 1⟩, 0, 1, 0, 1, .ro, .val 0⟩ /- GAL_STATUS_HOST_LINK R507 -/,
  ⟨⟨0x58, 0, 13⟩, 0, 1, 0, 1, .ro, .val 0⟩ /- GAL_STATUS_OUTSTANDING R507 -/,
  ⟨⟨0x5C, 0, 32⟩, 0, 1, 0, 1, .rc, .val 0⟩ /- REQ_SENT R507 -/,
  ⟨⟨0x60, 0, 32⟩, 0, 1, 0, 1, .rc, .val 0⟩ /- REQ_SERVED R507 -/,
  ⟨⟨0x64, 0, 32⟩, 0, 1, 0, 1, .rc, .val 0⟩ /- FORWARDED R507 -/,
  ⟨⟨0x68, 0, 32⟩, 0, 1, 0, 1, .rc, .val 0⟩ /- TIMEOUTS R507 -/,
  ⟨⟨0x6C, 0, 32⟩, 0, 1, 0, 1, .rc, .val 0⟩ /- UNROUTABLE R507 -/,
  ⟨⟨0x70, 0, 32⟩, 0, 1, 0, 1, .rc, .val 0⟩ /- TURNED R507 -/,
  ⟨⟨0x74, 0, 32⟩, 0, 1, 0, 1, .rc, .val 0⟩ /- ORPHAN_CPL R507 -/,
  ⟨⟨0x78, 0, 32⟩, 0, 1, 0, 1, .rc, .val 0⟩ /- BAD_PKT R507 -/,
  ⟨⟨0x7C, 0, 32⟩, 0, 1, 0, 1, .rc, .val 0⟩ /- RRESET_RECV R507 -/,
  ⟨⟨0x80, 0, 32⟩, 0, 1, 0, 1, .rc, .val 0⟩ /- RRESET_REFUSED R507 -/,
  ⟨⟨0x84, 31, 1⟩, 0, 1, 0, 1, .ro, .val 0⟩ /- MSG_STATUS_VALID R507 -/,
  ⟨⟨0x84, 0, 7⟩, 0, 1, 0, 1, .ro, .val 0⟩ /- MSG_STATUS_LEVEL R507 -/,
  ⟨⟨0x88, 0, 10⟩, 0, 1, 0, 1, .ro, .val 0⟩ /- MSG_SRC R507 -/,
  ⟨⟨0x8C, 0, 1⟩, 0, 1, 0, 1, .wo, .val 0⟩ /- MSG_POP R507 -/,
  ⟨⟨0x90, 0, 32⟩, 0, 1, 0, 1, .rc, .val 0⟩ /- MSG_DROP R507 -/,
  ⟨⟨0xC0, 0, 32⟩, 4, 16, 0, 1, .ro, .val 0⟩ /- MSG_DATA R507 -/,
  ⟨⟨0x100, 0, 1⟩, 0x40, 6, 0, 1, .rws, .val 1⟩ /- GP_CTRL R507 -/,
  ⟨⟨0x104, 28, 3⟩, 0x40, 6, 0, 1, .ro, .val 0⟩ /- GP_STATUS_PEER_PORT R507 -/,
  ⟨⟨0x104, 16, 10⟩, 0x40, 6, 0, 1, .ro, .val 0⟩ /- GP_STATUS_PEER_NODE R507 -/,
  ⟨⟨0x104, 8, 1⟩, 0x40, 6, 0, 1, .ro, .val 0⟩ /- GP_STATUS_SPARE_USED R507 -/,
  ⟨⟨0x104, 4, 3⟩, 0x40, 6, 0, 1, .ro, .val 4⟩ /- GP_STATUS_LANE_OUT R507 -/,
  ⟨⟨0x104, 0, 3⟩, 0x40, 6, 0, 1, .ro, .val 0⟩ /- GP_STATUS_STATE R507 -/,
  ⟨⟨0x108, 0, 32⟩, 0x40, 6, 0, 1, .rc, .val 0⟩ /- GP_TX_FLITS R507 -/,
  ⟨⟨0x10C, 0, 32⟩, 0x40, 6, 0, 1, .rc, .val 0⟩ /- GP_RX_FLITS R507 -/,
  ⟨⟨0x110, 0, 32⟩, 0x40, 6, 0, 1, .rc, .val 0⟩ /- GP_CRC_ERR R507 -/]

def rowsPB8b : List RegRow := [
  ⟨⟨0x114, 0, 32⟩, 0x40, 6, 0, 1, .rc, .val 0⟩ /- GP_REPLAYS R507 -/,
  ⟨⟨0x118, 0, 32⟩, 0x40, 6, 0, 1, .rc, .val 0⟩ /- GP_RETRAINS R507 -/,
  ⟨⟨0x11C, 0, 32⟩, 0x40, 6, 0, 1, .rc, .val 0⟩ /- GP_LINK_DOWN R507 -/,
  ⟨⟨0x120, 0, 32⟩, 0x40, 6, 0, 1, .rc, .val 0⟩ /- GP_LOST R507 -/,
  ⟨⟨0x124, 0, 32⟩, 0x40, 6, 0, 1, .rc, .val 0⟩ /- GP_PROTO_ERR R507 -/,
  ⟨⟨0x128, 0, 32⟩, 0x40, 6, 0, 1, .rc, .val 0⟩ /- GP_MISMATCH R507 -/]

def rowsPB8 : List RegRow := rowsPB8a ++ rowsPB8b

/-! ### PB9 -/

def PB9.ACC_CTRL_DEBUG_WAS_OPEN : Fld := ⟨0x40, 2, 1⟩
def PB9.ACC_CTRL_DEBUG_EN : Fld := ⟨0x40, 1, 1⟩
def PB9.ACC_CTRL_LOCK : Fld := ⟨0x40, 0, 1⟩
def PB9.ACC_STATUS_QUOTE_BUSY : Fld := ⟨0x44, 1, 1⟩
def PB9.ACC_STATUS_IDENT_READY : Fld := ⟨0x44, 0, 1⟩
def PB9.DENY_COUNT : Fld := ⟨0x48, 0, 32⟩
def PB9.DENY_FIRST_VALID : Fld := ⟨0x4C, 31, 1⟩
def PB9.DENY_FIRST_WRITE : Fld := ⟨0x4C, 30, 1⟩
def PB9.DENY_FIRST_REMOTE : Fld := ⟨0x4C, 29, 1⟩
def PB9.DENY_FIRST_MID : Fld := ⟨0x4C, 24, 5⟩
def PB9.DENY_FIRST_UNIT : Fld := ⟨0x4C, 23, 1⟩
def PB9.DENY_FIRST_NODE : Fld := ⟨0x4C, 0, 10⟩
def PB9.DENY_ADDR_LO : Fld := ⟨0x50, 0, 32⟩
def PB9.DENY_ADDR_HI : Fld := ⟨0x54, 0, 26⟩
def PB9.INBOUND_NODES_MAX : Fld := ⟨0x58, 16, 10⟩
def PB9.INBOUND_NODES_MIN : Fld := ⟨0x58, 0, 10⟩
def PB9.GAL_DEFAULT_LO : Fld := ⟨0x5C, 0, 32⟩
def PB9.GAL_DEFAULT_HI : Fld := ⟨0x60, 0, 32⟩
def PB9.QUOTE_CMD : Fld := ⟨0x64, 0, 1⟩
def PB9.QUOTE_DST_LO : Fld := ⟨0x68, 0, 32⟩
def PB9.QUOTE_DST_HI : Fld := ⟨0x6C, 0, 26⟩
def PB9.QUOTE_SEQ : Fld := ⟨0x70, 0, 32⟩
def PB9.DEVICE_ID_LO : Fld := ⟨0x74, 0, 32⟩
def PB9.DEVICE_ID_HI : Fld := ⟨0x78, 0, 32⟩
def PB9.EXTEND_CMD_GO : Fld := ⟨0x7C, 31, 1⟩
def PB9.EXTEND_CMD_SLOT : Fld := ⟨0x7C, 0, 2⟩
def PB9.NONCE (n : Nat) : Fld := ⟨0x80 + 4 * n, 0, 32⟩
def PB9.EXTEND_DATA (n : Nat) : Fld := ⟨0xA0 + 4 * n, 0, 32⟩
def PB9.GROUP_GRANT_LO (n : Nat) : Fld := ⟨0x100 + 8 * n, 0, 32⟩
def PB9.GROUP_GRANT_HI (n : Nat) : Fld := ⟨0x104 + 8 * n, 0, 32⟩
def PB9.HOSTWIN_GRANT_LO (n : Nat) : Fld := ⟨0x300 + 8 * n, 0, 32⟩
def PB9.HOSTWIN_GRANT_HI (n : Nat) : Fld := ⟨0x304 + 8 * n, 0, 32⟩
def PB9.NODE_WIN_BASE (n : Nat) : Fld := ⟨0x340 + 0x10 * n, 0, 10⟩
def PB9.NODE_WIN_LIMIT (n : Nat) : Fld := ⟨0x344 + 0x10 * n, 0, 10⟩
def PB9.NODE_WIN_GRANT_LO (n : Nat) : Fld := ⟨0x348 + 0x10 * n, 0, 32⟩
def PB9.NODE_WIN_GRANT_HI (n : Nat) : Fld := ⟨0x34C + 0x10 * n, 0, 32⟩
def PB9.MEAS (n : Nat) : Fld := ⟨0x400 + 4 * n, 0, 32⟩

def rowsPB9 : List RegRow := [
  ⟨⟨0x40, 2, 1⟩, 0, 1, 0, 1, .ro, .val 0⟩ /- ACC_CTRL_DEBUG_WAS_OPEN R646 -/,
  ⟨⟨0x40, 1, 1⟩, 0, 1, 0, 1, .rwl, .val 0⟩ /- ACC_CTRL_DEBUG_EN R646 -/,
  ⟨⟨0x40, 0, 1⟩, 0, 1, 0, 1, .rwl, .val 0⟩ /- ACC_CTRL_LOCK R646 -/,
  ⟨⟨0x44, 1, 1⟩, 0, 1, 0, 1, .ro, .val 0⟩ /- ACC_STATUS_QUOTE_BUSY R646 -/,
  ⟨⟨0x44, 0, 1⟩, 0, 1, 0, 1, .ro, .val 0⟩ /- ACC_STATUS_IDENT_READY R646 -/,
  ⟨⟨0x48, 0, 32⟩, 0, 1, 0, 1, .rc, .val 0⟩ /- DENY_COUNT R646 -/,
  ⟨⟨0x4C, 31, 1⟩, 0, 1, 0, 1, .w1c, .val 0⟩ /- DENY_FIRST_VALID R646 -/,
  ⟨⟨0x4C, 30, 1⟩, 0, 1, 0, 1, .ro, .val 0⟩ /- DENY_FIRST_WRITE R646 -/,
  ⟨⟨0x4C, 29, 1⟩, 0, 1, 0, 1, .ro, .val 0⟩ /- DENY_FIRST_REMOTE R646 -/,
  ⟨⟨0x4C, 24, 5⟩, 0, 1, 0, 1, .ro, .val 0⟩ /- DENY_FIRST_MID R646 -/,
  ⟨⟨0x4C, 23, 1⟩, 0, 1, 0, 1, .ro, .val 0⟩ /- DENY_FIRST_UNIT R646 -/,
  ⟨⟨0x4C, 0, 10⟩, 0, 1, 0, 1, .ro, .val 0⟩ /- DENY_FIRST_NODE R646 -/,
  ⟨⟨0x50, 0, 32⟩, 0, 1, 0, 1, .ro, .val 0⟩ /- DENY_ADDR_LO R646 -/,
  ⟨⟨0x54, 0, 26⟩, 0, 1, 0, 1, .ro, .val 0⟩ /- DENY_ADDR_HI R646 -/,
  ⟨⟨0x58, 16, 10⟩, 0, 1, 0, 1, .rws, .val 0x3FF⟩ /- INBOUND_NODES_MAX R646 -/,
  ⟨⟨0x58, 0, 10⟩, 0, 1, 0, 1, .rws, .val 0⟩ /- INBOUND_NODES_MIN R646 -/,
  ⟨⟨0x5C, 0, 32⟩, 0, 1, 0, 1, .rws, .val 0xFFFFFFFF⟩ /- GAL_DEFAULT_LO R646 -/,
  ⟨⟨0x60, 0, 32⟩, 0, 1, 0, 1, .rws, .val 0x8000013F⟩ /- GAL_DEFAULT_HI R646 -/,
  ⟨⟨0x64, 0, 1⟩, 0, 1, 0, 1, .wo, .val 0⟩ /- QUOTE_CMD R646 -/,
  ⟨⟨0x68, 0, 32⟩, 0, 1, 0, 1, .rw, .val 0⟩ /- QUOTE_DST_LO R646 -/,
  ⟨⟨0x6C, 0, 26⟩, 0, 1, 0, 1, .rw, .val 0⟩ /- QUOTE_DST_HI R646 -/,
  ⟨⟨0x70, 0, 32⟩, 0, 1, 0, 1, .ro, .val 0⟩ /- QUOTE_SEQ R646 -/,
  ⟨⟨0x74, 0, 32⟩, 0, 1, 0, 1, .ro, .val 0⟩ /- DEVICE_ID_LO R646 -/,
  ⟨⟨0x78, 0, 32⟩, 0, 1, 0, 1, .ro, .val 0⟩ /- DEVICE_ID_HI R646 -/,
  ⟨⟨0x7C, 31, 1⟩, 0, 1, 0, 1, .wo, .val 0⟩ /- EXTEND_CMD_GO R646 -/,
  ⟨⟨0x7C, 0, 2⟩, 0, 1, 0, 1, .wo, .val 0⟩ /- EXTEND_CMD_SLOT R646 -/,
  ⟨⟨0x80, 0, 32⟩, 4, 8, 0, 1, .rw, .val 0⟩ /- NONCE R646 -/,
  ⟨⟨0xA0, 0, 32⟩, 4, 8, 0, 1, .rw, .val 0⟩ /- EXTEND_DATA R646 -/,
  ⟨⟨0x100, 0, 32⟩, 8, 64, 0, 1, .rws, .val 0xFFFFFFFF⟩ /- GROUP_GRANT_LO R646 -/,
  ⟨⟨0x104, 0, 32⟩, 8, 64, 0, 1, .rws, .val 0x8000013F⟩ /- GROUP_GRANT_HI R646 -/,
  ⟨⟨0x300, 0, 32⟩, 8, 8, 0, 1, .rws, .val 0xFFFFFFFF⟩ /- HOSTWIN_GRANT_LO R646 -/,
  ⟨⟨0x304, 0, 32⟩, 8, 8, 0, 1, .rws, .val 0x8000013F⟩ /- HOSTWIN_GRANT_HI R646 -/,
  ⟨⟨0x340, 0, 10⟩, 0x10, 8, 0, 1, .rws, .val 0⟩ /- NODE_WIN_BASE R648 -/,
  ⟨⟨0x344, 0, 10⟩, 0x10, 8, 0, 1, .rws, .val 0⟩ /- NODE_WIN_LIMIT R648 -/,
  ⟨⟨0x348, 0, 32⟩, 0x10, 8, 0, 1, .rws, .val 0⟩ /- NODE_WIN_GRANT_LO R648 -/,
  ⟨⟨0x34C, 0, 32⟩, 0x10, 8, 0, 1, .rws, .val 0⟩ /- NODE_WIN_GRANT_HI R648 -/,
  ⟨⟨0x400, 0, 32⟩, 4, 64, 0, 1, .ro, .val 0⟩ /- MEAS R646 -/]

/-! ### PB10 -/

def PB10.HIST_CTRL_INJ_LOCK : Fld := ⟨0x40, 8, 1⟩
def PB10.HIST_CTRL_FAULTN_EN : Fld := ⟨0x40, 0, 4⟩
def PB10.HIST_WR : Fld := ⟨0x44, 0, 11⟩
def PB10.HIST_SEQ : Fld := ⟨0x48, 0, 32⟩
def PB10.HIST_SEL : Fld := ⟨0x4C, 0, 11⟩
def PB10.PKG_ERR_SUMMARY_PKG_PAGES : Fld := ⟨0x50, 2, 14⟩
def PB10.PKG_ERR_SUMMARY_DIES : Fld := ⟨0x50, 0, 2⟩
def PB10.FAULT_LATCH : Fld := ⟨0x54, 0, 5⟩
def PB10.HIST_LOST : Fld := ⟨0x58, 0, 32⟩
def PB10.INJ_EVENTS : Fld := ⟨0x5C, 0, 32⟩
def PB10.HIST_DATA (n : Nat) : Fld := ⟨0x60 + 4 * n, 0, 32⟩

def rowsPB10 : List RegRow := [
  ⟨⟨0x40, 8, 1⟩, 0, 1, 0, 1, .rwl, .val 0⟩ /- HIST_CTRL_INJ_LOCK R620 -/,
  ⟨⟨0x40, 0, 4⟩, 0, 1, 0, 1, .rw, .val 4⟩ /- HIST_CTRL_FAULTN_EN R620 -/,
  ⟨⟨0x44, 0, 11⟩, 0, 1, 0, 1, .ro, .alwaysOn⟩ /- HIST_WR R620 -/,
  ⟨⟨0x48, 0, 32⟩, 0, 1, 0, 1, .ro, .alwaysOn⟩ /- HIST_SEQ R620 -/,
  ⟨⟨0x4C, 0, 11⟩, 0, 1, 0, 1, .rw, .val 0⟩ /- HIST_SEL R620 -/,
  ⟨⟨0x50, 2, 14⟩, 0, 1, 0, 1, .ro, .val 0⟩ /- PKG_ERR_SUMMARY_PKG_PAGES R620 -/,
  ⟨⟨0x50, 0, 2⟩, 0, 1, 0, 1, .ro, .val 0⟩ /- PKG_ERR_SUMMARY_DIES R620 -/,
  ⟨⟨0x54, 0, 5⟩, 0, 1, 0, 1, .w1c, .val 0⟩ /- FAULT_LATCH R620 -/,
  ⟨⟨0x58, 0, 32⟩, 0, 1, 0, 1, .rc, .val 0⟩ /- HIST_LOST R620 -/,
  ⟨⟨0x5C, 0, 32⟩, 0, 1, 0, 1, .rc, .val 0⟩ /- INJ_EVENTS R620 -/,
  ⟨⟨0x60, 0, 32⟩, 4, 8, 0, 1, .ro, .val 0⟩ /- HIST_DATA R620 -/]

/-! ### PB11 -/

def PB11.MBX_CTRL : Fld := ⟨0x40, 0, 5⟩
def PB11.MBX_BASE : Fld := ⟨0x44, 0, 22⟩
def PB11.MBX_NUDGE : Fld := ⟨0x48, 0, 32⟩
def PB11.MBX_STATUS_TRIGGERED : Fld := ⟨0x4C, 1, 1⟩
def PB11.MBX_STATUS_SCANNING : Fld := ⟨0x4C, 0, 1⟩
def PB11.MBX_SCANS : Fld := ⟨0x50, 0, 32⟩
def PB11.MBX_TAKEN : Fld := ⟨0x54, 0, 32⟩
def PB11.MBX_REFUSED : Fld := ⟨0x58, 0, 32⟩
def PB11.MBX_DOMAINS (n : Nat) : Fld := ⟨0x100 + 4 * n, 0, 16⟩

def rowsPB11 : List RegRow := [
  ⟨⟨0x40, 0, 5⟩, 0, 1, 0, 1, .rws, .val 0⟩ /- MBX_CTRL R683 -/,
  ⟨⟨0x44, 0, 22⟩, 0, 1, 0, 1, .rws, .val 0⟩ /- MBX_BASE R683 -/,
  ⟨⟨0x48, 0, 32⟩, 0, 1, 0, 1, .wo, .val 0⟩ /- MBX_NUDGE R683 -/,
  ⟨⟨0x4C, 1, 1⟩, 0, 1, 0, 1, .ro, .val 0⟩ /- MBX_STATUS_TRIGGERED R683 -/,
  ⟨⟨0x4C, 0, 1⟩, 0, 1, 0, 1, .ro, .val 0⟩ /- MBX_STATUS_SCANNING R683 -/,
  ⟨⟨0x50, 0, 32⟩, 0, 1, 0, 1, .rc, .val 0⟩ /- MBX_SCANS R683 -/,
  ⟨⟨0x54, 0, 32⟩, 0, 1, 0, 1, .rc, .val 0⟩ /- MBX_TAKEN R683 -/,
  ⟨⟨0x58, 0, 32⟩, 0, 1, 0, 1, .rc, .val 0⟩ /- MBX_REFUSED R683 -/,
  ⟨⟨0x100, 0, 16⟩, 4, 16, 0, 1, .rw, .val 0⟩ /- MBX_DOMAINS R683 -/]

/-! ### PB12 -/

def PB12.AGE_CMD : Fld := ⟨0x40, 0, 1⟩
def PB12.POWERED_HOURS : Fld := ⟨0x44, 0, 32⟩
def PB12.LAST_REPLAN : Fld := ⟨0x48, 0, 32⟩
def PB12.AGE_STATUS_MARGIN_LOW : Fld := ⟨0x4C, 2, 1⟩
def PB12.AGE_STATUS_DERATED : Fld := ⟨0x4C, 1, 1⟩
def PB12.AGE_STATUS_REPLANNING : Fld := ⟨0x4C, 0, 1⟩
def PB12.MARGIN_HEADROOM_MV : Fld := ⟨0x50, 16, 16⟩
def PB12.MARGIN_MARGIN_PS : Fld := ⟨0x50, 0, 16⟩
def PB12.DRIFT_REMAIN_KH : Fld := ⟨0x54, 16, 16⟩
def PB12.DRIFT_DRIFT : Fld := ⟨0x54, 0, 16⟩
def PB12.GUARD_MV_PER_PS : Fld := ⟨0x58, 16, 16⟩
def PB12.GUARD_GUARD_PS : Fld := ⟨0x58, 0, 16⟩
def PB12.REPLANS : Fld := ⟨0x5C, 0, 32⟩
def PB12.THERM_CFG_TRIP_C : Fld := ⟨0x60, 8, 8⟩
def PB12.THERM_CFG_WARN_C : Fld := ⟨0x60, 0, 8⟩
def PB12.TEMP_MAX_DRAM_C : Fld := ⟨0x64, 8, 8⟩
def PB12.TEMP_MAX_TJ_C : Fld := ⟨0x64, 0, 8⟩
def PB12.CL_TEMP (n : Nat) : Fld := ⟨0x100 + 0x10 * n, 0, 8⟩
def PB12.CL_SLACK (n : Nat) : Fld := ⟨0x104 + 0x10 * n, 0, 16⟩
def PB12.CL_RO (n : Nat) : Fld := ⟨0x108 + 0x10 * n, 0, 32⟩

def rowsPB12 : List RegRow := [
  ⟨⟨0x40, 0, 1⟩, 0, 1, 0, 1, .wo, .val 0⟩ /- AGE_CMD R545 -/,
  ⟨⟨0x44, 0, 32⟩, 0, 1, 0, 1, .ro, .alwaysOn⟩ /- POWERED_HOURS R545 -/,
  ⟨⟨0x48, 0, 32⟩, 0, 1, 0, 1, .ro, .alwaysOn⟩ /- LAST_REPLAN R545 -/,
  ⟨⟨0x4C, 2, 1⟩, 0, 1, 0, 1, .ro, .val 0⟩ /- AGE_STATUS_MARGIN_LOW R545 -/,
  ⟨⟨0x4C, 1, 1⟩, 0, 1, 0, 1, .ro, .val 0⟩ /- AGE_STATUS_DERATED R545 -/,
  ⟨⟨0x4C, 0, 1⟩, 0, 1, 0, 1, .ro, .val 0⟩ /- AGE_STATUS_REPLANNING R545 -/,
  ⟨⟨0x50, 16, 16⟩, 0, 1, 0, 1, .ro, .val 0⟩ /- MARGIN_HEADROOM_MV R545 -/,
  ⟨⟨0x50, 0, 16⟩, 0, 1, 0, 1, .ro, .val 0⟩ /- MARGIN_MARGIN_PS R545 -/,
  ⟨⟨0x54, 16, 16⟩, 0, 1, 0, 1, .ro, .val 0xFFFF⟩ /- DRIFT_REMAIN_KH R545 -/,
  ⟨⟨0x54, 0, 16⟩, 0, 1, 0, 1, .ro, .val 0⟩ /- DRIFT_DRIFT R545 -/,
  ⟨⟨0x58, 16, 16⟩, 0, 1, 0, 1, .ro, .fuse⟩ /- GUARD_MV_PER_PS R545 -/,
  ⟨⟨0x58, 0, 16⟩, 0, 1, 0, 1, .ro, .fuse⟩ /- GUARD_GUARD_PS R545 -/,
  ⟨⟨0x5C, 0, 32⟩, 0, 1, 0, 1, .rc, .val 0⟩ /- REPLANS R545 -/,
  ⟨⟨0x60, 8, 8⟩, 0, 1, 0, 1, .ro, .fuse⟩ /- THERM_CFG_TRIP_C R545 -/,
  ⟨⟨0x60, 0, 8⟩, 0, 1, 0, 1, .rws, .fuse⟩ /- THERM_CFG_WARN_C R545 -/,
  ⟨⟨0x64, 8, 8⟩, 0, 1, 0, 1, .ro, .val 0⟩ /- TEMP_MAX_DRAM_C R545 -/,
  ⟨⟨0x64, 0, 8⟩, 0, 1, 0, 1, .ro, .val 0⟩ /- TEMP_MAX_TJ_C R545 -/,
  ⟨⟨0x100, 0, 8⟩, 0x10, 8, 0, 1, .ro, .val 0⟩ /- CL_TEMP R545 -/,
  ⟨⟨0x104, 0, 16⟩, 0x10, 8, 0, 1, .ro, .val 0⟩ /- CL_SLACK R545 -/,
  ⟨⟨0x108, 0, 32⟩, 0x10, 8, 0, 1, .ro, .val 0⟩ /- CL_RO R545 -/]

/-! ### PB13 -/

def PB13.BOOT_STATUS_FAIL_CODE : Fld := ⟨0x40, 24, 4⟩
def PB13.BOOT_STATUS_FAIL_COUNT : Fld := ⟨0x40, 20, 4⟩
def PB13.BOOT_STATUS_FAIL_LIMIT : Fld := ⟨0x40, 16, 3⟩
def PB13.BOOT_STATUS_BOOT_PHASE : Fld := ⟨0x40, 12, 4⟩
def PB13.BOOT_STATUS_FROM_COPY : Fld := ⟨0x40, 8, 1⟩
def PB13.BOOT_STATUS_SLOT : Fld := ⟨0x40, 7, 1⟩
def PB13.BOOT_STATUS_FROM_HOST : Fld := ⟨0x40, 6, 1⟩
def PB13.BOOT_STATUS_WAIT_HOST : Fld := ⟨0x40, 5, 1⟩
def PB13.BOOT_STATUS_RECOVERY : Fld := ⟨0x40, 4, 1⟩
def PB13.BOOT_STATUS_BOOT_DONE : Fld := ⟨0x40, 0, 1⟩
def PB13.FW_IMAGE_VERSION : Fld := ⟨0x44, 0, 32⟩
def PB13.ROLLBACK_MIN : Fld := ⟨0x48, 0, 32⟩
def PB13.KEY_STATE_REVOKED : Fld := ⟨0x4C, 4, 4⟩
def PB13.KEY_STATE_PRESENT : Fld := ⟨0x4C, 0, 4⟩
def PB13.BOOT_IMG_BASE_LO : Fld := ⟨0x50, 0, 32⟩
def PB13.BOOT_IMG_BASE_HI : Fld := ⟨0x54, 0, 16⟩
def PB13.BOOT_CMD_RECOVERY_EXIT : Fld := ⟨0x58, 1, 1⟩
def PB13.BOOT_CMD_GO : Fld := ⟨0x58, 0, 1⟩
def PB13.BOOT_TIME_US : Fld := ⟨0x5C, 0, 32⟩
def PB13.IMG_REJECTS : Fld := ⟨0x60, 0, 32⟩
def PB13.STARTS : Fld := ⟨0x64, 0, 32⟩

def rowsPB13 : List RegRow := [
  ⟨⟨0x40, 24, 4⟩, 0, 1, 0, 1, .ro, .alwaysOn⟩ /- BOOT_STATUS_FAIL_CODE R584 -/,
  ⟨⟨0x40, 20, 4⟩, 0, 1, 0, 1, .ro, .alwaysOn⟩ /- BOOT_STATUS_FAIL_COUNT R584 -/,
  ⟨⟨0x40, 16, 3⟩, 0, 1, 0, 1, .ro, .fuse⟩ /- BOOT_STATUS_FAIL_LIMIT R584 -/,
  ⟨⟨0x40, 12, 4⟩, 0, 1, 0, 1, .ro, .val 0⟩ /- BOOT_STATUS_BOOT_PHASE R584 -/,
  ⟨⟨0x40, 8, 1⟩, 0, 1, 0, 1, .ro, .val 0⟩ /- BOOT_STATUS_FROM_COPY R584 -/,
  ⟨⟨0x40, 7, 1⟩, 0, 1, 0, 1, .ro, .val 0⟩ /- BOOT_STATUS_SLOT R584 -/,
  ⟨⟨0x40, 6, 1⟩, 0, 1, 0, 1, .ro, .val 0⟩ /- BOOT_STATUS_FROM_HOST R584 -/,
  ⟨⟨0x40, 5, 1⟩, 0, 1, 0, 1, .ro, .val 0⟩ /- BOOT_STATUS_WAIT_HOST R584 -/,
  ⟨⟨0x40, 4, 1⟩, 0, 1, 0, 1, .ro, .val 0⟩ /- BOOT_STATUS_RECOVERY R584 -/,
  ⟨⟨0x40, 0, 1⟩, 0, 1, 0, 1, .ro, .val 0⟩ /- BOOT_STATUS_BOOT_DONE R584 -/,
  ⟨⟨0x44, 0, 32⟩, 0, 1, 0, 1, .ro, .val 0⟩ /- FW_IMAGE_VERSION R584 -/,
  ⟨⟨0x48, 0, 32⟩, 0, 1, 0, 1, .ro, .fuse⟩ /- ROLLBACK_MIN R584 -/,
  ⟨⟨0x4C, 4, 4⟩, 0, 1, 0, 1, .ro, .fuse⟩ /- KEY_STATE_REVOKED R584 -/,
  ⟨⟨0x4C, 0, 4⟩, 0, 1, 0, 1, .ro, .fuse⟩ /- KEY_STATE_PRESENT R584 -/,
  ⟨⟨0x50, 0, 32⟩, 0, 1, 0, 1, .ro, .val 0⟩ /- BOOT_IMG_BASE_LO R584 -/,
  ⟨⟨0x54, 0, 16⟩, 0, 1, 0, 1, .ro, .val 0⟩ /- BOOT_IMG_BASE_HI R584 -/,
  ⟨⟨0x58, 1, 1⟩, 0, 1, 0, 1, .wo, .val 0⟩ /- BOOT_CMD_RECOVERY_EXIT R584 -/,
  ⟨⟨0x58, 0, 1⟩, 0, 1, 0, 1, .wo, .val 0⟩ /- BOOT_CMD_GO R584 -/,
  ⟨⟨0x5C, 0, 32⟩, 0, 1, 0, 1, .ro, .val 0⟩ /- BOOT_TIME_US R584 -/,
  ⟨⟨0x60, 0, 32⟩, 0, 1, 0, 1, .rc, .val 0⟩ /- IMG_REJECTS R584 -/,
  ⟨⟨0x64, 0, 32⟩, 0, 1, 0, 1, .ro, .alwaysOn⟩ /- STARTS R584 -/]

/-! ### DB0 -/

def DB0.DIE_INFO_DIE : Fld := ⟨0x40, 8, 1⟩
def DB0.DIE_INFO_SILICON_REV : Fld := ⟨0x40, 0, 8⟩

def rowsDB0 : List RegRow := [
  ⟨⟨0x40, 8, 1⟩, 0, 1, 0, 1, .ro, .hardwired⟩ /- DIE_INFO_DIE R679 -/,
  ⟨⟨0x40, 0, 8⟩, 0, 1, 0, 1, .ro, .fuse⟩ /- DIE_INFO_SILICON_REV R679 -/]

/-! ### DB1 -/

def DB1.PF_CTRL_REPLAY_EN : Fld := ⟨0x40, 2, 1⟩
def DB1.PF_CTRL_DESKEW_EN : Fld := ⟨0x40, 1, 1⟩
def DB1.PF_CTRL_EN : Fld := ⟨0x40, 0, 1⟩
def DB1.PF_STATUS_EGO_OK : Fld := ⟨0x44, 2, 1⟩
def DB1.PF_STATUS_REPLAY_ACTIVE : Fld := ⟨0x44, 1, 1⟩
def DB1.PF_STATUS_RUNNING : Fld := ⟨0x44, 0, 1⟩
def DB1.FRAME_BUDGET : Fld := ⟨0x48, 0, 22⟩
def DB1.CARRY_QUOTA : Fld := ⟨0x4C, 0, 22⟩
def DB1.EGO_BASE_LO : Fld := ⟨0x50, 0, 32⟩
def DB1.EGO_BASE_HI : Fld := ⟨0x54, 0, 26⟩
def DB1.EGO_SIZE : Fld := ⟨0x58, 0, 16⟩
def DB1.EGO_WR : Fld := ⟨0x5C, 0, 16⟩
def DB1.EGO_MAX_EXTRAP : Fld := ⟨0x60, 0, 16⟩
def DB1.REPLAY_BASE_LO : Fld := ⟨0x64, 0, 32⟩
def DB1.REPLAY_BASE_HI : Fld := ⟨0x68, 0, 26⟩
def DB1.REPLAY_SIZE : Fld := ⟨0x6C, 0, 32⟩
def DB1.REPLAY_WR : Fld := ⟨0x70, 0, 32⟩
def DB1.REPLAY_RD : Fld := ⟨0x74, 0, 32⟩
def DB1.REPLAY_SHIFT_LO : Fld := ⟨0x78, 0, 32⟩
def DB1.REPLAY_SHIFT_HI : Fld := ⟨0x7C, 0, 32⟩
def DB1.ADMITTED : Fld := ⟨0x80, 0, 32⟩
def DB1.NO_RETURN : Fld := ⟨0x84, 0, 32⟩
def DB1.NO_FRAME : Fld := ⟨0x88, 0, 32⟩
def DB1.OUT_OF_ROI : Fld := ⟨0x8C, 0, 32⟩
def DB1.HALL_DOWN : Fld := ⟨0x90, 0, 32⟩
def DB1.QUOTA_REFUSED : Fld := ⟨0x94, 0, 32⟩
def DB1.PKT_TRUNC : Fld := ⟨0x98, 0, 32⟩
def DB1.EGO_STALE : Fld := ⟨0x9C, 0, 32⟩
def DB1.EGO_BAD : Fld := ⟨0xA0, 0, 32⟩
def DB1.REPLAY_DROP : Fld := ⟨0xA4, 0, 32⟩
def DB1.PROF_CTRL_POINTS (n : Nat) : Fld := ⟨0x200 + 0x40 * n, 16, 8⟩
def DB1.PROF_CTRL_BIG_ENDIAN (n : Nat) : Fld := ⟨0x200 + 0x40 * n, 3, 1⟩
def DB1.PROF_CTRL_TIME_SRC (n : Nat) : Fld := ⟨0x200 + 0x40 * n, 1, 1⟩
def DB1.PROF_CTRL_COORD (n : Nat) : Fld := ⟨0x200 + 0x40 * n, 0, 1⟩
def DB1.PROF_LAYOUT_HDR_LEN (n : Nat) : Fld := ⟨0x204 + 0x40 * n, 16, 16⟩
def DB1.PROF_LAYOUT_STRIDE (n : Nat) : Fld := ⟨0x204 + 0x40 * n, 0, 16⟩
def DB1.PROF_TS_TS_FMT (n : Nat) : Fld := ⟨0x208 + 0x40 * n, 16, 1⟩
def DB1.PROF_TS_TS_OFF (n : Nat) : Fld := ⟨0x208 + 0x40 * n, 0, 16⟩
def DB1.PROF_F_DESC_SIGNED (n : Nat) (i : Nat) : Fld := ⟨0x210 + 0x40 * n + 8 * i, 15, 1⟩
def DB1.PROF_F_DESC_WIDTH (n : Nat) (i : Nat) : Fld := ⟨0x210 + 0x40 * n + 8 * i, 10, 2⟩
def DB1.PROF_F_DESC_OFFSET (n : Nat) (i : Nat) : Fld := ⟨0x210 + 0x40 * n + 8 * i, 0, 10⟩
def DB1.PROF_F_SCALE (n : Nat) (i : Nat) : Fld := ⟨0x214 + 0x40 * n + 8 * i, 0, 32⟩
def DB1.SENS_CTRL_PRIORITY (n : Nat) : Fld := ⟨0x400 + 0x40 * n, 8, 4⟩
def DB1.SENS_CTRL_PROFILE (n : Nat) : Fld := ⟨0x400 + 0x40 * n, 0, 3⟩
def DB1.SENS_QUOTA (n : Nat) : Fld := ⟨0x404 + 0x40 * n, 0, 22⟩
def DB1.SENS_EXT_DIAG (n : Nat) (i : Nat) : Fld := ⟨0x408 + 0x40 * n + 0x14 * i, 0, 32⟩
def DB1.SENS_EXT (n : Nat) (i : Nat) : Fld := ⟨0x408 + 0x40 * n + 4 * i, 0, 32⟩
def DB1.SENS_ADMITTED (n : Nat) : Fld := ⟨0x438 + 0x40 * n, 0, 32⟩
def DB1.SENS_REFUSED (n : Nat) : Fld := ⟨0x43C + 0x40 * n, 0, 32⟩

def rowsDB1a : List RegRow := [
  ⟨⟨0x40, 2, 1⟩, 0, 1, 0, 1, .rws, .val 0⟩ /- PF_CTRL_REPLAY_EN R170 -/,
  ⟨⟨0x40, 1, 1⟩, 0, 1, 0, 1, .rws, .val 0⟩ /- PF_CTRL_DESKEW_EN R170 -/,
  ⟨⟨0x40, 0, 1⟩, 0, 1, 0, 1, .rws, .val 0⟩ /- PF_CTRL_EN R170 -/,
  ⟨⟨0x44, 2, 1⟩, 0, 1, 0, 1, .ro, .val 0⟩ /- PF_STATUS_EGO_OK R170 -/,
  ⟨⟨0x44, 1, 1⟩, 0, 1, 0, 1, .ro, .val 0⟩ /- PF_STATUS_REPLAY_ACTIVE R170 -/,
  ⟨⟨0x44, 0, 1⟩, 0, 1, 0, 1, .ro, .val 0⟩ /- PF_STATUS_RUNNING R170 -/,
  ⟨⟨0x48, 0, 22⟩, 0, 1, 0, 1, .rws, .val 0x200000⟩ /- FRAME_BUDGET R170 -/,
  ⟨⟨0x4C, 0, 22⟩, 0, 1, 0, 1, .rws, .val 0⟩ /- CARRY_QUOTA R170 -/,
  ⟨⟨0x50, 0, 32⟩, 0, 1, 0, 1, .rws, .val 0⟩ /- EGO_BASE_LO R170 -/,
  ⟨⟨0x54, 0, 26⟩, 0, 1, 0, 1, .rws, .val 0⟩ /- EGO_BASE_HI R170 -/,
  ⟨⟨0x58, 0, 16⟩, 0, 1, 0, 1, .rws, .val 0⟩ /- EGO_SIZE R170 -/,
  ⟨⟨0x5C, 0, 16⟩, 0, 1, 0, 1, .rw, .val 0⟩ /- EGO_WR R170 -/,
  ⟨⟨0x60, 0, 16⟩, 0, 1, 0, 1, .rws, .val 0x14⟩ /- EGO_MAX_EXTRAP R170 -/,
  ⟨⟨0x64, 0, 32⟩, 0, 1, 0, 1, .rws, .val 0⟩ /- REPLAY_BASE_LO R170 -/,
  ⟨⟨0x68, 0, 26⟩, 0, 1, 0, 1, .rws, .val 0⟩ /- REPLAY_BASE_HI R170 -/,
  ⟨⟨0x6C, 0, 32⟩, 0, 1, 0, 1, .rws, .val 0⟩ /- REPLAY_SIZE R170 -/,
  ⟨⟨0x70, 0, 32⟩, 0, 1, 0, 1, .rw, .val 0⟩ /- REPLAY_WR R170 -/,
  ⟨⟨0x74, 0, 32⟩, 0, 1, 0, 1, .ro, .val 0⟩ /- REPLAY_RD R170 -/,
  ⟨⟨0x78, 0, 32⟩, 0, 1, 0, 1, .rws, .val 0⟩ /- REPLAY_SHIFT_LO R170 -/,
  ⟨⟨0x7C, 0, 32⟩, 0, 1, 0, 1, .rws, .val 0⟩ /- REPLAY_SHIFT_HI R170 -/,
  ⟨⟨0x80, 0, 32⟩, 0, 1, 0, 1, .rc, .val 0⟩ /- ADMITTED R170 -/,
  ⟨⟨0x84, 0, 32⟩, 0, 1, 0, 1, .rc, .val 0⟩ /- NO_RETURN R170 -/,
  ⟨⟨0x88, 0, 32⟩, 0, 1, 0, 1, .rc, .val 0⟩ /- NO_FRAME R170 -/,
  ⟨⟨0x8C, 0, 32⟩, 0, 1, 0, 1, .rc, .val 0⟩ /- OUT_OF_ROI R170 -/,
  ⟨⟨0x90, 0, 32⟩, 0, 1, 0, 1, .rc, .val 0⟩ /- HALL_DOWN R170 -/,
  ⟨⟨0x94, 0, 32⟩, 0, 1, 0, 1, .rc, .val 0⟩ /- QUOTA_REFUSED R170 -/,
  ⟨⟨0x98, 0, 32⟩, 0, 1, 0, 1, .rc, .val 0⟩ /- PKT_TRUNC R170 -/,
  ⟨⟨0x9C, 0, 32⟩, 0, 1, 0, 1, .rc, .val 0⟩ /- EGO_STALE R170 -/,
  ⟨⟨0xA0, 0, 32⟩, 0, 1, 0, 1, .rc, .val 0⟩ /- EGO_BAD R170 -/,
  ⟨⟨0xA4, 0, 32⟩, 0, 1, 0, 1, .rc, .val 0⟩ /- REPLAY_DROP R170 -/,
  ⟨⟨0x200, 16, 8⟩, 0x40, 8, 0, 1, .rws, .val 1⟩ /- PROF_CTRL_POINTS R171 -/,
  ⟨⟨0x200, 3, 1⟩, 0x40, 8, 0, 1, .rws, .val 1⟩ /- PROF_CTRL_BIG_ENDIAN R171 -/,
  ⟨⟨0x200, 1, 1⟩, 0x40, 8, 0, 1, .rws, .val 0⟩ /- PROF_CTRL_TIME_SRC R171 -/,
  ⟨⟨0x200, 0, 1⟩, 0x40, 8, 0, 1, .rws, .val 0⟩ /- PROF_CTRL_COORD R171 -/,
  ⟨⟨0x204, 16, 16⟩, 0x40, 8, 0, 1, .rws, .val 0⟩ /- PROF_LAYOUT_HDR_LEN R171 -/,
  ⟨⟨0x204, 0, 16⟩, 0x40, 8, 0, 1, .rws, .val 0x10⟩ /- PROF_LAYOUT_STRIDE R171 -/,
  ⟨⟨0x208, 16, 1⟩, 0x40, 8, 0, 1, .rws, .val 0⟩ /- PROF_TS_TS_FMT R171 -/,
  ⟨⟨0x208, 0, 16⟩, 0x40, 8, 0, 1, .rws, .val 0⟩ /- PROF_TS_TS_OFF R171 -/,
  ⟨⟨0x210, 15, 1⟩, 0x40, 8, 8, 6, .rws, .val 0⟩ /- PROF_F_DESC_SIGNED R171 -/,
  ⟨⟨0x210, 10, 2⟩, 0x40, 8, 8, 6, .rws, .val 0⟩ /- PROF_F_DESC_WIDTH R171 -/]

def rowsDB1b : List RegRow := [
  ⟨⟨0x210, 0, 10⟩, 0x40, 8, 8, 6, .rws, .val 0⟩ /- PROF_F_DESC_OFFSET R171 -/,
  ⟨⟨0x214, 0, 32⟩, 0x40, 8, 8, 6, .rws, .val 0x3F800000⟩ /- PROF_F_SCALE R171 -/,
  ⟨⟨0x400, 8, 4⟩, 0x40, 16, 0, 1, .rws, .val 0⟩ /- SENS_CTRL_PRIORITY R172 -/,
  ⟨⟨0x400, 0, 3⟩, 0x40, 16, 0, 1, .rws, .val 0⟩ /- SENS_CTRL_PROFILE R172 -/,
  ⟨⟨0x404, 0, 22⟩, 0x40, 16, 0, 1, .rws, .val 0x20000⟩ /- SENS_QUOTA R172 -/,
  ⟨⟨0x408, 0, 32⟩, 0x40, 16, 0x14, 3, .rws, .val 0x3F800000⟩ /- SENS_EXT_DIAG R172 -/,
  ⟨⟨0x408, 0, 32⟩, 0x40, 16, 4, 12, .rws, .val 0⟩ /- SENS_EXT R172 -/,
  ⟨⟨0x438, 0, 32⟩, 0x40, 16, 0, 1, .ro, .val 0⟩ /- SENS_ADMITTED R172 -/,
  ⟨⟨0x43C, 0, 32⟩, 0x40, 16, 0, 1, .rc, .val 0⟩ /- SENS_REFUSED R172 -/]

def rowsDB1 : List RegRow := rowsDB1a ++ rowsDB1b

/-! ### DB2 -/

def DB2.HALL_CTRL_SEED_FIXED : Fld := ⟨0x40, 8, 1⟩
def DB2.HALL_CTRL_SWEEPS : Fld := ⟨0x40, 4, 3⟩
def DB2.HALL_CTRL_SWEEP_RULE : Fld := ⟨0x40, 2, 1⟩
def DB2.HALL_CTRL_POLICY : Fld := ⟨0x40, 0, 2⟩
def DB2.VOXEL_XY_Y : Fld := ⟨0x44, 16, 16⟩
def DB2.VOXEL_XY_X : Fld := ⟨0x44, 0, 16⟩
def DB2.VOXEL_Z : Fld := ⟨0x48, 0, 16⟩
def DB2.ROI_MIN_XY_Y : Fld := ⟨0x4C, 16, 16⟩
def DB2.ROI_MIN_XY_X : Fld := ⟨0x4C, 0, 16⟩
def DB2.ROI_MIN_Z : Fld := ⟨0x50, 0, 16⟩
def DB2.ROI_MAX_XY_Y : Fld := ⟨0x54, 16, 16⟩
def DB2.ROI_MAX_XY_X : Fld := ⟨0x54, 0, 16⟩
def DB2.ROI_MAX_Z : Fld := ⟨0x58, 0, 16⟩
def DB2.SEED_LO : Fld := ⟨0x5C, 0, 32⟩
def DB2.SEED_HI : Fld := ⟨0x60, 0, 32⟩
def DB2.CELL_STORE_LO : Fld := ⟨0x64, 0, 32⟩
def DB2.CELL_STORE_HI : Fld := ⟨0x68, 0, 26⟩
def DB2.OVF_BASE_LO : Fld := ⟨0x6C, 0, 32⟩
def DB2.OVF_BASE_HI : Fld := ⟨0x70, 0, 26⟩
def DB2.HALL_STATUS_INDEX_PINNED : Fld := ⟨0x74, 20, 1⟩
def DB2.HALL_STATUS_CARRYING : Fld := ⟨0x74, 19, 1⟩
def DB2.HALL_STATUS_MERGING : Fld := ⟨0x74, 18, 1⟩
def DB2.HALL_STATUS_DRAM_OVF : Fld := ⟨0x74, 17, 1⟩
def DB2.HALL_STATUS_ALCOVE_LEVEL : Fld := ⟨0x74, 0, 17⟩
def DB2.INDEX_FILL : Fld := ⟨0x78, 0, 23⟩
def DB2.SLOT_FRAME (n : Nat) : Fld := ⟨0x7C + 4 * n, 0, 32⟩
def DB2.SLOT_STATE : Fld := ⟨0x8C, 0, 8⟩
def DB2.ALCOVE_IN : Fld := ⟨0x90, 0, 32⟩
def DB2.DRAM_OVF_IN : Fld := ⟨0x94, 0, 32⟩
def DB2.UNINDEXED : Fld := ⟨0x98, 0, 32⟩
def DB2.CARRIED : Fld := ⟨0x9C, 0, 32⟩
def DB2.CARRY_DROP : Fld := ⟨0xA0, 0, 32⟩
def DB2.MERGE_MAX_NS : Fld := ⟨0xA4, 0, 32⟩
def DB2.PLACED : Fld := ⟨0xA8, 0, 32⟩
def DB2.CELLS_NEW : Fld := ⟨0xAC, 0, 32⟩

def rowsDB2 : List RegRow := [
  ⟨⟨0x40, 8, 1⟩, 0, 1, 0, 1, .rws, .val 0⟩ /- HALL_CTRL_SEED_FIXED R174 -/,
  ⟨⟨0x40, 4, 3⟩, 0, 1, 0, 1, .rws, .val 0⟩ /- HALL_CTRL_SWEEPS R174 -/,
  ⟨⟨0x40, 2, 1⟩, 0, 1, 0, 1, .rws, .val 0⟩ /- HALL_CTRL_SWEEP_RULE R174 -/,
  ⟨⟨0x40, 0, 2⟩, 0, 1, 0, 1, .rws, .val 0⟩ /- HALL_CTRL_POLICY R174 -/,
  ⟨⟨0x44, 16, 16⟩, 0, 1, 0, 1, .rws, .val 0x20⟩ /- VOXEL_XY_Y R174 -/,
  ⟨⟨0x44, 0, 16⟩, 0, 1, 0, 1, .rws, .val 0x20⟩ /- VOXEL_XY_X R174 -/,
  ⟨⟨0x48, 0, 16⟩, 0, 1, 0, 1, .rws, .val 0x40⟩ /- VOXEL_Z R174 -/,
  ⟨⟨0x4C, 16, 16⟩, 0, 1, 0, 1, .rws, .val 0x8000⟩ /- ROI_MIN_XY_Y R174 -/,
  ⟨⟨0x4C, 0, 16⟩, 0, 1, 0, 1, .rws, .val 0x8000⟩ /- ROI_MIN_XY_X R174 -/,
  ⟨⟨0x50, 0, 16⟩, 0, 1, 0, 1, .rws, .val 0x8000⟩ /- ROI_MIN_Z R174 -/,
  ⟨⟨0x54, 16, 16⟩, 0, 1, 0, 1, .rws, .val 0x7FFF⟩ /- ROI_MAX_XY_Y R174 -/,
  ⟨⟨0x54, 0, 16⟩, 0, 1, 0, 1, .rws, .val 0x7FFF⟩ /- ROI_MAX_XY_X R174 -/,
  ⟨⟨0x58, 0, 16⟩, 0, 1, 0, 1, .rws, .val 0x7FFF⟩ /- ROI_MAX_Z R174 -/,
  ⟨⟨0x5C, 0, 32⟩, 0, 1, 0, 1, .rws, .val 0⟩ /- SEED_LO R174 -/,
  ⟨⟨0x60, 0, 32⟩, 0, 1, 0, 1, .rws, .val 0⟩ /- SEED_HI R174 -/,
  ⟨⟨0x64, 0, 32⟩, 0, 1, 0, 1, .ro, .firmware⟩ /- CELL_STORE_LO R174 -/,
  ⟨⟨0x68, 0, 26⟩, 0, 1, 0, 1, .ro, .firmware⟩ /- CELL_STORE_HI R174 -/,
  ⟨⟨0x6C, 0, 32⟩, 0, 1, 0, 1, .ro, .firmware⟩ /- OVF_BASE_LO R174 -/,
  ⟨⟨0x70, 0, 26⟩, 0, 1, 0, 1, .ro, .firmware⟩ /- OVF_BASE_HI R174 -/,
  ⟨⟨0x74, 20, 1⟩, 0, 1, 0, 1, .ro, .val 0⟩ /- HALL_STATUS_INDEX_PINNED R174 -/,
  ⟨⟨0x74, 19, 1⟩, 0, 1, 0, 1, .ro, .val 0⟩ /- HALL_STATUS_CARRYING R174 -/,
  ⟨⟨0x74, 18, 1⟩, 0, 1, 0, 1, .ro, .val 0⟩ /- HALL_STATUS_MERGING R174 -/,
  ⟨⟨0x74, 17, 1⟩, 0, 1, 0, 1, .ro, .val 0⟩ /- HALL_STATUS_DRAM_OVF R174 -/,
  ⟨⟨0x74, 0, 17⟩, 0, 1, 0, 1, .ro, .val 0⟩ /- HALL_STATUS_ALCOVE_LEVEL R174 -/,
  ⟨⟨0x78, 0, 23⟩, 0, 1, 0, 1, .ro, .val 0⟩ /- INDEX_FILL R174 -/,
  ⟨⟨0x7C, 0, 32⟩, 4, 4, 0, 1, .ro, .val 0⟩ /- SLOT_FRAME R174 -/,
  ⟨⟨0x8C, 0, 8⟩, 0, 1, 0, 1, .ro, .val 0⟩ /- SLOT_STATE R174 -/,
  ⟨⟨0x90, 0, 32⟩, 0, 1, 0, 1, .rc, .val 0⟩ /- ALCOVE_IN R174 -/,
  ⟨⟨0x94, 0, 32⟩, 0, 1, 0, 1, .rc, .val 0⟩ /- DRAM_OVF_IN R174 -/,
  ⟨⟨0x98, 0, 32⟩, 0, 1, 0, 1, .rc, .val 0⟩ /- UNINDEXED R174 -/,
  ⟨⟨0x9C, 0, 32⟩, 0, 1, 0, 1, .rc, .val 0⟩ /- CARRIED R174 -/,
  ⟨⟨0xA0, 0, 32⟩, 0, 1, 0, 1, .rc, .val 0⟩ /- CARRY_DROP R174 -/,
  ⟨⟨0xA4, 0, 32⟩, 0, 1, 0, 1, .rc, .val 0⟩ /- MERGE_MAX_NS R174 -/,
  ⟨⟨0xA8, 0, 32⟩, 0, 1, 0, 1, .rc, .val 0⟩ /- PLACED R174 -/,
  ⟨⟨0xAC, 0, 32⟩, 0, 1, 0, 1, .rc, .val 0⟩ /- CELLS_NEW R174 -/]

/-! ### DB3 -/

def DB3.RB_CTRL : Fld := ⟨0x40, 0, 1⟩
def DB3.RB_STATUS_QUEUED : Fld := ⟨0x44, 16, 10⟩
def DB3.RB_STATUS_BUSY : Fld := ⟨0x44, 8, 1⟩
def DB3.RB_STATUS_ACTIVE : Fld := ⟨0x44, 0, 8⟩
def DB3.RB_STORE_LO : Fld := ⟨0x48, 0, 32⟩
def DB3.RB_STORE_HI : Fld := ⟨0x4C, 0, 26⟩
def DB3.RB_SLOT_SIZE : Fld := ⟨0x50, 0, 32⟩
def DB3.RB_DIR_FILL : Fld := ⟨0x54, 0, 32⟩
def DB3.GRID_FILL : Fld := ⟨0x58, 0, 32⟩
def DB3.BUILDS : Fld := ⟨0x5C, 0, 32⟩
def DB3.REUSES : Fld := ⟨0x60, 0, 32⟩
def DB3.SEGMENTS : Fld := ⟨0x64, 0, 32⟩
def DB3.PAIRS : Fld := ⟨0x68, 0, 32⟩
def DB3.REACH_MISS : Fld := ⟨0x6C, 0, 32⟩
def DB3.OVERFLOW : Fld := ⟨0x70, 0, 32⟩
def DB3.GRID_FULL : Fld := ⟨0x74, 0, 32⟩
def DB3.REMOTE_DOWN : Fld := ⟨0x78, 0, 32⟩
def DB3.ABANDONED : Fld := ⟨0x7C, 0, 32⟩
def DB3.REFUSED : Fld := ⟨0x80, 0, 32⟩
def DB3.SEG_MAX_NS : Fld := ⟨0x84, 0, 32⟩

def rowsDB3 : List RegRow := [
  ⟨⟨0x40, 0, 1⟩, 0, 1, 0, 1, .rws, .val 1⟩ /- RB_CTRL R210 -/,
  ⟨⟨0x44, 16, 10⟩, 0, 1, 0, 1, .ro, .val 0⟩ /- RB_STATUS_QUEUED R210 -/,
  ⟨⟨0x44, 8, 1⟩, 0, 1, 0, 1, .ro, .val 0⟩ /- RB_STATUS_BUSY R210 -/,
  ⟨⟨0x44, 0, 8⟩, 0, 1, 0, 1, .ro, .val 0⟩ /- RB_STATUS_ACTIVE R210 -/,
  ⟨⟨0x48, 0, 32⟩, 0, 1, 0, 1, .ro, .firmware⟩ /- RB_STORE_LO R210 -/,
  ⟨⟨0x4C, 0, 26⟩, 0, 1, 0, 1, .ro, .firmware⟩ /- RB_STORE_HI R210 -/,
  ⟨⟨0x50, 0, 32⟩, 0, 1, 0, 1, .ro, .firmware⟩ /- RB_SLOT_SIZE R210 -/,
  ⟨⟨0x54, 0, 32⟩, 0, 1, 0, 1, .ro, .val 0⟩ /- RB_DIR_FILL R210 -/,
  ⟨⟨0x58, 0, 32⟩, 0, 1, 0, 1, .ro, .val 0⟩ /- GRID_FILL R210 -/,
  ⟨⟨0x5C, 0, 32⟩, 0, 1, 0, 1, .rc, .val 0⟩ /- BUILDS R210 -/,
  ⟨⟨0x60, 0, 32⟩, 0, 1, 0, 1, .rc, .val 0⟩ /- REUSES R210 -/,
  ⟨⟨0x64, 0, 32⟩, 0, 1, 0, 1, .rc, .val 0⟩ /- SEGMENTS R210 -/,
  ⟨⟨0x68, 0, 32⟩, 0, 1, 0, 1, .rc, .val 0⟩ /- PAIRS R210 -/,
  ⟨⟨0x6C, 0, 32⟩, 0, 1, 0, 1, .rc, .val 0⟩ /- REACH_MISS R210 -/,
  ⟨⟨0x70, 0, 32⟩, 0, 1, 0, 1, .rc, .val 0⟩ /- OVERFLOW R210 -/,
  ⟨⟨0x74, 0, 32⟩, 0, 1, 0, 1, .rc, .val 0⟩ /- GRID_FULL R210 -/,
  ⟨⟨0x78, 0, 32⟩, 0, 1, 0, 1, .rc, .val 0⟩ /- REMOTE_DOWN R210 -/,
  ⟨⟨0x7C, 0, 32⟩, 0, 1, 0, 1, .rc, .val 0⟩ /- ABANDONED R210 -/,
  ⟨⟨0x80, 0, 32⟩, 0, 1, 0, 1, .rc, .val 0⟩ /- REFUSED R210 -/,
  ⟨⟨0x84, 0, 32⟩, 0, 1, 0, 1, .rc, .val 0⟩ /- SEG_MAX_NS R210 -/]

/-! ### DB4 -/

def DB4.DE_CTRL : Fld := ⟨0x40, 0, 1⟩
def DB4.DE_STATUS_WAITING : Fld := ⟨0x44, 16, 10⟩
def DB4.DE_STATUS_BUSY : Fld := ⟨0x44, 8, 1⟩
def DB4.NL_STORE_LO : Fld := ⟨0x48, 0, 32⟩
def DB4.NL_STORE_HI : Fld := ⟨0x4C, 0, 26⟩
def DB4.NL_STORE_SIZE : Fld := ⟨0x50, 0, 32⟩
def DB4.REQUESTS : Fld := ⟨0x54, 0, 32⟩
def DB4.QUERIES : Fld := ⟨0x58, 0, 32⟩
def DB4.SATURATED : Fld := ⟨0x5C, 0, 32⟩
def DB4.TRUNCATED : Fld := ⟨0x60, 0, 32⟩
def DB4.WINDOW_CUT : Fld := ⟨0x64, 0, 32⟩
def DB4.INVALID : Fld := ⟨0x68, 0, 32⟩
def DB4.REMOTE_DOWN : Fld := ⟨0x6C, 0, 32⟩
def DB4.ABANDONED : Fld := ⟨0x70, 0, 32⟩
def DB4.REFUSED : Fld := ⟨0x74, 0, 32⟩
def DB4.REQ_MAX_NS : Fld := ⟨0x78, 0, 32⟩

def rowsDB4 : List RegRow := [
  ⟨⟨0x40, 0, 1⟩, 0, 1, 0, 1, .rws, .val 1⟩ /- DE_CTRL R212 -/,
  ⟨⟨0x44, 16, 10⟩, 0, 1, 0, 1, .ro, .val 0⟩ /- DE_STATUS_WAITING R212 -/,
  ⟨⟨0x44, 8, 1⟩, 0, 1, 0, 1, .ro, .val 0⟩ /- DE_STATUS_BUSY R212 -/,
  ⟨⟨0x48, 0, 32⟩, 0, 1, 0, 1, .ro, .firmware⟩ /- NL_STORE_LO R212 -/,
  ⟨⟨0x4C, 0, 26⟩, 0, 1, 0, 1, .ro, .firmware⟩ /- NL_STORE_HI R212 -/,
  ⟨⟨0x50, 0, 32⟩, 0, 1, 0, 1, .ro, .firmware⟩ /- NL_STORE_SIZE R212 -/,
  ⟨⟨0x54, 0, 32⟩, 0, 1, 0, 1, .rc, .val 0⟩ /- REQUESTS R212 -/,
  ⟨⟨0x58, 0, 32⟩, 0, 1, 0, 1, .rc, .val 0⟩ /- QUERIES R212 -/,
  ⟨⟨0x5C, 0, 32⟩, 0, 1, 0, 1, .rc, .val 0⟩ /- SATURATED R212 -/,
  ⟨⟨0x60, 0, 32⟩, 0, 1, 0, 1, .rc, .val 0⟩ /- TRUNCATED R212 -/,
  ⟨⟨0x64, 0, 32⟩, 0, 1, 0, 1, .rc, .val 0⟩ /- WINDOW_CUT R212 -/,
  ⟨⟨0x68, 0, 32⟩, 0, 1, 0, 1, .rc, .val 0⟩ /- INVALID R212 -/,
  ⟨⟨0x6C, 0, 32⟩, 0, 1, 0, 1, .rc, .val 0⟩ /- REMOTE_DOWN R212 -/,
  ⟨⟨0x70, 0, 32⟩, 0, 1, 0, 1, .rc, .val 0⟩ /- ABANDONED R212 -/,
  ⟨⟨0x74, 0, 32⟩, 0, 1, 0, 1, .rc, .val 0⟩ /- REFUSED R212 -/,
  ⟨⟨0x78, 0, 32⟩, 0, 1, 0, 1, .rc, .val 0⟩ /- REQ_MAX_NS R212 -/]

/-! ### DB5 -/

def DB5.DRAM_CTRL : Fld := ⟨0x40, 0, 1⟩
def DB5.DRAM_STATUS_FAILED : Fld := ⟨0x44, 8, 17⟩
def DB5.DRAM_STATUS_REFRESH_2X : Fld := ⟨0x44, 7, 1⟩
def DB5.DRAM_STATUS_SPARING : Fld := ⟨0x44, 6, 1⟩
def DB5.DRAM_STATUS_SELF_REFRESH : Fld := ⟨0x44, 5, 1⟩
def DB5.DRAM_STATUS_SPARED_CH : Fld := ⟨0x44, 0, 5⟩
def DB5.TRAINING : Fld := ⟨0x48, 0, 1⟩
def DB5.SPARE_CMD_GO : Fld := ⟨0x4C, 31, 1⟩
def DB5.SPARE_CMD_CH : Fld := ⟨0x4C, 0, 4⟩
def DB5.CARVE_BASE : Fld := ⟨0x50, 0, 32⟩
def DB5.DRAM_TEMP : Fld := ⟨0x54, 0, 8⟩
def DB5.PATROL_PASSES : Fld := ⟨0x58, 0, 32⟩
def DB5.CH_CORR (n : Nat) : Fld := ⟨0x100 + 0x10 * n, 0, 32⟩
def DB5.CH_UNCORR (n : Nat) : Fld := ⟨0x104 + 0x10 * n, 0, 32⟩
def DB5.CH_REPLAY (n : Nat) : Fld := ⟨0x108 + 0x10 * n, 0, 32⟩
def DB5.CH_PERSIST (n : Nat) : Fld := ⟨0x10C + 0x10 * n, 0, 8⟩

def rowsDB5 : List RegRow := [
  ⟨⟨0x40, 0, 1⟩, 0, 1, 0, 1, .rw, .val 1⟩ /- DRAM_CTRL R477 -/,
  ⟨⟨0x44, 8, 17⟩, 0, 1, 0, 1, .ro, .val 0⟩ /- DRAM_STATUS_FAILED R477 -/,
  ⟨⟨0x44, 7, 1⟩, 0, 1, 0, 1, .ro, .val 0⟩ /- DRAM_STATUS_REFRESH_2X R477 -/,
  ⟨⟨0x44, 6, 1⟩, 0, 1, 0, 1, .ro, .val 0⟩ /- DRAM_STATUS_SPARING R477 -/,
  ⟨⟨0x44, 5, 1⟩, 0, 1, 0, 1, .ro, .val 0⟩ /- DRAM_STATUS_SELF_REFRESH R477 -/,
  ⟨⟨0x44, 0, 5⟩, 0, 1, 0, 1, .ro, .fuse⟩ /- DRAM_STATUS_SPARED_CH R477 -/,
  ⟨⟨0x48, 0, 1⟩, 0, 1, 0, 1, .ro, .val 0⟩ /- TRAINING R477 -/,
  ⟨⟨0x4C, 31, 1⟩, 0, 1, 0, 1, .wo, .val 0⟩ /- SPARE_CMD_GO R477 -/,
  ⟨⟨0x4C, 0, 4⟩, 0, 1, 0, 1, .wo, .val 0⟩ /- SPARE_CMD_CH R477 -/,
  ⟨⟨0x50, 0, 32⟩, 0, 1, 0, 1, .ro, .firmware⟩ /- CARVE_BASE R477 -/,
  ⟨⟨0x54, 0, 8⟩, 0, 1, 0, 1, .ro, .val 0⟩ /- DRAM_TEMP R477 -/,
  ⟨⟨0x58, 0, 32⟩, 0, 1, 0, 1, .rc, .val 0⟩ /- PATROL_PASSES R477 -/,
  ⟨⟨0x100, 0, 32⟩, 0x10, 17, 0, 1, .rc, .val 0⟩ /- CH_CORR R477 -/,
  ⟨⟨0x104, 0, 32⟩, 0x10, 17, 0, 1, .rc, .val 0⟩ /- CH_UNCORR R477 -/,
  ⟨⟨0x108, 0, 32⟩, 0x10, 17, 0, 1, .rc, .val 0⟩ /- CH_REPLAY R477 -/,
  ⟨⟨0x10C, 0, 8⟩, 0x10, 17, 0, 1, .ro, .val 0⟩ /- CH_PERSIST R477 -/]

/-! ### DB6 -/

def DB6.CORR_SPARED_LO : Fld := ⟨0x40, 0, 32⟩
def DB6.CORR_SPARED_HI : Fld := ⟨0x44, 0, 32⟩
def DB6.CORR_REPLAY : Fld := ⟨0x48, 0, 32⟩
def DB6.CORR_PERSIST : Fld := ⟨0x4C, 0, 32⟩

def rowsDB6 : List RegRow := [
  ⟨⟨0x40, 0, 32⟩, 0, 1, 0, 1, .ro, .fuse⟩ /- CORR_SPARED_LO R680 -/,
  ⟨⟨0x44, 0, 32⟩, 0, 1, 0, 1, .ro, .fuse⟩ /- CORR_SPARED_HI R680 -/,
  ⟨⟨0x48, 0, 32⟩, 0, 1, 0, 1, .rc, .val 0⟩ /- CORR_REPLAY R680 -/,
  ⟨⟨0x4C, 0, 32⟩, 0, 1, 0, 1, .rc, .val 0⟩ /- CORR_PERSIST R680 -/]

/-! ### DB7 -/

def DB7.ACC_CTRL_TPL_LOCK : Fld := ⟨0x40, 1, 1⟩
def DB7.ACC_CTRL_LOCK : Fld := ⟨0x40, 0, 1⟩
def DB7.DENY_COUNT : Fld := ⟨0x48, 0, 32⟩
def DB7.DENY_FIRST_VALID : Fld := ⟨0x4C, 31, 1⟩
def DB7.DENY_FIRST_WRITE : Fld := ⟨0x4C, 30, 1⟩
def DB7.DENY_FIRST_REMOTE : Fld := ⟨0x4C, 29, 1⟩
def DB7.DENY_FIRST_MID : Fld := ⟨0x4C, 24, 5⟩
def DB7.DENY_FIRST_UNIT : Fld := ⟨0x4C, 23, 1⟩
def DB7.DENY_FIRST_NODE : Fld := ⟨0x4C, 0, 10⟩
def DB7.DENY_ADDR_LO : Fld := ⟨0x50, 0, 32⟩
def DB7.DENY_ADDR_HI : Fld := ⟨0x54, 0, 26⟩
def DB7.DRAM_DEFAULT_LO : Fld := ⟨0x58, 0, 32⟩
def DB7.DRAM_DEFAULT_HI : Fld := ⟨0x5C, 0, 32⟩
def DB7.STORE_GRANT_LO (n : Nat) : Fld := ⟨0x60 + 8 * n, 0, 32⟩
def DB7.STORE_GRANT_HI (n : Nat) : Fld := ⟨0x64 + 8 * n, 0, 32⟩
def DB7.TPL_DEFAULT_LO : Fld := ⟨0x80, 0, 32⟩
def DB7.TPL_DEFAULT_HI : Fld := ⟨0x84, 0, 32⟩
def DB7.DRAM_WIN_BASE (n : Nat) : Fld := ⟨0x100 + 0x10 * n, 0, 18⟩
def DB7.DRAM_WIN_LIMIT (n : Nat) : Fld := ⟨0x104 + 0x10 * n, 0, 18⟩
def DB7.DRAM_WIN_GRANT_LO (n : Nat) : Fld := ⟨0x108 + 0x10 * n, 0, 32⟩
def DB7.DRAM_WIN_GRANT_HI (n : Nat) : Fld := ⟨0x10C + 0x10 * n, 0, 32⟩
def DB7.TPL_WIN_BASE (n : Nat) : Fld := ⟨0x200 + 0x10 * n, 0, 11⟩
def DB7.TPL_WIN_LIMIT (n : Nat) : Fld := ⟨0x204 + 0x10 * n, 0, 11⟩
def DB7.TPL_WIN_GRANT_LO (n : Nat) : Fld := ⟨0x208 + 0x10 * n, 0, 32⟩
def DB7.TPL_WIN_GRANT_HI (n : Nat) : Fld := ⟨0x20C + 0x10 * n, 0, 32⟩

def rowsDB7 : List RegRow := [
  ⟨⟨0x40, 1, 1⟩, 0, 1, 0, 1, .rwl, .val 0⟩ /- ACC_CTRL_TPL_LOCK R649 -/,
  ⟨⟨0x40, 0, 1⟩, 0, 1, 0, 1, .rwl, .val 0⟩ /- ACC_CTRL_LOCK R649 -/,
  ⟨⟨0x48, 0, 32⟩, 0, 1, 0, 1, .rc, .val 0⟩ /- DENY_COUNT R633 -/,
  ⟨⟨0x4C, 31, 1⟩, 0, 1, 0, 1, .w1c, .val 0⟩ /- DENY_FIRST_VALID R633 -/,
  ⟨⟨0x4C, 30, 1⟩, 0, 1, 0, 1, .ro, .val 0⟩ /- DENY_FIRST_WRITE R633 -/,
  ⟨⟨0x4C, 29, 1⟩, 0, 1, 0, 1, .ro, .val 0⟩ /- DENY_FIRST_REMOTE R633 -/,
  ⟨⟨0x4C, 24, 5⟩, 0, 1, 0, 1, .ro, .val 0⟩ /- DENY_FIRST_MID R633 -/,
  ⟨⟨0x4C, 23, 1⟩, 0, 1, 0, 1, .ro, .val 0⟩ /- DENY_FIRST_UNIT R633 -/,
  ⟨⟨0x4C, 0, 10⟩, 0, 1, 0, 1, .ro, .val 0⟩ /- DENY_FIRST_NODE R633 -/,
  ⟨⟨0x50, 0, 32⟩, 0, 1, 0, 1, .ro, .val 0⟩ /- DENY_ADDR_LO R633 -/,
  ⟨⟨0x54, 0, 26⟩, 0, 1, 0, 1, .ro, .val 0⟩ /- DENY_ADDR_HI R633 -/,
  ⟨⟨0x58, 0, 32⟩, 0, 1, 0, 1, .rws, .val 0xFFFFFFFF⟩ /- DRAM_DEFAULT_LO R649 -/,
  ⟨⟨0x5C, 0, 32⟩, 0, 1, 0, 1, .rws, .val 0x8000013F⟩ /- DRAM_DEFAULT_HI R649 -/,
  ⟨⟨0x60, 0, 32⟩, 8, 4, 0, 1, .rws, .val 0xFFFFFFFF⟩ /- STORE_GRANT_LO R649 -/,
  ⟨⟨0x64, 0, 32⟩, 8, 4, 0, 1, .rws, .val 0x8000013F⟩ /- STORE_GRANT_HI R649 -/,
  ⟨⟨0x80, 0, 32⟩, 0, 1, 0, 1, .rws, .val 0xFFFFFFFF⟩ /- TPL_DEFAULT_LO R649 -/,
  ⟨⟨0x84, 0, 32⟩, 0, 1, 0, 1, .rws, .val 0x8000013F⟩ /- TPL_DEFAULT_HI R649 -/,
  ⟨⟨0x100, 0, 18⟩, 0x10, 16, 0, 1, .rws, .val 0⟩ /- DRAM_WIN_BASE R648 -/,
  ⟨⟨0x104, 0, 18⟩, 0x10, 16, 0, 1, .rws, .val 0⟩ /- DRAM_WIN_LIMIT R648 -/,
  ⟨⟨0x108, 0, 32⟩, 0x10, 16, 0, 1, .rws, .val 0⟩ /- DRAM_WIN_GRANT_LO R648 -/,
  ⟨⟨0x10C, 0, 32⟩, 0x10, 16, 0, 1, .rws, .val 0⟩ /- DRAM_WIN_GRANT_HI R648 -/,
  ⟨⟨0x200, 0, 11⟩, 0x10, 8, 0, 1, .rws, .val 0⟩ /- TPL_WIN_BASE R648 -/,
  ⟨⟨0x204, 0, 11⟩, 0x10, 8, 0, 1, .rws, .val 0⟩ /- TPL_WIN_LIMIT R648 -/,
  ⟨⟨0x208, 0, 32⟩, 0x10, 8, 0, 1, .rws, .val 0⟩ /- TPL_WIN_GRANT_LO R648 -/,
  ⟨⟨0x20C, 0, 32⟩, 0x10, 8, 0, 1, .rws, .val 0⟩ /- TPL_WIN_GRANT_HI R648 -/]

/-! ### DB8 -/

def DB8.DIE_ERR_SUMMARY_DIE_PAGES : Fld := ⟨0x40, 4, 11⟩
def DB8.DIE_ERR_SUMMARY_CLUSTERS : Fld := ⟨0x40, 0, 4⟩
def DB8.FENCE_SAVE_LO : Fld := ⟨0x44, 0, 32⟩
def DB8.FENCE_SAVE_HI : Fld := ⟨0x48, 0, 26⟩
def DB8.FENCES : Fld := ⟨0x4C, 0, 32⟩
def DB8.RESTART_SKIPPED : Fld := ⟨0x50, 0, 32⟩
def DB8.CC_MEM_CORR : Fld := ⟨0x54, 0, 32⟩
def DB8.CC_MEM_UNCORR : Fld := ⟨0x58, 0, 32⟩
def DB8.RESTART_PC_LO (n : Nat) : Fld := ⟨0x100 + 8 * n, 0, 32⟩
def DB8.RESTART_PC_HI_VALID (n : Nat) : Fld := ⟨0x104 + 8 * n, 31, 1⟩
def DB8.RESTART_PC_HI_PC (n : Nat) : Fld := ⟨0x104 + 8 * n, 0, 26⟩

def rowsDB8 : List RegRow := [
  ⟨⟨0x40, 4, 11⟩, 0, 1, 0, 1, .ro, .val 0⟩ /- DIE_ERR_SUMMARY_DIE_PAGES R618 -/,
  ⟨⟨0x40, 0, 4⟩, 0, 1, 0, 1, .ro, .val 0⟩ /- DIE_ERR_SUMMARY_CLUSTERS R618 -/,
  ⟨⟨0x44, 0, 32⟩, 0, 1, 0, 1, .rw, .val 0⟩ /- FENCE_SAVE_LO R618 -/,
  ⟨⟨0x48, 0, 26⟩, 0, 1, 0, 1, .rw, .val 0⟩ /- FENCE_SAVE_HI R618 -/,
  ⟨⟨0x4C, 0, 32⟩, 0, 1, 0, 1, .ro, .val 0⟩ /- FENCES R618 -/,
  ⟨⟨0x50, 0, 32⟩, 0, 1, 0, 1, .rc, .val 0⟩ /- RESTART_SKIPPED R618 -/,
  ⟨⟨0x54, 0, 32⟩, 0, 1, 0, 1, .rc, .val 0⟩ /- CC_MEM_CORR R618 -/,
  ⟨⟨0x58, 0, 32⟩, 0, 1, 0, 1, .rc, .val 0⟩ /- CC_MEM_UNCORR R618 -/,
  ⟨⟨0x100, 0, 32⟩, 8, 16, 0, 1, .rw, .val 0⟩ /- RESTART_PC_LO R618 -/,
  ⟨⟨0x104, 31, 1⟩, 8, 16, 0, 1, .rw, .val 0⟩ /- RESTART_PC_HI_VALID R618 -/,
  ⟨⟨0x104, 0, 26⟩, 8, 16, 0, 1, .rw, .val 0⟩ /- RESTART_PC_HI_PC R618 -/]

/-! ### DB9 -/

def DB9.FW_VERSION : Fld := ⟨0x40, 0, 32⟩
def DB9.CC_STATUS_HALTED : Fld := ⟨0x44, 4, 4⟩
def DB9.CC_STATUS_RUNNING : Fld := ⟨0x44, 0, 4⟩
def DB9.WDT_CTRL : Fld := ⟨0x48, 0, 16⟩
def DB9.CC_HEARTBEAT (n : Nat) : Fld := ⟨0x4C + 4 * n, 0, 32⟩
def DB9.WDT_EXPIRIES : Fld := ⟨0x5C, 0, 32⟩

def rowsDB9 : List RegRow := [
  ⟨⟨0x40, 0, 32⟩, 0, 1, 0, 1, .ro, .firmware⟩ /- FW_VERSION R541 -/,
  ⟨⟨0x44, 4, 4⟩, 0, 1, 0, 1, .ro, .val 0⟩ /- CC_STATUS_HALTED R541 -/,
  ⟨⟨0x44, 0, 4⟩, 0, 1, 0, 1, .ro, .val 0⟩ /- CC_STATUS_RUNNING R541 -/,
  ⟨⟨0x48, 0, 16⟩, 0, 1, 0, 1, .rw, .val 0x64⟩ /- WDT_CTRL R541 -/,
  ⟨⟨0x4C, 0, 32⟩, 4, 4, 0, 1, .ro, .val 0⟩ /- CC_HEARTBEAT R541 -/,
  ⟨⟨0x5C, 0, 32⟩, 0, 1, 0, 1, .rc, .val 0⟩ /- WDT_EXPIRIES R541 -/]

/-! ### DB10 -/

def DB10.CLK_STATUS_CLK_GOOD : Fld := ⟨0x40, 8, 5⟩
def DB10.CLK_STATUS_LOCK : Fld := ⟨0x40, 0, 5⟩
def DB10.ACLK_STATE_STEP_PENDING : Fld := ⟨0x44, 31, 1⟩
def DB10.ACLK_STATE_STRETCH : Fld := ⟨0x44, 16, 4⟩
def DB10.ACLK_STATE_PLL_SEL : Fld := ⟨0x44, 12, 1⟩
def DB10.ACLK_STATE_POINT : Fld := ⟨0x44, 0, 3⟩
def DB10.VF_LIMIT : Fld := ⟨0x48, 0, 3⟩
def DB10.AVS_STATUS_AVS_ERR : Fld := ⟨0x4C, 17, 1⟩
def DB10.AVS_STATUS_AVS_BUSY : Fld := ⟨0x4C, 16, 1⟩
def DB10.AVS_STATUS_VDD_MV : Fld := ⟨0x4C, 0, 16⟩
def DB10.STRETCHED_LO : Fld := ⟨0x50, 0, 32⟩
def DB10.STRETCHED_HI : Fld := ⟨0x54, 0, 32⟩
def DB10.CLK_SWITCHES : Fld := ⟨0x58, 0, 32⟩
def DB10.VF_POINT_MV (n : Nat) : Fld := ⟨0x60 + 4 * n, 16, 16⟩
def DB10.VF_POINT_MHZ (n : Nat) : Fld := ⟨0x60 + 4 * n, 0, 16⟩

def rowsDB10 : List RegRow := [
  ⟨⟨0x40, 8, 5⟩, 0, 1, 0, 1, .ro, .val 0⟩ /- CLK_STATUS_CLK_GOOD R543 -/,
  ⟨⟨0x40, 0, 5⟩, 0, 1, 0, 1, .ro, .val 0⟩ /- CLK_STATUS_LOCK R543 -/,
  ⟨⟨0x44, 31, 1⟩, 0, 1, 0, 1, .ro, .val 0⟩ /- ACLK_STATE_STEP_PENDING R543 -/,
  ⟨⟨0x44, 16, 4⟩, 0, 1, 0, 1, .ro, .val 0⟩ /- ACLK_STATE_STRETCH R543 -/,
  ⟨⟨0x44, 12, 1⟩, 0, 1, 0, 1, .ro, .val 0⟩ /- ACLK_STATE_PLL_SEL R543 -/,
  ⟨⟨0x44, 0, 3⟩, 0, 1, 0, 1, .ro, .val 0⟩ /- ACLK_STATE_POINT R543 -/,
  ⟨⟨0x48, 0, 3⟩, 0, 1, 0, 1, .rws, .val 7⟩ /- VF_LIMIT R543 -/,
  ⟨⟨0x4C, 17, 1⟩, 0, 1, 0, 1, .ro, .val 0⟩ /- AVS_STATUS_AVS_ERR R543 -/,
  ⟨⟨0x4C, 16, 1⟩, 0, 1, 0, 1, .ro, .val 0⟩ /- AVS_STATUS_AVS_BUSY R543 -/,
  ⟨⟨0x4C, 0, 16⟩, 0, 1, 0, 1, .ro, .val 0⟩ /- AVS_STATUS_VDD_MV R543 -/,
  ⟨⟨0x50, 0, 32⟩, 0, 1, 0, 1, .ro, .val 0⟩ /- STRETCHED_LO R543 -/,
  ⟨⟨0x54, 0, 32⟩, 0, 1, 0, 1, .ro, .val 0⟩ /- STRETCHED_HI R543 -/,
  ⟨⟨0x58, 0, 32⟩, 0, 1, 0, 1, .rc, .val 0⟩ /- CLK_SWITCHES R543 -/,
  ⟨⟨0x60, 16, 16⟩, 4, 8, 0, 1, .rw, .firmware⟩ /- VF_POINT_MV R543 -/,
  ⟨⟨0x60, 0, 16⟩, 4, 8, 0, 1, .rw, .firmware⟩ /- VF_POINT_MHZ R543 -/]

/-! ### CB0 -/

def CB0.CLUSTER_INFO_DIE : Fld := ⟨0x40, 8, 1⟩
def CB0.CLUSTER_INFO_CLUSTER_SLOT : Fld := ⟨0x40, 4, 2⟩
def CB0.CLUSTER_INFO_FIRST_LOGICAL_DIV4 : Fld := ⟨0x40, 0, 4⟩
def CB0.CORE_MAP_SPARE_SLOT : Fld := ⟨0x44, 16, 3⟩
def CB0.CORE_MAP_SLOT_L3 : Fld := ⟨0x44, 12, 3⟩
def CB0.CORE_MAP_SLOT_L2 : Fld := ⟨0x44, 8, 3⟩
def CB0.CORE_MAP_SLOT_L1 : Fld := ⟨0x44, 4, 3⟩
def CB0.CORE_MAP_SLOT_L0 : Fld := ⟨0x44, 0, 3⟩
def CB0.SLOT_STATE_K4 : Fld := ⟨0x48, 8, 2⟩
def CB0.SLOT_STATE_K3 : Fld := ⟨0x48, 6, 2⟩
def CB0.SLOT_STATE_K2 : Fld := ⟨0x48, 4, 2⟩
def CB0.SLOT_STATE_K1 : Fld := ⟨0x48, 2, 2⟩
def CB0.SLOT_STATE_K0 : Fld := ⟨0x48, 0, 2⟩

def rowsCB0 : List RegRow := [
  ⟨⟨0x40, 8, 1⟩, 0, 1, 0, 1, .ro, .hardwired⟩ /- CLUSTER_INFO_DIE R23 -/,
  ⟨⟨0x40, 4, 2⟩, 0, 1, 0, 1, .ro, .hardwired⟩ /- CLUSTER_INFO_CLUSTER_SLOT R23 -/,
  ⟨⟨0x40, 0, 4⟩, 0, 1, 0, 1, .ro, .hardwired⟩ /- CLUSTER_INFO_FIRST_LOGICAL_DIV4 R23 -/,
  ⟨⟨0x44, 16, 3⟩, 0, 1, 0, 1, .rws, .fuse⟩ /- CORE_MAP_SPARE_SLOT R23 -/,
  ⟨⟨0x44, 12, 3⟩, 0, 1, 0, 1, .rws, .fuse⟩ /- CORE_MAP_SLOT_L3 R23 -/,
  ⟨⟨0x44, 8, 3⟩, 0, 1, 0, 1, .rws, .fuse⟩ /- CORE_MAP_SLOT_L2 R23 -/,
  ⟨⟨0x44, 4, 3⟩, 0, 1, 0, 1, .rws, .fuse⟩ /- CORE_MAP_SLOT_L1 R23 -/,
  ⟨⟨0x44, 0, 3⟩, 0, 1, 0, 1, .rws, .fuse⟩ /- CORE_MAP_SLOT_L0 R23 -/,
  ⟨⟨0x48, 8, 2⟩, 0, 1, 0, 1, .ro, .fuse⟩ /- SLOT_STATE_K4 R23 -/,
  ⟨⟨0x48, 6, 2⟩, 0, 1, 0, 1, .ro, .fuse⟩ /- SLOT_STATE_K3 R23 -/,
  ⟨⟨0x48, 4, 2⟩, 0, 1, 0, 1, .ro, .fuse⟩ /- SLOT_STATE_K2 R23 -/,
  ⟨⟨0x48, 2, 2⟩, 0, 1, 0, 1, .ro, .fuse⟩ /- SLOT_STATE_K1 R23 -/,
  ⟨⟨0x48, 0, 2⟩, 0, 1, 0, 1, .ro, .fuse⟩ /- SLOT_STATE_K0 R23 -/]

/-! ### CB1 -/

def CB1.FAB_LINES_LO : Fld := ⟨0x40, 0, 32⟩
def CB1.FAB_LINES_HI : Fld := ⟨0x44, 0, 32⟩
def CB1.FAB_STALL : Fld := ⟨0x48, 0, 32⟩

def rowsCB1 : List RegRow := [
  ⟨⟨0x40, 0, 32⟩, 0, 1, 0, 1, .ro, .val 0⟩ /- FAB_LINES_LO R680 -/,
  ⟨⟨0x44, 0, 32⟩, 0, 1, 0, 1, .ro, .val 0⟩ /- FAB_LINES_HI R680 -/,
  ⟨⟨0x48, 0, 32⟩, 0, 1, 0, 1, .rc, .val 0⟩ /- FAB_STALL R680 -/]

/-! ### CB2 -/

def CB2.RC_CTRL_UPD_EN : Fld := ⟨0x40, 2, 1⟩
def CB2.RC_CTRL_ADMIT_EN : Fld := ⟨0x40, 1, 1⟩
def CB2.RC_CTRL_EN : Fld := ⟨0x40, 0, 1⟩
def CB2.RC_STATUS_MISS_PENDING : Fld := ⟨0x44, 16, 11⟩
def CB2.RC_STATUS_UPD_LINES : Fld := ⟨0x44, 0, 11⟩
def CB2.RC_LOOKUPS_LO : Fld := ⟨0x48, 0, 32⟩
def CB2.RC_LOOKUPS_HI : Fld := ⟨0x4C, 0, 32⟩
def CB2.RC_HITS_LO : Fld := ⟨0x50, 0, 32⟩
def CB2.RC_HITS_HI : Fld := ⟨0x54, 0, 32⟩
def CB2.RC_MISSES : Fld := ⟨0x58, 0, 32⟩
def CB2.RC_COALESCED : Fld := ⟨0x5C, 0, 32⟩
def CB2.RC_ADMITTED : Fld := ⟨0x60, 0, 32⟩
def CB2.RC_REJECTED : Fld := ⟨0x64, 0, 32⟩
def CB2.RC_EVICTED : Fld := ⟨0x68, 0, 32⟩
def CB2.RC_BYPASS : Fld := ⟨0x6C, 0, 32⟩
def CB2.RC_HALVINGS : Fld := ⟨0x70, 0, 32⟩
def CB2.RC_INVALIDATED : Fld := ⟨0x74, 0, 32⟩
def CB2.ZERO_ROWS : Fld := ⟨0x78, 0, 32⟩
def CB2.REMOTE_DOWN : Fld := ⟨0x7C, 0, 32⟩
def CB2.UPD_IN : Fld := ⟨0x80, 0, 32⟩
def CB2.UPD_SENT : Fld := ⟨0x84, 0, 32⟩
def CB2.UPD_EARLY : Fld := ⟨0x88, 0, 32⟩
def CB2.PEND_ACCEPTED : Fld := ⟨0x8C, 0, 32⟩
def CB2.UPD_DROP : Fld := ⟨0x90, 0, 32⟩
def CB2.APPLIED : Fld := ⟨0x94, 0, 32⟩
def CB2.EMB_REFUSED : Fld := ⟨0x98, 0, 32⟩
def CB2.MISS_MAX_NS : Fld := ⟨0x9C, 0, 32⟩

def rowsCB2 : List RegRow := [
  ⟨⟨0x40, 2, 1⟩, 0, 1, 0, 1, .rw, .val 1⟩ /- RC_CTRL_UPD_EN R365 -/,
  ⟨⟨0x40, 1, 1⟩, 0, 1, 0, 1, .rw, .val 1⟩ /- RC_CTRL_ADMIT_EN R365 -/,
  ⟨⟨0x40, 0, 1⟩, 0, 1, 0, 1, .rw, .val 1⟩ /- RC_CTRL_EN R365 -/,
  ⟨⟨0x44, 16, 11⟩, 0, 1, 0, 1, .ro, .val 0⟩ /- RC_STATUS_MISS_PENDING R365 -/,
  ⟨⟨0x44, 0, 11⟩, 0, 1, 0, 1, .ro, .val 0⟩ /- RC_STATUS_UPD_LINES R365 -/,
  ⟨⟨0x48, 0, 32⟩, 0, 1, 0, 1, .ro, .val 0⟩ /- RC_LOOKUPS_LO R365 -/,
  ⟨⟨0x4C, 0, 32⟩, 0, 1, 0, 1, .ro, .val 0⟩ /- RC_LOOKUPS_HI R365 -/,
  ⟨⟨0x50, 0, 32⟩, 0, 1, 0, 1, .ro, .val 0⟩ /- RC_HITS_LO R365 -/,
  ⟨⟨0x54, 0, 32⟩, 0, 1, 0, 1, .ro, .val 0⟩ /- RC_HITS_HI R365 -/,
  ⟨⟨0x58, 0, 32⟩, 0, 1, 0, 1, .rc, .val 0⟩ /- RC_MISSES R365 -/,
  ⟨⟨0x5C, 0, 32⟩, 0, 1, 0, 1, .rc, .val 0⟩ /- RC_COALESCED R365 -/,
  ⟨⟨0x60, 0, 32⟩, 0, 1, 0, 1, .rc, .val 0⟩ /- RC_ADMITTED R365 -/,
  ⟨⟨0x64, 0, 32⟩, 0, 1, 0, 1, .rc, .val 0⟩ /- RC_REJECTED R365 -/,
  ⟨⟨0x68, 0, 32⟩, 0, 1, 0, 1, .rc, .val 0⟩ /- RC_EVICTED R365 -/,
  ⟨⟨0x6C, 0, 32⟩, 0, 1, 0, 1, .rc, .val 0⟩ /- RC_BYPASS R365 -/,
  ⟨⟨0x70, 0, 32⟩, 0, 1, 0, 1, .rc, .val 0⟩ /- RC_HALVINGS R365 -/,
  ⟨⟨0x74, 0, 32⟩, 0, 1, 0, 1, .rc, .val 0⟩ /- RC_INVALIDATED R365 -/,
  ⟨⟨0x78, 0, 32⟩, 0, 1, 0, 1, .rc, .val 0⟩ /- ZERO_ROWS R365 -/,
  ⟨⟨0x7C, 0, 32⟩, 0, 1, 0, 1, .rc, .val 0⟩ /- REMOTE_DOWN R365 -/,
  ⟨⟨0x80, 0, 32⟩, 0, 1, 0, 1, .rc, .val 0⟩ /- UPD_IN R365 -/,
  ⟨⟨0x84, 0, 32⟩, 0, 1, 0, 1, .rc, .val 0⟩ /- UPD_SENT R365 -/,
  ⟨⟨0x88, 0, 32⟩, 0, 1, 0, 1, .rc, .val 0⟩ /- UPD_EARLY R365 -/,
  ⟨⟨0x8C, 0, 32⟩, 0, 1, 0, 1, .rc, .val 0⟩ /- PEND_ACCEPTED R365 -/,
  ⟨⟨0x90, 0, 32⟩, 0, 1, 0, 1, .rc, .val 0⟩ /- UPD_DROP R365 -/,
  ⟨⟨0x94, 0, 32⟩, 0, 1, 0, 1, .rc, .val 0⟩ /- APPLIED R365 -/,
  ⟨⟨0x98, 0, 32⟩, 0, 1, 0, 1, .rc, .val 0⟩ /- EMB_REFUSED R365 -/,
  ⟨⟨0x9C, 0, 32⟩, 0, 1, 0, 1, .rc, .val 0⟩ /- MISS_MAX_NS R365 -/]

/-! ### CB3 -/

def CB3.CL_ERR_SUMMARY_CL_PAGES : Fld := ⟨0x40, 5, 4⟩
def CB3.CL_ERR_SUMMARY_SLOTS : Fld := ⟨0x40, 0, 5⟩
def CB3.SLOT_FENCE : Fld := ⟨0x44, 0, 5⟩
def CB3.FABRIC_REPLAY : Fld := ⟨0x48, 0, 32⟩
def CB3.FABRIC_PERSIST : Fld := ⟨0x4C, 0, 32⟩
def CB3.RC_PARITY : Fld := ⟨0x50, 0, 32⟩
def CB3.UPD_ECC : Fld := ⟨0x54, 0, 32⟩
def CB3.PROMOTIONS : Fld := ⟨0x58, 0, 32⟩

def rowsCB3 : List RegRow := [
  ⟨⟨0x40, 5, 4⟩, 0, 1, 0, 1, .ro, .val 0⟩ /- CL_ERR_SUMMARY_CL_PAGES R616 -/,
  ⟨⟨0x40, 0, 5⟩, 0, 1, 0, 1, .ro, .val 0⟩ /- CL_ERR_SUMMARY_SLOTS R616 -/,
  ⟨⟨0x44, 0, 5⟩, 0, 1, 0, 1, .rw, .val 0⟩ /- SLOT_FENCE R616 -/,
  ⟨⟨0x48, 0, 32⟩, 0, 1, 0, 1, .rc, .val 0⟩ /- FABRIC_REPLAY R616 -/,
  ⟨⟨0x4C, 0, 32⟩, 0, 1, 0, 1, .rc, .val 0⟩ /- FABRIC_PERSIST R616 -/,
  ⟨⟨0x50, 0, 32⟩, 0, 1, 0, 1, .rc, .val 0⟩ /- RC_PARITY R616 -/,
  ⟨⟨0x54, 0, 32⟩, 0, 1, 0, 1, .rc, .val 0⟩ /- UPD_ECC R616 -/,
  ⟨⟨0x58, 0, 32⟩, 0, 1, 0, 1, .ro, .val 0⟩ /- PROMOTIONS R616 -/]

/-! ### KB0 -/

def KB0.CORE_INFO_SLOT : Fld := ⟨0x40, 16, 8⟩
def KB0.CORE_INFO_LOGICAL : Fld := ⟨0x40, 8, 5⟩
def KB0.CORE_INFO_IN_SERVICE : Fld := ⟨0x40, 2, 1⟩
def KB0.CORE_INFO_STATE : Fld := ⟨0x40, 0, 2⟩

def rowsKB0 : List RegRow := [
  ⟨⟨0x40, 16, 8⟩, 0, 1, 0, 1, .ro, .hardwired⟩ /- CORE_INFO_SLOT R679 -/,
  ⟨⟨0x40, 8, 5⟩, 0, 1, 0, 1, .ro, .val 0⟩ /- CORE_INFO_LOGICAL R679 -/,
  ⟨⟨0x40, 2, 1⟩, 0, 1, 0, 1, .ro, .val 0⟩ /- CORE_INFO_IN_SERVICE R679 -/,
  ⟨⟨0x40, 0, 2⟩, 0, 1, 0, 1, .ro, .fuse⟩ /- CORE_INFO_STATE R679 -/]

/-! ### KB1 -/

def KB1.TE_CTRL_CLASS_HOLD : Fld := ⟨0x40, 4, 4⟩
def KB1.TE_CTRL_EN : Fld := ⟨0x40, 0, 1⟩
def KB1.TE_STATUS_READY : Fld := ⟨0x44, 16, 12⟩
def KB1.TE_STATUS_LIVE : Fld := ⟨0x44, 0, 12⟩
def KB1.TE_ISSUED_LO : Fld := ⟨0x48, 0, 32⟩
def KB1.TE_ISSUED_HI : Fld := ⟨0x4C, 0, 32⟩
def KB1.TE_SPAWNS : Fld := ⟨0x50, 0, 32⟩
def KB1.TE_SPAWN_FAIL : Fld := ⟨0x54, 0, 32⟩
def KB1.TE_EXITS : Fld := ⟨0x58, 0, 32⟩
def KB1.TE_FAULTS : Fld := ⟨0x5C, 0, 32⟩
def KB1.LAST_FAULT_CODE : Fld := ⟨0x60, 24, 8⟩
def KB1.LAST_FAULT_CONTEXT : Fld := ⟨0x60, 0, 11⟩
def KB1.LAST_FAULT_PC_LO : Fld := ⟨0x64, 0, 32⟩
def KB1.LAST_FAULT_PC_HI : Fld := ⟨0x68, 0, 26⟩
def KB1.CTX_SEL : Fld := ⟨0x6C, 0, 11⟩
def KB1.CTX_STATE_CLASS : Fld := ⟨0x70, 8, 2⟩
def KB1.CTX_STATE_DOMAIN : Fld := ⟨0x70, 4, 4⟩
def KB1.CTX_STATE_STATE : Fld := ⟨0x70, 0, 3⟩
def KB1.CTX_PC_LO : Fld := ⟨0x74, 0, 32⟩
def KB1.CTX_PC_HI : Fld := ⟨0x78, 0, 26⟩
def KB1.CTX_CMD : Fld := ⟨0x7C, 0, 2⟩
def KB1.CTR (n : Nat) : Fld := ⟨0x100 + 4 * n, 0, 32⟩

def rowsKB1 : List RegRow := [
  ⟨⟨0x40, 4, 4⟩, 0, 1, 0, 1, .rw, .val 0⟩ /- TE_CTRL_CLASS_HOLD R406 -/,
  ⟨⟨0x40, 0, 1⟩, 0, 1, 0, 1, .rw, .val 1⟩ /- TE_CTRL_EN R406 -/,
  ⟨⟨0x44, 16, 12⟩, 0, 1, 0, 1, .ro, .val 0⟩ /- TE_STATUS_READY R406 -/,
  ⟨⟨0x44, 0, 12⟩, 0, 1, 0, 1, .ro, .val 0⟩ /- TE_STATUS_LIVE R406 -/,
  ⟨⟨0x48, 0, 32⟩, 0, 1, 0, 1, .ro, .val 0⟩ /- TE_ISSUED_LO R406 -/,
  ⟨⟨0x4C, 0, 32⟩, 0, 1, 0, 1, .ro, .val 0⟩ /- TE_ISSUED_HI R406 -/,
  ⟨⟨0x50, 0, 32⟩, 0, 1, 0, 1, .rc, .val 0⟩ /- TE_SPAWNS R406 -/,
  ⟨⟨0x54, 0, 32⟩, 0, 1, 0, 1, .rc, .val 0⟩ /- TE_SPAWN_FAIL R406 -/,
  ⟨⟨0x58, 0, 32⟩, 0, 1, 0, 1, .rc, .val 0⟩ /- TE_EXITS R406 -/,
  ⟨⟨0x5C, 0, 32⟩, 0, 1, 0, 1, .rc, .val 0⟩ /- TE_FAULTS R406 -/,
  ⟨⟨0x60, 24, 8⟩, 0, 1, 0, 1, .ro, .val 0⟩ /- LAST_FAULT_CODE R406 -/,
  ⟨⟨0x60, 0, 11⟩, 0, 1, 0, 1, .ro, .val 0⟩ /- LAST_FAULT_CONTEXT R406 -/,
  ⟨⟨0x64, 0, 32⟩, 0, 1, 0, 1, .ro, .val 0⟩ /- LAST_FAULT_PC_LO R406 -/,
  ⟨⟨0x68, 0, 26⟩, 0, 1, 0, 1, .ro, .val 0⟩ /- LAST_FAULT_PC_HI R406 -/,
  ⟨⟨0x6C, 0, 11⟩, 0, 1, 0, 1, .rw, .val 0⟩ /- CTX_SEL R406 -/,
  ⟨⟨0x70, 8, 2⟩, 0, 1, 0, 1, .ro, .val 0⟩ /- CTX_STATE_CLASS R406 -/,
  ⟨⟨0x70, 4, 4⟩, 0, 1, 0, 1, .ro, .val 0⟩ /- CTX_STATE_DOMAIN R406 -/,
  ⟨⟨0x70, 0, 3⟩, 0, 1, 0, 1, .ro, .val 0⟩ /- CTX_STATE_STATE R406 -/,
  ⟨⟨0x74, 0, 32⟩, 0, 1, 0, 1, .ro, .val 0⟩ /- CTX_PC_LO R406 -/,
  ⟨⟨0x78, 0, 26⟩, 0, 1, 0, 1, .ro, .val 0⟩ /- CTX_PC_HI R406 -/,
  ⟨⟨0x7C, 0, 2⟩, 0, 1, 0, 1, .wo, .val 0⟩ /- CTX_CMD R406 -/,
  ⟨⟨0x100, 0, 32⟩, 4, 64, 0, 1, .rw, .val 0⟩ /- CTR R406 -/]

/-! ### KB2 -/

def KB2.SB_STATUS_WAITING : Fld := ⟨0x40, 16, 10⟩
def KB2.SB_STATUS_USED : Fld := ⟨0x40, 0, 9⟩
def KB2.SB_PEAK : Fld := ⟨0x44, 0, 9⟩
def KB2.SB_ADMITTED_LO : Fld := ⟨0x48, 0, 32⟩
def KB2.SB_ADMITTED_HI : Fld := ⟨0x4C, 0, 32⟩
def KB2.SB_RAW_WAIT : Fld := ⟨0x50, 0, 32⟩
def KB2.SB_WAW_WAIT : Fld := ⟨0x54, 0, 32⟩
def KB2.SB_WAR_WAIT : Fld := ⟨0x58, 0, 32⟩
def KB2.SB_FULL_WAIT : Fld := ⟨0x5C, 0, 32⟩
def KB2.SB_SCALAR_WAIT : Fld := ⟨0x60, 0, 32⟩
def KB2.SB_REMOTE_WAIT : Fld := ⟨0x64, 0, 32⟩
def KB2.SB_SELF_OVERLAP : Fld := ⟨0x68, 0, 32⟩
def KB2.SB_SEL : Fld := ⟨0x6C, 0, 8⟩
def KB2.SB_ENT_INFO_VALID : Fld := ⟨0x70, 31, 1⟩
def KB2.SB_ENT_INFO_KIND : Fld := ⟨0x70, 29, 2⟩
def KB2.SB_ENT_INFO_HELD : Fld := ⟨0x70, 28, 1⟩
def KB2.SB_ENT_INFO_ADMITTED : Fld := ⟨0x70, 27, 1⟩
def KB2.SB_ENT_INFO_CONTEXT : Fld := ⟨0x70, 0, 11⟩
def KB2.SB_ENT_START : Fld := ⟨0x74, 0, 16⟩
def KB2.SB_ENT_LINES : Fld := ⟨0x78, 0, 16⟩

def rowsKB2 : List RegRow := [
  ⟨⟨0x40, 16, 10⟩, 0, 1, 0, 1, .ro, .val 0⟩ /- SB_STATUS_WAITING R408 -/,
  ⟨⟨0x40, 0, 9⟩, 0, 1, 0, 1, .ro, .val 0⟩ /- SB_STATUS_USED R408 -/,
  ⟨⟨0x44, 0, 9⟩, 0, 1, 0, 1, .rc, .val 0⟩ /- SB_PEAK R408 -/,
  ⟨⟨0x48, 0, 32⟩, 0, 1, 0, 1, .ro, .val 0⟩ /- SB_ADMITTED_LO R408 -/,
  ⟨⟨0x4C, 0, 32⟩, 0, 1, 0, 1, .ro, .val 0⟩ /- SB_ADMITTED_HI R408 -/,
  ⟨⟨0x50, 0, 32⟩, 0, 1, 0, 1, .rc, .val 0⟩ /- SB_RAW_WAIT R408 -/,
  ⟨⟨0x54, 0, 32⟩, 0, 1, 0, 1, .rc, .val 0⟩ /- SB_WAW_WAIT R408 -/,
  ⟨⟨0x58, 0, 32⟩, 0, 1, 0, 1, .rc, .val 0⟩ /- SB_WAR_WAIT R408 -/,
  ⟨⟨0x5C, 0, 32⟩, 0, 1, 0, 1, .rc, .val 0⟩ /- SB_FULL_WAIT R408 -/,
  ⟨⟨0x60, 0, 32⟩, 0, 1, 0, 1, .rc, .val 0⟩ /- SB_SCALAR_WAIT R408 -/,
  ⟨⟨0x64, 0, 32⟩, 0, 1, 0, 1, .rc, .val 0⟩ /- SB_REMOTE_WAIT R408 -/,
  ⟨⟨0x68, 0, 32⟩, 0, 1, 0, 1, .rc, .val 0⟩ /- SB_SELF_OVERLAP R408 -/,
  ⟨⟨0x6C, 0, 8⟩, 0, 1, 0, 1, .rw, .val 0⟩ /- SB_SEL R408 -/,
  ⟨⟨0x70, 31, 1⟩, 0, 1, 0, 1, .ro, .val 0⟩ /- SB_ENT_INFO_VALID R408 -/,
  ⟨⟨0x70, 29, 2⟩, 0, 1, 0, 1, .ro, .val 0⟩ /- SB_ENT_INFO_KIND R408 -/,
  ⟨⟨0x70, 28, 1⟩, 0, 1, 0, 1, .ro, .val 0⟩ /- SB_ENT_INFO_HELD R408 -/,
  ⟨⟨0x70, 27, 1⟩, 0, 1, 0, 1, .ro, .val 0⟩ /- SB_ENT_INFO_ADMITTED R408 -/,
  ⟨⟨0x70, 0, 11⟩, 0, 1, 0, 1, .ro, .val 0⟩ /- SB_ENT_INFO_CONTEXT R408 -/,
  ⟨⟨0x74, 0, 16⟩, 0, 1, 0, 1, .ro, .val 0⟩ /- SB_ENT_START R408 -/,
  ⟨⟨0x78, 0, 16⟩, 0, 1, 0, 1, .ro, .val 0⟩ /- SB_ENT_LINES R408 -/]

/-! ### KB3 -/

def KB3.GRP_CTRL : Fld := ⟨0x40, 0, 1⟩
def KB3.GRP_STATUS_PASS_SEQ : Fld := ⟨0x44, 16, 16⟩
def KB3.GRP_STATUS_CHAIN_LEN : Fld := ⟨0x44, 8, 3⟩
def KB3.GRP_STATUS_MODE : Fld := ⟨0x44, 6, 2⟩
def KB3.GRP_STATUS_STAT : Fld := ⟨0x44, 4, 2⟩
def KB3.GRP_STATUS_HOLD : Fld := ⟨0x44, 3, 1⟩
def KB3.GRP_STATUS_CHAIN_OPEN : Fld := ⟨0x44, 2, 1⟩
def KB3.GRP_STATUS_NEXT_STAGED : Fld := ⟨0x44, 1, 1⟩
def KB3.GRP_STATUS_RUNNING : Fld := ⟨0x44, 0, 1⟩
def KB3.GRP_BUSY_LO : Fld := ⟨0x48, 0, 32⟩
def KB3.GRP_BUSY_HI : Fld := ⟨0x4C, 0, 32⟩
def KB3.GRP_RETIRED_LO : Fld := ⟨0x50, 0, 32⟩
def KB3.GRP_RETIRED_HI : Fld := ⟨0x54, 0, 32⟩
def KB3.GRP_ISSUE_WAIT : Fld := ⟨0x58, 0, 32⟩
def KB3.GRP_GAP : Fld := ⟨0x5C, 0, 32⟩
def KB3.GRP_REISSUED : Fld := ⟨0x60, 0, 32⟩
def KB3.GRP_FAULTED : Fld := ⟨0x64, 0, 32⟩
def KB3.GRP_ECC_CORR : Fld := ⟨0x68, 0, 32⟩
def KB3.GRP_ECC_DELAY : Fld := ⟨0x6C, 0, 32⟩
def KB3.GRP_CHAIN_ABANDON : Fld := ⟨0x70, 0, 32⟩
def KB3.GRP_ABORT_CAUSE : Fld := ⟨0x74, 24, 8⟩
def KB3.GRP_ABORT_PASS_SEQ : Fld := ⟨0x74, 0, 16⟩
def KB3.GRP_ABORT_CTX : Fld := ⟨0x78, 0, 11⟩

def rowsKB3 : List RegRow := [
  ⟨⟨0x40, 0, 1⟩, 0, 1, 0, 1, .rw, .val 1⟩ /- GRP_CTRL R250 -/,
  ⟨⟨0x44, 16, 16⟩, 0, 1, 0, 1, .ro, .val 0⟩ /- GRP_STATUS_PASS_SEQ R250 -/,
  ⟨⟨0x44, 8, 3⟩, 0, 1, 0, 1, .ro, .val 0⟩ /- GRP_STATUS_CHAIN_LEN R250 -/,
  ⟨⟨0x44, 6, 2⟩, 0, 1, 0, 1, .ro, .val 0⟩ /- GRP_STATUS_MODE R250 -/,
  ⟨⟨0x44, 4, 2⟩, 0, 1, 0, 1, .ro, .val 0⟩ /- GRP_STATUS_STAT R250 -/,
  ⟨⟨0x44, 3, 1⟩, 0, 1, 0, 1, .ro, .val 0⟩ /- GRP_STATUS_HOLD R250 -/,
  ⟨⟨0x44, 2, 1⟩, 0, 1, 0, 1, .ro, .val 0⟩ /- GRP_STATUS_CHAIN_OPEN R250 -/,
  ⟨⟨0x44, 1, 1⟩, 0, 1, 0, 1, .ro, .val 0⟩ /- GRP_STATUS_NEXT_STAGED R250 -/,
  ⟨⟨0x44, 0, 1⟩, 0, 1, 0, 1, .ro, .val 0⟩ /- GRP_STATUS_RUNNING R250 -/,
  ⟨⟨0x48, 0, 32⟩, 0, 1, 0, 1, .ro, .val 0⟩ /- GRP_BUSY_LO R250 -/,
  ⟨⟨0x4C, 0, 32⟩, 0, 1, 0, 1, .ro, .val 0⟩ /- GRP_BUSY_HI R250 -/,
  ⟨⟨0x50, 0, 32⟩, 0, 1, 0, 1, .ro, .val 0⟩ /- GRP_RETIRED_LO R250 -/,
  ⟨⟨0x54, 0, 32⟩, 0, 1, 0, 1, .ro, .val 0⟩ /- GRP_RETIRED_HI R250 -/,
  ⟨⟨0x58, 0, 32⟩, 0, 1, 0, 1, .rc, .val 0⟩ /- GRP_ISSUE_WAIT R250 -/,
  ⟨⟨0x5C, 0, 32⟩, 0, 1, 0, 1, .rc, .val 0⟩ /- GRP_GAP R250 -/,
  ⟨⟨0x60, 0, 32⟩, 0, 1, 0, 1, .rc, .val 0⟩ /- GRP_REISSUED R250 -/,
  ⟨⟨0x64, 0, 32⟩, 0, 1, 0, 1, .rc, .val 0⟩ /- GRP_FAULTED R250 -/,
  ⟨⟨0x68, 0, 32⟩, 0, 1, 0, 1, .rc, .val 0⟩ /- GRP_ECC_CORR R250 -/,
  ⟨⟨0x6C, 0, 32⟩, 0, 1, 0, 1, .rc, .val 0⟩ /- GRP_ECC_DELAY R250 -/,
  ⟨⟨0x70, 0, 32⟩, 0, 1, 0, 1, .rc, .val 0⟩ /- GRP_CHAIN_ABANDON R250 -/,
  ⟨⟨0x74, 24, 8⟩, 0, 1, 0, 1, .ro, .val 0⟩ /- GRP_ABORT_CAUSE R250 -/,
  ⟨⟨0x74, 0, 16⟩, 0, 1, 0, 1, .ro, .val 0⟩ /- GRP_ABORT_PASS_SEQ R250 -/,
  ⟨⟨0x78, 0, 11⟩, 0, 1, 0, 1, .ro, .val 0⟩ /- GRP_ABORT_CTX R250 -/]

/-! ### KB4 -/

def KB4.ENG_INFO_COL_BYPASS : Fld := ⟨0x40, 8, 6⟩
def KB4.ENG_INFO_ROW_BYPASS : Fld := ⟨0x40, 0, 6⟩
def KB4.ENG_STATUS_GATED : Fld := ⟨0x44, 1, 1⟩
def KB4.ENG_STATUS_BUSY : Fld := ⟨0x44, 0, 1⟩
def KB4.ENG_ACTIVE_LO : Fld := ⟨0x48, 0, 32⟩
def KB4.ENG_ACTIVE_HI : Fld := ⟨0x4C, 0, 32⟩
def KB4.ENG_ZERO_LO : Fld := ⟨0x50, 0, 32⟩
def KB4.ENG_ZERO_HI : Fld := ⟨0x54, 0, 32⟩
def KB4.ENG_PASSES : Fld := ⟨0x58, 0, 32⟩
def KB4.ENG_PARITY : Fld := ⟨0x5C, 0, 32⟩

def rowsKB4 : List RegRow := [
  ⟨⟨0x40, 8, 6⟩, 0, 1, 0, 1, .ro, .fuse⟩ /- ENG_INFO_COL_BYPASS R252 -/,
  ⟨⟨0x40, 0, 6⟩, 0, 1, 0, 1, .ro, .fuse⟩ /- ENG_INFO_ROW_BYPASS R252 -/,
  ⟨⟨0x44, 1, 1⟩, 0, 1, 0, 1, .ro, .val 1⟩ /- ENG_STATUS_GATED R252 -/,
  ⟨⟨0x44, 0, 1⟩, 0, 1, 0, 1, .ro, .val 0⟩ /- ENG_STATUS_BUSY R252 -/,
  ⟨⟨0x48, 0, 32⟩, 0, 1, 0, 1, .ro, .val 0⟩ /- ENG_ACTIVE_LO R252 -/,
  ⟨⟨0x4C, 0, 32⟩, 0, 1, 0, 1, .ro, .val 0⟩ /- ENG_ACTIVE_HI R252 -/,
  ⟨⟨0x50, 0, 32⟩, 0, 1, 0, 1, .ro, .val 0⟩ /- ENG_ZERO_LO R252 -/,
  ⟨⟨0x54, 0, 32⟩, 0, 1, 0, 1, .ro, .val 0⟩ /- ENG_ZERO_HI R252 -/,
  ⟨⟨0x58, 0, 32⟩, 0, 1, 0, 1, .rc, .val 0⟩ /- ENG_PASSES R252 -/,
  ⟨⟨0x5C, 0, 32⟩, 0, 1, 0, 1, .rc, .val 0⟩ /- ENG_PARITY R252 -/]

/-! ### KB5 -/


def rowsKB5 : List RegRow := [
]

/-! ### KB6 -/


def rowsKB6 : List RegRow := [
]

/-! ### KB7 -/


def rowsKB7 : List RegRow := [
]

/-! ### KB8 -/

def KB8.SPM_CTRL : Fld := ⟨0x40, 0, 1⟩
def KB8.SPM_STATUS_BANK_OUT : Fld := ⟨0x44, 16, 5⟩
def KB8.SPM_STATUS_CLEARING : Fld := ⟨0x44, 0, 1⟩
def KB8.SPM_ECC_CORR : Fld := ⟨0x48, 0, 32⟩
def KB8.SPM_ECC_UNCORR : Fld := ⟨0x4C, 0, 32⟩
def KB8.SPM_ECC_LINE : Fld := ⟨0x50, 0, 16⟩
def KB8.SCRUB_PASSES : Fld := ⟨0x54, 0, 32⟩
def KB8.SCRUB_CORR : Fld := ⟨0x58, 0, 32⟩
def KB8.SCRUB_UNCORR : Fld := ⟨0x5C, 0, 32⟩
def KB8.SCRUB_FORCED : Fld := ⟨0x60, 0, 32⟩
def KB8.REMOTE_RD : Fld := ⟨0x64, 0, 32⟩
def KB8.REMOTE_WR : Fld := ⟨0x68, 0, 32⟩
def KB8.NARROW : Fld := ⟨0x6C, 0, 32⟩
def KB8.INBOUND_REPLAY : Fld := ⟨0x70, 0, 32⟩
def KB8.INBOUND_PERSIST : Fld := ⟨0x74, 0, 32⟩

def rowsKB8 : List RegRow := [
  ⟨⟨0x40, 0, 1⟩, 0, 1, 0, 1, .rw, .val 1⟩ /- SPM_CTRL R473 -/,
  ⟨⟨0x44, 16, 5⟩, 0, 1, 0, 1, .ro, .fuse⟩ /- SPM_STATUS_BANK_OUT R473 -/,
  ⟨⟨0x44, 0, 1⟩, 0, 1, 0, 1, .ro, .val 0⟩ /- SPM_STATUS_CLEARING R473 -/,
  ⟨⟨0x48, 0, 32⟩, 0, 1, 0, 1, .rc, .val 0⟩ /- SPM_ECC_CORR R473 -/,
  ⟨⟨0x4C, 0, 32⟩, 0, 1, 0, 1, .rc, .val 0⟩ /- SPM_ECC_UNCORR R473 -/,
  ⟨⟨0x50, 0, 16⟩, 0, 1, 0, 1, .ro, .val 0⟩ /- SPM_ECC_LINE R473 -/,
  ⟨⟨0x54, 0, 32⟩, 0, 1, 0, 1, .rc, .val 0⟩ /- SCRUB_PASSES R473 -/,
  ⟨⟨0x58, 0, 32⟩, 0, 1, 0, 1, .rc, .val 0⟩ /- SCRUB_CORR R473 -/,
  ⟨⟨0x5C, 0, 32⟩, 0, 1, 0, 1, .rc, .val 0⟩ /- SCRUB_UNCORR R473 -/,
  ⟨⟨0x60, 0, 32⟩, 0, 1, 0, 1, .rc, .val 0⟩ /- SCRUB_FORCED R473 -/,
  ⟨⟨0x64, 0, 32⟩, 0, 1, 0, 1, .rc, .val 0⟩ /- REMOTE_RD R473 -/,
  ⟨⟨0x68, 0, 32⟩, 0, 1, 0, 1, .rc, .val 0⟩ /- REMOTE_WR R473 -/,
  ⟨⟨0x6C, 0, 32⟩, 0, 1, 0, 1, .rc, .val 0⟩ /- NARROW R473 -/,
  ⟨⟨0x70, 0, 32⟩, 0, 1, 0, 1, .rc, .val 0⟩ /- INBOUND_REPLAY R473 -/,
  ⟨⟨0x74, 0, 32⟩, 0, 1, 0, 1, .rc, .val 0⟩ /- INBOUND_PERSIST R473 -/]

/-! ### KB9 -/

def KB9.MV_CTRL : Fld := ⟨0x40, 0, 1⟩
def KB9.MV_STATUS_QUEUED : Fld := ⟨0x44, 16, 7⟩
def KB9.MV_STATUS_BUSY : Fld := ⟨0x44, 0, 1⟩
def KB9.MV_MOVES : Fld := ⟨0x48, 0, 32⟩
def KB9.MV_BYTES_LO : Fld := ⟨0x4C, 0, 32⟩
def KB9.MV_BYTES_HI : Fld := ⟨0x50, 0, 32⟩
def KB9.MV_SATURATED : Fld := ⟨0x54, 0, 32⟩
def KB9.MV_REFUSED : Fld := ⟨0x58, 0, 32⟩
def KB9.MV_BAD_TILE : Fld := ⟨0x5C, 0, 32⟩
def KB9.MV_FAULTED : Fld := ⟨0x60, 0, 32⟩

def rowsKB9 : List RegRow := [
  ⟨⟨0x40, 0, 1⟩, 0, 1, 0, 1, .rw, .val 1⟩ /- MV_CTRL R475 -/,
  ⟨⟨0x44, 16, 7⟩, 0, 1, 0, 1, .ro, .val 0⟩ /- MV_STATUS_QUEUED R475 -/,
  ⟨⟨0x44, 0, 1⟩, 0, 1, 0, 1, .ro, .val 0⟩ /- MV_STATUS_BUSY R475 -/,
  ⟨⟨0x48, 0, 32⟩, 0, 1, 0, 1, .rc, .val 0⟩ /- MV_MOVES R475 -/,
  ⟨⟨0x4C, 0, 32⟩, 0, 1, 0, 1, .ro, .val 0⟩ /- MV_BYTES_LO R475 -/,
  ⟨⟨0x50, 0, 32⟩, 0, 1, 0, 1, .ro, .val 0⟩ /- MV_BYTES_HI R475 -/,
  ⟨⟨0x54, 0, 32⟩, 0, 1, 0, 1, .rc, .val 0⟩ /- MV_SATURATED R475 -/,
  ⟨⟨0x58, 0, 32⟩, 0, 1, 0, 1, .rc, .val 0⟩ /- MV_REFUSED R475 -/,
  ⟨⟨0x5C, 0, 32⟩, 0, 1, 0, 1, .rc, .val 0⟩ /- MV_BAD_TILE R475 -/,
  ⟨⟨0x60, 0, 32⟩, 0, 1, 0, 1, .rc, .val 0⟩ /- MV_FAULTED R475 -/]

/-! ### KB10 -/

def KB10.SP_CTRL_META_FAULT_EN : Fld := ⟨0x40, 1, 1⟩
def KB10.SP_CTRL_EN : Fld := ⟨0x40, 0, 1⟩
def KB10.SP_STATUS_GATHER_BUSY : Fld := ⟨0x44, 1, 1⟩
def KB10.SP_STATUS_COMPRESS_BUSY : Fld := ⟨0x44, 0, 1⟩
def KB10.TILES_IN : Fld := ⟨0x48, 0, 32⟩
def KB10.TILES_DENSE : Fld := ⟨0x4C, 0, 32⟩
def KB10.OVER24 : Fld := ⟨0x50, 0, 32⟩
def KB10.MASKED_DROP : Fld := ⟨0x54, 0, 32⟩
def KB10.NOT_TRANSPOSABLE : Fld := ⟨0x58, 0, 32⟩
def KB10.META_RANGE : Fld := ⟨0x5C, 0, 32⟩
def KB10.W24_PASSES : Fld := ⟨0x60, 0, 32⟩
def KB10.W24_DENSE_PASSES : Fld := ⟨0x64, 0, 32⟩
def KB10.BLOCKS_SKIPPED : Fld := ⟨0x68, 0, 32⟩
def KB10.ROWS_READ : Fld := ⟨0x6C, 0, 32⟩
def KB10.ROWS_ZERO : Fld := ⟨0x70, 0, 32⟩
def KB10.ROWS_PRED_SKIP : Fld := ⟨0x74, 0, 32⟩
def KB10.ROWS_STOLEN_CORE : Fld := ⟨0x78, 0, 32⟩
def KB10.ROWS_STOLEN_CLUSTER : Fld := ⟨0x7C, 0, 32⟩
def KB10.ROWS_PAD : Fld := ⟨0x80, 0, 32⟩
def KB10.CAS_RETRY : Fld := ⟨0x84, 0, 32⟩
def KB10.PRED_ROWS : Fld := ⟨0x88, 0, 32⟩
def KB10.PRED_MISS : Fld := ⟨0x8C, 0, 32⟩
def KB10.PRED_EXTRA : Fld := ⟨0x90, 0, 32⟩
def KB10.SP_REFUSED : Fld := ⟨0x94, 0, 32⟩

def rowsKB10 : List RegRow := [
  ⟨⟨0x40, 1, 1⟩, 0, 1, 0, 1, .rw, .val 0⟩ /- SP_CTRL_META_FAULT_EN R302 -/,
  ⟨⟨0x40, 0, 1⟩, 0, 1, 0, 1, .rw, .val 1⟩ /- SP_CTRL_EN R302 -/,
  ⟨⟨0x44, 1, 1⟩, 0, 1, 0, 1, .ro, .val 0⟩ /- SP_STATUS_GATHER_BUSY R302 -/,
  ⟨⟨0x44, 0, 1⟩, 0, 1, 0, 1, .ro, .val 0⟩ /- SP_STATUS_COMPRESS_BUSY R302 -/,
  ⟨⟨0x48, 0, 32⟩, 0, 1, 0, 1, .rc, .val 0⟩ /- TILES_IN R302 -/,
  ⟨⟨0x4C, 0, 32⟩, 0, 1, 0, 1, .rc, .val 0⟩ /- TILES_DENSE R302 -/,
  ⟨⟨0x50, 0, 32⟩, 0, 1, 0, 1, .rc, .val 0⟩ /- OVER24 R302 -/,
  ⟨⟨0x54, 0, 32⟩, 0, 1, 0, 1, .rc, .val 0⟩ /- MASKED_DROP R302 -/,
  ⟨⟨0x58, 0, 32⟩, 0, 1, 0, 1, .rc, .val 0⟩ /- NOT_TRANSPOSABLE R302 -/,
  ⟨⟨0x5C, 0, 32⟩, 0, 1, 0, 1, .rc, .val 0⟩ /- META_RANGE R302 -/,
  ⟨⟨0x60, 0, 32⟩, 0, 1, 0, 1, .rc, .val 0⟩ /- W24_PASSES R302 -/,
  ⟨⟨0x64, 0, 32⟩, 0, 1, 0, 1, .rc, .val 0⟩ /- W24_DENSE_PASSES R302 -/,
  ⟨⟨0x68, 0, 32⟩, 0, 1, 0, 1, .rc, .val 0⟩ /- BLOCKS_SKIPPED R302 -/,
  ⟨⟨0x6C, 0, 32⟩, 0, 1, 0, 1, .rc, .val 0⟩ /- ROWS_READ R302 -/,
  ⟨⟨0x70, 0, 32⟩, 0, 1, 0, 1, .rc, .val 0⟩ /- ROWS_ZERO R302 -/,
  ⟨⟨0x74, 0, 32⟩, 0, 1, 0, 1, .rc, .val 0⟩ /- ROWS_PRED_SKIP R302 -/,
  ⟨⟨0x78, 0, 32⟩, 0, 1, 0, 1, .rc, .val 0⟩ /- ROWS_STOLEN_CORE R302 -/,
  ⟨⟨0x7C, 0, 32⟩, 0, 1, 0, 1, .rc, .val 0⟩ /- ROWS_STOLEN_CLUSTER R302 -/,
  ⟨⟨0x80, 0, 32⟩, 0, 1, 0, 1, .rc, .val 0⟩ /- ROWS_PAD R302 -/,
  ⟨⟨0x84, 0, 32⟩, 0, 1, 0, 1, .rc, .val 0⟩ /- CAS_RETRY R302 -/,
  ⟨⟨0x88, 0, 32⟩, 0, 1, 0, 1, .rc, .val 0⟩ /- PRED_ROWS R302 -/,
  ⟨⟨0x8C, 0, 32⟩, 0, 1, 0, 1, .rc, .val 0⟩ /- PRED_MISS R302 -/,
  ⟨⟨0x90, 0, 32⟩, 0, 1, 0, 1, .rc, .val 0⟩ /- PRED_EXTRA R302 -/,
  ⟨⟨0x94, 0, 32⟩, 0, 1, 0, 1, .rc, .val 0⟩ /- SP_REFUSED R302 -/]

/-! ### KB11 -/

def KB11.ACC_CTRL : Fld := ⟨0x40, 0, 1⟩
def KB11.DENY_COUNT : Fld := ⟨0x48, 0, 32⟩
def KB11.DENY_FIRST_VALID : Fld := ⟨0x4C, 31, 1⟩
def KB11.DENY_FIRST_WRITE : Fld := ⟨0x4C, 30, 1⟩
def KB11.DENY_FIRST_REMOTE : Fld := ⟨0x4C, 29, 1⟩
def KB11.DENY_FIRST_MID : Fld := ⟨0x4C, 24, 5⟩
def KB11.DENY_FIRST_UNIT : Fld := ⟨0x4C, 23, 1⟩
def KB11.DENY_FIRST_NODE : Fld := ⟨0x4C, 0, 10⟩
def KB11.DENY_ADDR_LO : Fld := ⟨0x50, 0, 32⟩
def KB11.DENY_ADDR_HI : Fld := ⟨0x54, 0, 26⟩
def KB11.SPM_DEFAULT_LO : Fld := ⟨0x58, 0, 32⟩
def KB11.SPM_DEFAULT_HI : Fld := ⟨0x5C, 0, 32⟩
def KB11.SPM_WIN_BASE (n : Nat) : Fld := ⟨0x100 + 0x10 * n, 0, 11⟩
def KB11.SPM_WIN_LIMIT (n : Nat) : Fld := ⟨0x104 + 0x10 * n, 0, 11⟩
def KB11.SPM_WIN_GRANT_LO (n : Nat) : Fld := ⟨0x108 + 0x10 * n, 0, 32⟩
def KB11.SPM_WIN_GRANT_HI (n : Nat) : Fld := ⟨0x10C + 0x10 * n, 0, 32⟩

def rowsKB11 : List RegRow := [
  ⟨⟨0x40, 0, 1⟩, 0, 1, 0, 1, .rwl, .template⟩ /- ACC_CTRL R650 -/,
  ⟨⟨0x48, 0, 32⟩, 0, 1, 0, 1, .rc, .val 0⟩ /- DENY_COUNT R633 -/,
  ⟨⟨0x4C, 31, 1⟩, 0, 1, 0, 1, .w1c, .val 0⟩ /- DENY_FIRST_VALID R633 -/,
  ⟨⟨0x4C, 30, 1⟩, 0, 1, 0, 1, .ro, .val 0⟩ /- DENY_FIRST_WRITE R633 -/,
  ⟨⟨0x4C, 29, 1⟩, 0, 1, 0, 1, .ro, .val 0⟩ /- DENY_FIRST_REMOTE R633 -/,
  ⟨⟨0x4C, 24, 5⟩, 0, 1, 0, 1, .ro, .val 0⟩ /- DENY_FIRST_MID R633 -/,
  ⟨⟨0x4C, 23, 1⟩, 0, 1, 0, 1, .ro, .val 0⟩ /- DENY_FIRST_UNIT R633 -/,
  ⟨⟨0x4C, 0, 10⟩, 0, 1, 0, 1, .ro, .val 0⟩ /- DENY_FIRST_NODE R633 -/,
  ⟨⟨0x50, 0, 32⟩, 0, 1, 0, 1, .ro, .val 0⟩ /- DENY_ADDR_LO R633 -/,
  ⟨⟨0x54, 0, 26⟩, 0, 1, 0, 1, .ro, .val 0⟩ /- DENY_ADDR_HI R633 -/,
  ⟨⟨0x58, 0, 32⟩, 0, 1, 0, 1, .rws, .template⟩ /- SPM_DEFAULT_LO R650 -/,
  ⟨⟨0x5C, 0, 32⟩, 0, 1, 0, 1, .rws, .template⟩ /- SPM_DEFAULT_HI R650 -/,
  ⟨⟨0x100, 0, 11⟩, 0x10, 8, 0, 1, .rws, .template⟩ /- SPM_WIN_BASE R648 -/,
  ⟨⟨0x104, 0, 11⟩, 0x10, 8, 0, 1, .rws, .template⟩ /- SPM_WIN_LIMIT R648 -/,
  ⟨⟨0x108, 0, 32⟩, 0x10, 8, 0, 1, .rws, .template⟩ /- SPM_WIN_GRANT_LO R648 -/,
  ⟨⟨0x10C, 0, 32⟩, 0x10, 8, 0, 1, .rws, .template⟩ /- SPM_WIN_GRANT_HI R648 -/]

/-! ### KB12 -/

def KB12.CORE_ERR_SUMMARY : Fld := ⟨0x40, 0, 13⟩
def KB12.ICACHE_PARITY : Fld := ⟨0x44, 0, 32⟩
def KB12.CTX_PARITY : Fld := ⟨0x48, 0, 32⟩
def KB12.SB_PARITY : Fld := ⟨0x4C, 0, 32⟩

def rowsKB12 : List RegRow := [
  ⟨⟨0x40, 0, 13⟩, 0, 1, 0, 1, .ro, .val 0⟩ /- CORE_ERR_SUMMARY R614 -/,
  ⟨⟨0x44, 0, 32⟩, 0, 1, 0, 1, .rc, .val 0⟩ /- ICACHE_PARITY R614 -/,
  ⟨⟨0x48, 0, 32⟩, 0, 1, 0, 1, .rc, .val 0⟩ /- CTX_PARITY R614 -/,
  ⟨⟨0x4C, 0, 32⟩, 0, 1, 0, 1, .rc, .val 0⟩ /- SB_PARITY R614 -/]

end Sys2Proof.Machine
end

