-- ==== Sys2Proof/Config.lean ====
section
/-!
DEFINITION. What an implementation fixes and what the spec leaves open. Each constant here is opaque: nothing can be
proved of its value, and a statement about it holds for every value. A free value is applied to the counter `State.free`.
-/

namespace Sys2Proof

/-- A byte the spec calls undefined (R246, R311, R440, R456). -/
opaque Config.freeByte : Nat → BitVec 8

/-- A 32-bit value that the spec leaves open. -/
opaque Config.freeWord : Nat → BitVec 32

/-- Byte `i` of the boot ROM's measurement (R639: the digest of contents the spec does not give). -/
opaque Config.romDigest : Nat → BitVec 8

/-- Byte `i` of the identity public key that ML-DSA-44 key generation derives (R638, FIPS 204) from the digest of the
identity fuse word. -/
opaque Config.identityKey : List Nat → Nat → BitVec 8

/-- Byte `i` of the hedged ML-DSA-44 signature (R641, FIPS 204) over a message; the second argument is the signer's
randomness. -/
opaque Config.signatureByte : List Nat → Nat → Nat → BitVec 8

/-- Whether an ML-DSA-44 signature verifies (R567, R568, FIPS 204): public key, message, signature. -/
opaque Config.verifies : List Nat → List Nat → List Nat → Bool

/-- Byte `i` of the fused hash of signing key `k` (R567, R584): fused as shipped, its value not given. -/
opaque Config.keyHash : Nat → Nat → BitVec 8

/-- The proportional-integral correction of R49 in units of 1/1,024 ppb: offset and integral in 2^-16 ns, KP, KI. The
spec gives the gains' unit and no more. -/
opaque Config.servo : Int → Int → Nat → Nat → Int

/-- The hash of a row's slot and line that starts the window of its pending entry (R356). -/
opaque Config.pendHash : Nat → Nat → Nat

end Sys2Proof
end

