-- ==== Sys2Proof/Machine/State.lean ====
section
/-!
DEFINITION. The state of the block: every register, memory, queue, timer and mode the spec gives it, as plain data, the
queue of waiting commands, the two ways a command can stop, and the state right after reset.
Sparse stores are sorted association lists (Machine/Maps.lean). Times ending in `now` units are nanoseconds of `now`.
-/

namespace Sys2Proof.Machine

/-- A captured RWS set waiting for its safe point (R11): the shadow words, and whether a tread cut has come since. -/
structure Captured where
  words : List (Nat × Word)
  cutSeen : Bool
  deriving DecidableEq, Repr


/-- The fuses (R31, R553, R567, R577, R729 and the register fields whose reset value is *fuse*). -/
structure Fuses where
  siliconRev : Nat
  grade : Nat
  fusedOff : List Nat
  words : List (Nat × Word)
  secret : List Nat
  reach0 : Nat
  reach1 : Nat
  failLimit : Nat
  rollbackMin : Nat
  keyRevoked : Nat
  keyPresent : Nat
  trigIdle : Nat
  mac : List (Nat × Nat)
  engBypass : List (Nat × Nat)
  bankOut : List (Nat × Nat)
  sparedCh : List (Nat × Nat)
  corrSpared : List (Nat × Word)
  guardMvPerPs : Nat
  guardPs : Nat
  vfMv : List (Nat × Nat)
  smbOffset : Nat
  deriving DecidableEq, Repr

/-- The register pages: words written since reset, the effective set of the RWS fields (R10, R11), the sets captured
by a commit and not yet in effect (R11, R13), and the HI halves latched by a read of LO (R9). -/
structure RegFile where
  regs : List (Nat × Word)
  eff : List (Nat × Word)
  captured : List (Nat × Captured)
  hiLatch : List (Nat × Word)
  deriving DecidableEq, Repr

/-- The answer that the last access or command gave its sender. -/
inductive Answer where
  | none
  | data (v : Nat)
  | refused | denied | targetReset | unroutable | poisoned | nacked
  | bytes (bs : List Nat)
  deriving DecidableEq, Repr

/-- What a reset source reaches (R547, R553). -/
inductive Target where
  | package
  | die (d : Nat)
  | cluster (d c : Nat)
  | slot (n : Nat)
  | only (b : Block)
  deriving DecidableEq, Repr

/-- An asserted reset source (R553): its code, the level of its reach, what it reaches, the time at which a timed
assertion ends, and a number that tells sources of one code apart (the clock of a CLK_LOSS). -/
structure Source where
  code : Nat
  level : Nat
  target : Target
  ends : Option Nat
  tag : Nat
  deriving DecidableEq, Repr

/-- The reset state of a block (R556, R582); `code` is the source whose level its episode has. -/
structure BlockState where
  inReset : Bool
  releasing : Bool
  level : Nat
  episodes : Nat
  clkLost : Bool
  code : Nat
  deriving DecidableEq, Repr

/-- The reset controller (R553 to R559): block states by `Block.key`, asserted sources, the ASSERT sources held (bit n,
level and scope), the clocks whose CLK_GOOD is high, and the reset pins. -/
structure ResetState where
  blocks : List (Nat × BlockState)
  sources : List Source
  held : List (Nat × (Nat × Nat))
  clkGood : List Clk
  porN : Bool
  resetN : Bool
  perstN : Bool
  trstN : Bool
  bootselPin : Nat
  startCode : Nat
  lowRails : List Rail
  aonPresent : Bool
  deriving DecidableEq, Repr

/-- The boot ROM (R565 to R580): since when the boot timer runs (none while stopped or paused) and what it had counted
before, both in `now` units; whether a start is in progress; both flash slots have failed; GO was written in recovery; the
host image buffer; the image accepted; and what firmware keeps in the boot flash: the SLOT_FENCE and CORE_MAP words of
each cluster with a fence (R607) and POWERED_HOURS (R537). -/
structure BootState where
  timerFrom : Option Nat
  timerRun : Nat
  starting : Bool
  flashFailed : Bool
  go : Bool
  imgBuf : List Host.Cell
  image : Option (List Byte)
  copies : List Nat
  flashFences : List (Nat × (Nat × Nat))
  flashHours : Nat
  deriving DecidableEq, Repr

/-- An event history record (R596) before its SEQ is given. -/
structure Record where
  ns : Nat
  sec : Nat
  kind : Nat
  flags : Nat
  source : Nat
  arg0 : Nat
  arg1 : Nat
  arg2 : Nat
  deriving DecidableEq, Repr

/-- The event history (R596 to R600): the queue of at most 64 records, the records dropped and not yet reported, and
the records held, by index, with their SEQ. -/
structure History where
  queue : List Record
  dropped : Nat
  recs : List (Nat × (Nat × Record))
  deriving DecidableEq, Repr

/-- The corrected events of one detector on one page in the current second (R599). -/
structure CorrRise where
  page : Nat
  det : Nat
  rise : Nat
  info : Nat
  addr : Nat
  injected : Bool
  deriving DecidableEq, Repr

/-- Error bookkeeping that firmware acts on (R599, R601): uncorrectable lines and CTX_PARITY events of each slot since
the last L0, and the fences waiting, in the order of their triggers; failures of each corridor lane (R16); contexts with a
register that could not be read; control cores halted by their memory whose watchdog has still to expire; and whether the
command now carried out has met an injected event, so that a fault it causes is recorded (R611), and the device second up to
which records of corrected events have been written. -/
structure ErrState where
  rises : List CorrRise
  badLines : List (Nat × List Nat)
  ctxParity : List (Nat × Nat)
  fenceReq : List Nat
  laneFails : List (Nat × Nat)
  badCtx : List Nat
  ccHalt : List Nat
  inj : Bool
  second : Nat
  deriving DecidableEq, Repr

/-- The MSI-X table and pending bits (R655, R665, R666): masked and pending vectors, the conditions last seen, the table
entries, and the messages sent (vector, address, data), newest first. -/
structure Msix where
  masked : BitVec 64
  pend : BitVec 64
  cond : BitVec 64
  entries : List (Nat × (BitVec 64 × Word))
  sent : List (Nat × (BitVec 64 × Word))
  deriving DecidableEq, Repr

/-- A frequency step in progress on a die (R526). -/
inductive StepPhase where
  | raise | lock (since : Nat) | hold | lower
  deriving DecidableEq, Repr

/-- The energy ledger (R516 to R525): SPENT in 2^-10 µJ, COMMIT in pJ, the last 64 sample powers in µW newest first,
since when the stretch level is 8, sixteenths of suppressed ACLK pulses not yet counted, the energy since the last tread
event in 2^-10 µJ, the class holds that throttling has taken, the time of the last period end, the frequency steps in
progress by die (target point, phase), and the slots whose waiting pass is to be tested (R521). -/
structure Ledger where
  spent : Nat
  commit : Nat
  samples : List Nat
  s8since : Option Nat
  stretch16 : Nat
  sinceTread : Nat
  hold3 : Bool
  hold2 : Bool
  periodFrom : Nat
  steps : List (Nat × (Nat × StepPhase))
  toTest : List Nat
  deriving DecidableEq, Repr

/-- SUPPLY_WARN_N (R531, R532). `step1` gives the time of step 1 while its class holds are in force; `due` says that step
2 has not come up since; `stopped` that step 2 has begun; `risen` the time of the last rise while RELEASE_MS counts. -/
structure Supply where
  pinLow : Bool
  step1 : Option Nat
  due : Bool
  stopped : Bool
  risen : Option Nat
  deriving DecidableEq, Repr

/-- The monitors (R528 to R538): the last reading of each cluster's junction sensor in °C, whether the trip source is asserted and since when every sensor is cool, the worst slack
of each die at its last plan, the highest point-0 voltage at the last plan, and a re-plan asked for by AGE_CMD. -/
structure Monitors where
  temps : List (Nat × Int)
  tripped : Bool
  coolSince : Option Nat
  planSlack : List (Nat × Int)
  planMv : Nat
  replanReq : Bool
  deriving DecidableEq, Repr

/-- A quote in progress (R641): the master that wrote GO and the bytes captured at GO. -/
structure Quote where
  rq : Requester
  head : List Byte
  deriving DecidableEq, Repr

/-- Identity and quotes (R638 to R641), and firmware's copy of each die's last committed B7 set (R637). -/
structure Attest where
  pubKey : List Byte
  quote : Option Quote
  b7copy : List (Nat × (List (Nat × Word) × Bool))
  deriving DecidableEq, Repr

/-- The JTAG port (R643, R644): the instruction register, boundary cells preloaded and driven, and the DBG_ACCESS data
register. -/
structure Jtag where
  ir : BitVec 8
  boundary : List Bool
  driving : Bool
  rdata : Word
  done : Bool
  denied : Bool
  shiftOut : Nat
  deriving DecidableEq, Repr

/-- A residence entry of a two-step Sync (R60): the direction (its ingress port), the Sync's identity, its residence time
in 2^-16 ns once known, and when it was made. -/
structure Residence where
  port : Nat
  seq : Nat
  src : Nat
  domain : Nat
  resid : Option Int
  made : Nat
  deriving DecidableEq, Repr

/-- A peer delay measurement of a ring port: the request sent (sequenceId, t1), the response (t2 of the responder, t4,
the corrections) when its follow-up is awaited, the previous (t3, t4) for the neighbour rate ratio, the neighbour rate
offset in 2^-41, and whether a delay has been measured. Times in 2^-16
ns. -/
structure Pdelay where
  req : Option (Nat × Int)
  resp : Option (Nat × Int × Int × Int)
  prev : Option (Int × Int)
  rateOffset : Int
  measured : Bool
  deriving DecidableEq, Repr

/-- The time base (R42 to R64): device time in 2^-32 ns; the FREQ_ADJ values of the last 64 valid samples, newest first;
the servo's integral; in-threshold samples in a row; when the last valid sample came; the second armed for PPS_IN, the
previous accepted PPS edge (`now`, second); masters heard (port, Announce) and the one selected (a master's path delay: none before one is measured; when the last request went); the two-step Sync
whose Follow_Up is awaited (port, sequenceId, source, ingress time, correction); the last Sync's ingress time and origin
for the end-to-end delay; the Delay_Req sent by each port; the mean path delay; peer delay by port; residence entries and
held Follow_Ups; PTP messages sent or relayed, newest first; the last second pulsed on PPS_OUT and when its pulse ends;
and, while a synthesised angle waits after a backward step, the device time it waits for (R688). -/
structure TimeBase where
  dev : Nat
  adjs : List Int
  integral : Int
  inLock : Nat
  lastSample : Option Nat
  armed : Option Nat
  lastPps : Option (Nat × Nat)
  heard : List (Nat × PtpMsg)
  master : Option (Nat × PtpMsg)
  twoStep : Option (Nat × Nat × Nat × Int × Int)
  lastSync : Option (Int × Int)
  delayReq : List (Nat × (Nat × Int))
  pathDelay : Option Int
  pdelay : List (Nat × Pdelay)
  resid : List Residence
  heldFu : List (Nat × PtpMsg)
  reqSeq : Nat
  reqAt : Option Nat
  sent : List (Nat × PtpMsg)
  ppsSec : Nat
  ppsUntil : Nat
  angleHold : Option Nat
  deriving DecidableEq, Repr

/-- One frame as the stair schedule counts it (R78): its number, the unwrapped angle at which it begins (in 2^-16 units),
the B and the TREADS code of the set it runs under, its close lag, its reference time (R140) in whole nanoseconds, its late
treads (R76), and whether HOLDOVER was set at one of its events. -/
structure StairFrame where
  no : Nat
  start : Nat
  b : Nat
  code : Nat
  lag : Nat
  ref : Nat
  late : List Nat
  holdover : Bool
  deriving DecidableEq, Repr

/-- A tread being closed (R73): its frame and number, its home die, whether the barrier is complete, and, once its merge is,
whether there was anything to merge. -/
structure Closing where
  frame : Nat
  tread : Nat
  home : Nat
  barrier : Bool
  merged : Option Bool
  deriving DecidableEq, Repr

/-- The stair schedule (R65 to R79): the unwrapped newel angle in 2^-16 units with the remainder of its advance; the
measured rate (none before a full revolution); the start of the revolution being measured (unwrapped source angle, device
time); the last source sample (unwrapped angle in 2^-16 units, device time in 2^-32 ns) and when it came; samples accepted
in a row during HOLDOVER; the encoder's pins, remainder and backward counts; the frame whose treads close next and the next
tread to be cut, which lies in the frame open after it when `cutAhead` holds; the unwrapped angle whose crossing opens
frame 0 while that is awaited; the frame open after it; treads closing; tread close times by frame slot and tread; and
when the LANDING_OUT pulse ends. -/
structure Stair where
  angle : Nat
  rem : Nat
  rate : Option Nat
  revFrom : Option (Nat × Nat)
  sample : Option (Nat × Nat)
  sampleAt : Option Nat
  agreed : Nat
  encA : Bool
  encB : Bool
  encRem : Nat
  encBack : Nat
  encAngle : Nat
  frame : Option StairFrame
  nextCut : Nat
  cutAhead : Bool
  first : Option Nat
  ahead : Option StairFrame
  closing : List Closing
  prevClose : List (Nat × Nat)
  landUntil : Nat
  deriving DecidableEq, Repr

/-- A trigger output (R83 to R86): the device time (2^-32 ns) or the unwrapped angle (2^-16 units) of its next firing, and
when its pulse ends. -/
structure Trigger where
  nextTime : Option Nat
  nextAngle : Option Nat
  until_ : Nat
  deriving DecidableEq, Repr

/-- A capture input (R88): the FIFO of (device time, rising), oldest first, and when its last edge came. -/
structure Capture where
  fifo : List (Nat × Bool)
  last : Option Nat
  deriving DecidableEq, Repr

/-- The ring bypass (R113 to R115): the BYPASS_FORCE pin, the ring ports that a failover still has
retraining, and when the hold-off ends. -/
structure Bypass where
  pin : Bool
  failover : List Nat
  holdoff : Option Nat
  deriving DecidableEq, Repr

/-- A frame waiting in a relay buffer or sent: its bytes without the frame check sequence, its ingress time in 2^-16 ns,
and whether its copy was cut and ended with an inverted frame check sequence (R106). -/
structure RelayFrame where
  bytes : List Nat
  ts : Nat
  stomped : Bool
  deriving DecidableEq, Repr

/-- The sensor ports (R97 to R121): relay buffers by egress port, the device time at which the copy now being received
began on each egress port, ports that have still to take a committed B4 set (by the set's words, with a changed link mode),
the counter rises of the second (counter offset in the page, rise) with the device second up to which they have been
recorded, and the frames sent, newest first. -/
structure Ports where
  relay : List (Nat × List RelayFrame)
  begun : List (Nat × Nat)
  portEff : List (Nat × List (Nat × Word))
  portPend : List (Nat × List (Nat × Word))
  rises : List (Nat × Nat)
  second : Nat
  sent : List (Nat × RelayFrame)
  deriving DecidableEq, Repr


/-! ### Threads (R367 to R409) -/

/-- The states of a context (R369). -/
inductive CtxSt where
  | free | ready | waiting | blocked | exiting | faulted
  deriving DecidableEq, Repr

/-- The conditions of the wait instructions (R379). A board is its region-0x1 offset; its FRAME at issue goes with it. -/
inductive WaitKind where
  | tread (f k : Nat)
  | landing (f : Nat)
  | time (t : Nat)
  | count (n v : Nat)
  | halo (board k j frame : Nat)
  deriving DecidableEq, Repr

/-- The modes of FENCE (R389). -/
inductive FenceMode where
  | acq | rel | full
  deriving DecidableEq, Repr

/-- The operations of R390. -/
inductive AmoOp where
  | add | min | max | minu | maxu | cas | fadd
  deriving DecidableEq, Repr

/-- A scalar access (R382, R420 to R422): a load into `dst` of `size` bytes, a store with the counter that a counted
store names, or an atomic with its operand and comparand. -/
inductive Access where
  | load (dst size : Nat) (signed : Bool) (addr : Nat)
  | store (size addr data : Nat) (ctr : Option Nat)
  | amo (op : AmoOp) (dst size addr opnd cmp : Nat) (acq : Bool)
  deriving DecidableEq, Repr

/-- A tensor instruction issued and not yet entered (R430): its OP, descriptor address, NOTIFY, word 3, and whether it has
counted in SB_FULL_WAIT. -/
structure Issuing where
  op : Nat
  desc : Nat
  notify : Nat
  w3 : Nat
  counted : Bool
  deriving DecidableEq, Repr

/-- What holds a WAITING or BLOCKED context. `before` is an instruction not yet issued that waits for the thread's earlier
loads and atomics, stores, and tensor instructions, each where it says so. -/
inductive Hold where
  | none
  | wait (k : WaitKind) (deadline dst : Nat)
  | fence (m : FenceMode)
  | before (ld st ti : Bool)
  | mark (board k j : Nat)
  | access (a : Access)
  | loads
  | tensor (i : Issuing)
  deriving DecidableEq, Repr

/-- An outstanding load or atomic (R384): its destination and form, address, the PC of the instruction, the value once
performed, the Gallery tag it waits for, and whether it carries ACQ. -/
structure Load where
  dst : Nat
  size : Nat
  signed : Bool
  addr : Nat
  pc : Nat
  value : Option Nat
  tag : Option Nat
  amo : Bool
  acq : Bool
  deriving DecidableEq, Repr

/-- A thread context (R367): registers by number (s0 and zeros unlisted), the instruction words fetched and not yet issued,
the unretired tensor instructions, stores not yet performed, the arrival counter named at its spawn (of which logical
core), since when it has been READY without issuing (R377),
and the code of the fault that stopped it. -/
structure Ctx where
  st : CtxSt
  regs : List (Nat × Reg64)
  pc : Nat
  domain : Nat
  cls : Nat
  unretired : Nat
  spawnCtr : Option (Nat × Nat)
  ir : List Nat
  loads : List Load
  stores : Nat
  hold : Hold
  since : Nat
  promoted : Bool
  fault : Nat
  deriving DecidableEq, Repr

/-- A range entry of the scoreboard (R397): start line, length in lines, read and write kinds, held set (R238). -/
structure Range where
  start : Nat
  lines : Nat
  rd : Bool
  wr : Bool
  held : Bool
  deriving DecidableEq, Repr

/-- How far an entered tensor instruction has come: entered, admitted to its queue in the given order, passed to its unit,
its results computed and its last accesses to be made, or finished and due to retire or to deliver a fault. -/
inductive TiPhase where
  | entered
  | queued (order : Nat)
  | running
  | ending
  | retiring
  | faulting (code : Nat)
  deriving DecidableEq, Repr

/-- An access that a unit still has to make: bytes to write at an address, an increment of arrival counter `n` of the core
whose scratchpad holds an address, or an atomic update of the 32-bit word at an address (`op` as R390 numbers it, 7 the
maximum of FP32 values, with the word's value last compared with, R318). -/
inductive UnitOut where
  | write (g : Nat) (bs : List Nat)
  | arrive (g n : Nat)
  | lane (op g v : Nat) (tried : Option Nat)
  deriving DecidableEq, Repr

/-- An entered tensor instruction (R398, R430): its number, OP, context, domain, thread class, address of its first word,
NOTIFY, word 3, the copy of its descriptor with the descriptor's address, its ranges, which hazards it has waited on, whether its thread still stands, the
blocks that other nodes have answered to its reads (address, bytes), its accesses that are not yet answered, those still to
be made, those to be made once all of these are done, and what its unit keeps of its progress (each unit's own module says
what). -/
structure Ti where
  id : Nat
  op : Nat
  ctx : Nat
  domain : Nat
  cls : Nat
  pc : Nat
  notify : Nat
  w3 : Nat
  descAt : Nat
  desc : List Nat
  ranges : List Range
  phase : TiPhase
  waited : Nat
  owned : Bool
  far : List (Nat × List Nat)
  owed : Nat
  out : List UnitOut
  fin : List UnitOut
  prog : List Nat
  deriving DecidableEq, Repr

/-- A write from another master held at a core's scratchpad (R404): its first byte, the bytes, the counter to increment
once performed, and the thread (slot × 2048 + context, with its PC at the store), the unit (slot, number of its instruction)
or the Gallery request (node, tag) that it answers to; none for the host. -/
structure Inbound where
  off : Nat
  data : List Nat
  ctr : Option Nat
  thread : Option (Nat × Nat)
  unit : Option (Nat × Nat)
  reply : Option (Nat × Nat)
  deriving DecidableEq, Repr

/-- The range of a held stationary set whose instruction has retired (R238): the set's number, the context that loaded
it, the range. -/
structure Kept where
  set : Nat
  ctx : Nat
  range : Range
  deriving DecidableEq, Repr

/-- The scoreboard, queues and instruction cache of a core: entered tensor instructions in entry order, ranges of held
sets, the next numbers, writes held for the scoreboard, cached instruction lines (line address, bytes), oldest first, and
the context last issued in each class (R376). -/
structure CoreState where
  tis : List Ti
  kept : List Kept
  nextId : Nat
  nextOrder : Nat
  inbound : List Inbound
  icache : List (Nat × List Nat)
  lastIssued : List (Nat × Nat)
  deriving DecidableEq, Repr

/-! ### Point Front and Voxel Hall -/

/-- An accepted ego-motion sample (R133, R134): its time in nanoseconds, ODOM_RESET, and X, Y, Z, ROLL, PITCH, YAW. -/
structure EgoSample where
  t : Nat
  reset : Bool
  pose : List Nat
  deriving DecidableEq, Repr

/-- A cell record (R142), also a candidate for one (R155). -/
structure Cell where
  kx : Int
  ky : Int
  kz : Int
  ox : Int
  oy : Int
  oz : Int
  inten : Nat
  sensor : Nat
  sweep : Nat
  toff : Int
  points : Nat
  flags : Nat
  tread : Nat
  feat : Nat
  deriving DecidableEq, Repr

/-- A point held for a frame that has not opened (R76, R731): vehicle-frame position at point time, point time. -/
structure HeldPoint where
  frame : Nat
  sensor : Nat
  pv : List Nat
  inten : Nat
  time : Nat
  late : Bool
  deriving DecidableEq, Repr

/-- What a Point Front counts for an open frame (R144): limits at the opening, and admitted and refused by sensor. -/
structure FrontFrame where
  limits : List Nat
  admitted : List (Nat × Nat)
  refused : List (Nat × Nat)
  deriving DecidableEq, Repr

/-- A Point Front: held ego samples newest first, the ring index it reads next, packet times by sensor (R109), open frames
that opened while it was in service, and points held for the next frame. -/
structure Front where
  ego : List EgoSample
  egoRd : Nat
  lastTs : List (Nat × Nat)
  frames : List (Nat × FrontFrame)
  held : List HeldPoint
  deriving DecidableEq, Repr

/-- A frame slot of a Voxel Hall with the B2 set that its frame runs under (R160 to R165): the frame, REF in nanoseconds,
treads code, treads, TREAD0_ANGLE, voxel sizes, region, policy, sweep rule and SWEEPS, seed, CARRY_QUOTA at the opening,
whether it has landed, stopped (R588), whether its index entries stand (R153), counts, and the length of its tread lists. -/
structure Slot where
  frame : Nat
  ref : Nat
  code : Nat
  b : Nat
  voxel : List Nat
  roiMin : List Int
  roiMax : List Int
  policy : Nat
  rule : Nat
  sweeps : Nat
  seed : Nat
  quota : Nat
  landed : Bool
  stopped : Bool
  live : Bool
  cells : Nat
  admitted : Nat
  carried : Nat
  unindexed : Nat
  listed : Nat
  flags : Nat
  deriving DecidableEq, Repr

/-- A Voxel Hall: points at the probe input in order (frame, candidate), the alcove and the DRAM overflow region, index
entries in use, frame slots, the older frame whose entries wait to be emptied (R153), carries in progress (frame, tread)
with the cells offered and not yet placed. -/
structure Hall where
  queue : List (Nat × Cell)
  alcove : List (Nat × Cell)
  ovf : List (Nat × Cell)
  index : List (Nat × Word)
  slots : List (Nat × Slot)
  emptying : Option Nat
  carries : List (Nat × Nat)
  deriving DecidableEq, Repr

/-! ### Gallery (R479 to R509) -/

/-- A Gallery packet (R492): the fields of its head slot, its data bytes, and the port it travels towards while it is
turned (R500). -/
structure Pkt where
  opc : Nat
  vc : Nat
  turned : Option Nat
  kind : Nat
  dst : Nat
  src : Nat
  dom : Nat
  tag : Nat
  status : Nat
  addr : Nat
  len : Nat
  arg : Nat
  data : List Nat
  deriving DecidableEq, Repr

/-- A Gallery port: when it entered its state; lanes that locked; the SEQ sent next, the retry buffer (SEQ, bytes 0x10 to
0xF2 of the flit) and flits to replay; the last SEQ accepted, whether a flit with a bad CRC has come since, since when a
NAK stands, and whether one is due; the sender's credits and the CRED values last seen, by channel; slots received and
freed since EXCHANGE; slots of the packet being received, with its channel; packets received and waiting, and to be sent;
slots still to be sent of the packet begun; and the CRC failures of the present millisecond with its start. -/
structure GPort where
  since : Nat
  lanes : Nat
  txSeq : Nat
  retry : List (Nat × List Nat)
  replay : List (Nat × List Nat)
  rxSeq : Nat
  bad : Bool
  nakAt : Option Nat
  nakDue : Bool
  credits : List Nat
  seen : List Nat
  got : List Nat
  freed : List Nat
  asm : List (List Nat)
  rxQ : List Pkt
  txQ : List Pkt
  cur : List (List Nat)
  crcFails : Nat
  crcFrom : Nat
  deriving DecidableEq, Repr

/-- What an outstanding Gallery request belongs to (R496): a thread's load or atomic, its store or ARRIVE with the PC, a
unit's read of a block for a tensor instruction (slot, number, address) or its write, a contribution to a table, a row-cache fetch of a
cluster (table, line address), or an access of the host. -/
inductive TagFor where
  | load (slot ctx : Nat)
  | store (slot ctx pc : Nat)
  | unitRead (slot id addr : Nat)
  | unitWrite (slot id : Nat)
  | contrib (table : Nat)
  | line (cl table addr : Nat)
  | host (write : Bool) (len : Nat)
  deriving DecidableEq, Repr

/-- An outstanding request: what it belongs to, when it was sent, its target and bytes. -/
structure GTag where
  owner : TagFor
  start : Nat
  addr : Nat
  len : Nat
  deriving DecidableEq, Repr

/-- The Gallery of the package: its ports, outstanding requests by tag, packets delivered here and not yet served, and the
queue of messages (source node, 64 bytes). -/
structure Gallery where
  ports : List (Nat × GPort)
  tags : List (Nat × GTag)
  local_ : List Pkt
  msgs : List (Nat × List Nat)
  deriving DecidableEq, Repr

/-! ### Embedding units (R339 to R361) -/

/-- A line of a row cache: TABLE_ID, global address, use counter, 64 bytes. -/
structure RcLine where
  table : Nat
  addr : Nat
  use : Nat
  data : List Nat
  deriving DecidableEq, Repr

/-- A request joined to a fetch: the gather's slot and number, and where its line goes. -/
structure Join where
  slot : Nat
  id : Nat
  dst : Nat
  deriving DecidableEq, Repr

/-- A miss table entry (R351): the line, the domain that asked first, whether it may be cached, when it was looked up, the
requests joined, and what another node has answered (status, bytes). -/
structure Miss where
  table : Nat
  addr : Nat
  domain : Nat
  cached : Bool
  since : Nat
  joins : List Join
  back : Option (Nat × List Nat)
  deriving DecidableEq, Repr

/-- A line of gradient sums (R355, R356): the table, home node, slot and line of the row, ROW_LINES, the global address of
the table line, PEND_BASE, PEND_CAP, the domain of the update, and the FP32 sums. -/
structure GradLine where
  table : Nat
  node : Nat
  slot : Nat
  line : Nat
  rowLines : Nat
  addr : Nat
  pendBase : Nat
  pendCap : Nat
  domain : Nat
  sums : List Nat
  deriving DecidableEq, Repr

/-- An entry of a pending area (R356) that a cluster handles: its place in the area, and the sums. -/
structure PendEntry where
  place : Nat
  line : GradLine
  deriving DecidableEq, Repr

/-- The embedding unit of a cluster: the row cache by set × 16 + way, the admission filter by row × 4096 + column, the
accesses counted, the miss table, the update buffer from the least recently touched line, the pending entries, and the
update lines discarded and not yet counted by a flush (UPD_ECC). -/
structure EmbUnit where
  cache : List (Nat × RcLine)
  filter : List (Nat × Nat)
  accesses : Nat
  misses : List Miss
  upd : List GradLine
  pend : List PendEntry
  lost : List (Nat × Nat)
  deriving DecidableEq, Repr

/-- The contributions of a table sent from the package (R357): not yet answered, and sent and dropped since the last
flush. -/
structure EmbFlow where
  out : Nat
  sent : Nat
  dropped : Nat
  deriving DecidableEq, Repr

/-! ### Rulebooks and the distance engine (R176 to R209) -/

/-- A rulebook of a frame (R182, R194): its identity, RB_ID, caps, the frame's TREADS code and REF set, the offsets of its
areas on each die in the frame's slot area with their size, notification targets (logical core, counter), segments in the
order they became ready, those built, how many of the order have been notified, the heap bytes used on each die, and the
dies whose part has been abandoned (R200, R552). -/
structure Rb where
  frame : Nat
  id : Nat
  kind : Nat
  shape : Nat
  stride : Nat
  dil : Nat
  reach : Nat
  inGrid : Nat
  outGrid : Nat
  pairCap : Nat
  code : Nat
  off : List Nat
  size : Nat
  targets : List (Nat × Nat)
  order : List Nat
  built : List Nat
  told : Nat
  heap : List Nat
  gone : List Nat
  deriving DecidableEq, Repr

/-- A derived grid (R176, R198): the frame, its number and SCALE, GRID_CAP, the rulebook that creates it, and its areas. -/
structure Grid where
  frame : Nat
  id : Nat
  scale : Nat
  cap : Nat
  rb : Nat
  off : List Nat
  size : Nat
  deriving DecidableEq, Repr

/-- The rulebook builders of both dies: rulebooks, derived grids, and the ready segments of each die (frame, RB_ID,
segment) in order. -/
structure Builder where
  rbs : List Rb
  grids : List Grid
  ready : List (Nat × List (Nat × (Nat × Nat)))
  deriving DecidableEq, Repr

/-- A request waiting at a die's distance engine: the slot and number of its instruction. -/
structure NbrReq where
  die : Nat
  slot : Nat
  id : Nat
  deriving DecidableEq, Repr

/-! ### Engine groups (R214 to R248) -/

/-- The held stationary set (R238): its number, stationarity, format, W_KIND, the bytes of W in WS with its index array in
W24, and of X by engine in IS. -/
structure Held where
  set : Nat
  stat : Nat
  fmt : Nat
  kind : Nat
  w : List Nat
  idx : List Nat
  xs : List (Nat × List Nat)
  deriving DecidableEq, Repr

/-- The next pass of a group (R228): its instruction's number, its place in the queue, its estimate (R519), whether it has
asked the ledger and been admitted (R521), whether it is a reissue, and whether staging found a corrected word. -/
structure NextPass where
  id : Nat
  order : Nat
  est : Nat
  asked : Bool
  admitted : Bool
  again : Bool
  corrected : Bool
  deriving DecidableEq, Repr

/-- A pass in flight (R245): its instruction, context and PASS_SEQ, T, the K-steps L and the cycle of its retirement,
stationarity, mode, accumulator kind, CHAIN_NEXT, the bytes it will have written by its retirement, the held set it uses,
STAT_LAST, the number of the set it made when it carries NEW_STAT, the engines, its estimate, by engine the cycles that count
in ENG_ACTIVE and the gated products, what it adds to the counters of page B10, and the held set and
the number of sets before its issue. -/
structure Flight where
  id : Nat
  ctx : Nat
  seq : Nat
  t : Nat
  l : Nat
  till : Nat
  stat : Nat
  mode : Nat
  fp : Bool
  chain : Bool
  writes : List (Nat × Nat)
  uses : Option Nat
  statLast : Bool
  makes : Option Nat
  engines : Nat
  est : Nat
  active : List (Nat × Nat)
  zeros : List (Nat × Nat)
  adds : List (Nat × Nat)
  before : Option Held
  setsBefore : Nat
  deriving DecidableEq, Repr

/-- An open chain (R234): its context, ENGINES, the passes so far, the accumulators by engine, and the cycle of the last
pass's last K-step. -/
structure Chain where
  ctx : Nat
  engines : Nat
  ids : List Nat
  accs : List (Nat × List Nat)
  last : Nat
  deriving DecidableEq, Repr

/-- What the timing rules of the moving front need of the pass before (R237). -/
structure PrevPass where
  t : Nat
  l : Nat
  stat : Nat
  mode : Nat
  fp : Bool
  drains : Bool
  deriving DecidableEq, Repr

/-- An engine group: the next pass, passes in flight in order of issue, the held set and the number of the next one, the
open chain, passes to be issued again in order, the pass before, PASS_SEQ by instruction, instructions that have already
met a datapath parity error, the cycle up to which GRP_BUSY has counted, and by engine the cycles at or after the end of the
last pass's K-steps in which ENG_ACTIVE has counted. -/
structure Group where
  next : Option NextPass
  flight : List Flight
  held : Option Held
  sets : Nat
  chain : Option Chain
  again : List Nat
  prev : Option PrevPass
  seqs : List (Nat × Nat)
  struck : List Nat
  busyTo : Nat
  activeTo : List (Nat × List Nat)
  deriving DecidableEq, Repr

/-- The faults a command can end in. -/
inductive Fault where
  /-- Never raised by a meaning: every error of the spec is an effect on State. Safe. -/
  | none
  deriving DecidableEq, Repr

/-- The refusals a command can end in. -/
inductive Refusal where
  /-- Raised by `exec`'s arm of a command that has no meaning yet. Safe: no next state is claimed. -/
  | notModelled (mnemonic : String)
  deriving DecidableEq, Repr

/-- The state of the block. -/
structure State where
  /-- the commands waiting, first in, first out -/
  pending : List Instr
  /-- nanoseconds since the L0 release, the clock of every timer (2 per TCLK cycle) -/
  now : Nat
  /-- the model's own counter, which picks the next free value (Config) -/
  free : Nat
  /-- the answer of the last access or command -/
  ans : Answer
  /-- the fuses -/
  fuse : Fuses
  /-- the register pages -/
  reg : RegFile
  /-- the reset controller -/
  rst : ResetState
  /-- the boot ROM -/
  boot : BootState
  /-- the event history -/
  hist : History
  /-- error bookkeeping -/
  err : ErrState
  /-- the MSI-X table -/
  msix : Msix
  /-- the energy ledger -/
  led : Ledger
  /-- SUPPLY_WARN_N -/
  sup : Supply
  /-- the monitors -/
  mon : Monitors
  /-- identity and quotes -/
  att : Attest
  /-- the JTAG port -/
  jtag : Jtag
  /-- the bytes of DRAM, scratchpads and stores -/
  mem : List Host.Cell
  /-- host memory by PCI Express address -/
  hostMem : List Host.Cell
  /-- the time base -/
  tb : TimeBase
  /-- the stair schedule -/
  stair : Stair
  /-- the trigger outputs -/
  trig : List (Nat × Trigger)
  /-- the capture inputs -/
  cap : List (Nat × Capture)
  /-- the ring bypass -/
  byp : Bypass
  /-- the sensor ports -/
  ports : Ports
  /-- thread contexts by slot × 2048 + context, FREE ones unlisted -/
  ctx : List (Nat × Ctx)
  /-- scoreboards, queues and instruction caches by slot -/
  core : List (Nat × CoreState)
  /-- stored words with bit errors, by local address of the 8-byte word: 1 correctable, 2 not -/
  ecc : List (Nat × Nat)
  /-- the Point Fronts by die -/
  front : List (Nat × Front)
  /-- the Voxel Halls by die -/
  hall : List (Nat × Hall)
  /-- the Gallery -/
  gal : Gallery
  /-- the embedding units by die × 4 + cluster -/
  emb : List (Nat × EmbUnit)
  /-- contributions in flight by TABLE_ID -/
  flow : List (Nat × EmbFlow)
  /-- the rulebook builders -/
  bld : Builder
  /-- requests at the distance engines, in order of acceptance -/
  nbr : List NbrReq
  /-- engine groups by slot -/
  grp : List (Nat × Group)
  /-- the scrubber of each bank by slot × 16 + bank: the next row of the bank, and when it was last granted a cycle -/
  scrub : List (Nat × (Nat × Nat))
  /-- the patrol of each logical channel by die × 16 + channel: the next 32-byte burst of the channel -/
  patrol : List (Nat × Nat)
  /-- the mailbox slots (page, slot) of the scan in progress, in their order -/
  mbx : List (Nat × Nat)
  deriving DecidableEq, Repr

/-- The fuses of a part as shipped (R553, R577, R584, R729): no slot fused off, an AV part, default reaches. Values that
the spec does not give are named in the assumption log. -/
def Fuses.shipped : Fuses where
  siliconRev := 0
  grade := 1
  fusedOff := []
  words := []
  secret := []
  reach0 := 0xE96D88
  reach1 := 0x181
  failLimit := 3
  rollbackMin := 0
  keyRevoked := 0
  keyPresent := 0xF
  trigIdle := 0
  mac := []
  engBypass := []
  bankOut := []
  sparedCh := []
  corrSpared := []
  guardMvPerPs := 0
  guardPs := 0
  vfMv := []
  smbOffset := 0

/-- The reset controller right after the release of L0: every pin high, no source, no clock yet reported good. -/
def ResetState.start : ResetState where
  blocks := []
  sources := []
  held := []
  clkGood := []
  porN := true
  resetN := true
  perstN := true
  trstN := true
  bootselPin := 0
  startCode := 0
  lowRails := []
  aonPresent := true

/-- The time base at L0: device time zero, no master heard. -/
def TimeBase.start : TimeBase where
  dev := 0
  adjs := []
  integral := 0
  inLock := 0
  lastSample := none
  armed := none
  lastPps := none
  heard := []
  master := none
  twoStep := none
  lastSync := none
  delayReq := []
  pathDelay := none
  pdelay := []
  resid := []
  heldFu := []
  reqSeq := 0
  reqAt := none
  sent := []
  ppsSec := 0
  ppsUntil := 0
  angleHold := none

/-- The stair schedule after a reset: not running, angle zero. -/
def Stair.start : Stair where
  angle := 0
  rem := 0
  rate := none
  revFrom := none
  sample := none
  sampleAt := none
  agreed := 0
  encA := false
  encB := false
  encRem := 0
  encBack := 0
  encAngle := 0
  frame := none
  nextCut := 0
  cutAhead := false
  first := none
  ahead := none
  closing := []
  prevClose := []
  landUntil := 0

/-- The block right after reset: the L0 episode has been released and the start begins (R565). -/
def State.reset : State where
  pending := []
  now := 0
  free := 0
  ans := .none
  fuse := Fuses.shipped
  reg := ⟨[(0x7FD064, 1#32)], [], [], []⟩
  rst := ResetState.start
  boot := ⟨some 0, 0, true, false, false, [], none, [], [], 0⟩
  hist := ⟨[], 0, []⟩
  err := ⟨[], [], [], [], [], [], [], false, 0⟩
  msix := ⟨BitVec.allOnes 64, 0#64, 0#64, [], []⟩
  led := ⟨0, 0, [], none, 0, 0, false, false, 0, [], []⟩
  sup := ⟨false, none, false, false, none⟩
  mon := ⟨[], false, none, [], 0, false⟩
  att := ⟨[], none, []⟩
  jtag := ⟨0x02#8, [], false, 0#32, false, false, 0⟩
  mem := []
  hostMem := []
  tb := TimeBase.start
  stair := Stair.start
  trig := []
  cap := []
  byp := ⟨false, [], none⟩
  ports := ⟨[], [], [], [], [], 0, []⟩
  ctx := []
  core := []
  ecc := []
  front := []
  hall := []
  gal := ⟨[], [], [], []⟩
  emb := []
  flow := []
  bld := ⟨[], [], []⟩
  nbr := []
  grp := []
  scrub := []
  patrol := []
  mbx := []

end Sys2Proof.Machine
end

