-- ==== Sys2Proof/Machine/Regs.lean ====
section
/-!
DEFINITION. Register pages: addresses (R657, R678), reset values, reading and writing a field, the effective set of RWS
fields (R10, R11), interrupts and violation counts of a page, and the numbering of dies, clusters and slots.
-/

namespace Sys2Proof.Machine

/-! ### Units and pages -/

/-- The die of a physical slot. -/
def slotDie (n : Nat) : Nat := n / 20
/-- The cluster slot of a physical slot. -/
def slotCluster (n : Nat) : Nat := n % 20 / 5
/-- The core slot k of a physical slot. -/
def slotK (n : Nat) : Nat := n % 5
/-- The physical slot dD.cC.kK. -/
def slotOf (d c k : Nat) : Nat := d * 20 + c * 5 + k

/-- The BAR0 offset of a page (R657); a package-common page at D = 0, since both die bits reach one copy (R26). -/
def pageBase : Page → Nat
  | .pkg b => 0x7F0000 + b * 0x1000
  | .die d b => d * 0x800000 + 0x6F0000 + b * 0x1000
  | .cl d c b => d * 0x800000 + c * 0x100000 + 0xF0000 + b * 0x1000
  | .core n b => slotDie n * 0x800000 + slotCluster n * 0x100000 + slotK n * 0x10000 + b * 0x1000

/-- The page that a BAR0 offset lies in (R657, R678); none when unmapped. -/
def pageAt (a : Nat) : Option Page :=
  let d := bits a 23 1; let c := bits a 20 3; let k := bits a 16 4; let b := bits a 12 4
  if c = 7 then (if k = 15 ∧ b < 14 then some (.pkg b) else none)
  else if c = 6 then (if k = 15 ∧ b < 11 then some (.die d b) else none)
  else if c < 4 then
    if k = 15 then (if b < 4 then some (.cl d c b) else none)
    else if k < 5 ∧ b < 13 then some (.core (slotOf d c k) b) else none
  else none

/-- The table of a page's own registers. -/
def ownRows : Page → List RegRow
  | .pkg b => [rowsPB0, rowsPB1, rowsPB2, rowsPB3, rowsPB4, rowsPB5, rowsPB6, rowsPB7, rowsPB8, rowsPB9, rowsPB10,
      rowsPB11, rowsPB12, rowsPB13].getD b []
  | .die _ b => [rowsDB0, rowsDB1, rowsDB2, rowsDB3, rowsDB4, rowsDB5, rowsDB6, rowsDB7, rowsDB8, rowsDB9,
      rowsDB10].getD b []
  | .cl _ _ b => [rowsCB0, rowsCB1, rowsCB2, rowsCB3].getD b []
  | .core _ b => [rowsKB0, rowsKB1, rowsKB2, rowsKB3, rowsKB4, rowsKB4, rowsKB4, rowsKB4, rowsKB8, rowsKB9, rowsKB10,
      rowsKB11, rowsKB12].getD b []

/-- The group number of a page (R628). -/
def pageGroup : Page → Nat
  | .pkg b => b
  | .die _ b => 16 + b
  | .cl _ _ b => 32 + b
  | .core _ b => 48 + b

/-- INSTANCE of a page (R676): the scope layout of R555, unused fields zero. -/
def pageInstance : Page → Nat
  | .pkg _ => 0
  | .die d _ => d * 128
  | .cl d c _ => d * 128 + c * 16
  | .core n _ => slotDie n * 128 + slotCluster n * 16 + slotK n

/-- R677: the pages whose QUIESCE_REQ stops new work. -/
def pageQuiesces : Page → Bool
  | .core _ b => b = 1 || b = 3 || b = 9 || b = 10
  | .cl _ _ b => b = 2
  | .die _ b => b = 1 || b = 3 || b = 4
  | .pkg b => b = 8

/-- R587: the detectors that report on a page. -/
def pageDetectors : Page → List Nat
  | .core _ 8 => [0x01, 0x02, 0x03, 0x04, 0x05]
  | .core _ 3 => [0x06, 0x08]
  | .core _ 4 => [0x07]
  | .core _ 5 => [0x07]
  | .core _ 6 => [0x07]
  | .core _ 7 => [0x07]
  | .core _ 12 => [0x09, 0x0A, 0x0B]
  | .core _ _ => []
  | .cl _ _ 3 => [0x10, 0x11, 0x12, 0x13]
  | .cl _ _ _ => []
  | .die _ 5 => [0x20, 0x21, 0x22, 0x23, 0x24, 0x25, 0x26]
  | .die _ 6 => [0x27, 0x28]
  | .die _ 2 => [0x29, 0x2A]
  | .die _ 8 => [0x2B, 0x2C]
  | .die _ 9 => [0x2D]
  | .die _ _ => []
  | .pkg 12 => [0x30]
  | .pkg 1 => [0x31, 0x32]
  | .pkg 0 => [0x33]
  | .pkg 8 => [0x34, 0x35, 0x36]
  | .pkg 7 => [0x37, 0x38]
  | .pkg 10 => [0x39]
  | .pkg 13 => [0x3A]
  | .pkg _ => []

/-! ### Register tables -/

/-- Whether a row's register lies at page offset `off`. -/
def rowHits (r : RegRow) (off : Nat) : Bool :=
  if off < r.fld.off then false
  else
    let d := off - r.fld.off
    let i := if r.n1 = 1 then 0 else d / r.s1
    let rest := if r.n1 = 1 then d else d % r.s1
    let j := if r.n2 = 1 then 0 else rest / r.s2
    let rest2 := if r.n2 = 1 then rest else rest % r.s2
    decide (i < r.n1) && decide (j < r.n2) && rest2 = 0

/-- Whether a field of `r` begins at a bit that a row of `acc` already begins at. -/
def rowShadowed (acc : List RegRow) (r : RegRow) : Bool := acc.any (fun q => q.fld.lo = r.fld.lo)

/-- The fields of the register at offset `off` of a page; where two rows give one field the first one governs. -/
def rowsAt (p : Page) (off : Nat) : List RegRow :=
  ((if off < 0x40 then rowsHDR else ownRows p).filter (rowHits · off)).foldl
    (fun acc r => if rowShadowed acc r then acc else acc ++ [r]) []

/-- Whether a page has RWS fields. -/
def pageShadows (p : Page) : Bool := (ownRows p).any (fun r => r.acc = .rws)

/-- The value of a *fuse* field of a page at offset `off` (R31, R83, R94, R523, R528, R553, R577, R584, R679, R729). -/
def fuseField (f : Fuses) (p : Page) (off lo : Nat) : Nat :=
  match p with
  | .pkg 0 => if off = 0x40 then (if lo = 16 then f.siliconRev else f.grade) else 0
  | .pkg 1 => if off = 0x50 then f.reach0 else if off = 0x54 then f.reach1 else 0
  | .pkg 4 => SMap.getD f.mac off 0
  | .pkg 5 => if off ≥ 0x100 ∧ off < 0x200 then bits f.trigIdle ((off - 0x100) / 0x20) 1 else 0
  | .pkg 6 => if f.grade = 2 then 0x0AF0 else 0x0780
  | .pkg 12 =>
    if off = 0x58 then (if lo = 16 then f.guardMvPerPs else f.guardPs)
    else if lo = 8 then (if f.grade = 2 then 110 else 130) else (if f.grade = 2 then 95 else 115)
  | .pkg 13 =>
    if off = 0x40 then f.failLimit
    else if off = 0x48 then f.rollbackMin
    else if lo = 4 then f.keyRevoked else f.keyPresent
  | .die d 0 => if d < 2 then f.siliconRev else 0
  | .die d 5 => SMap.getD f.sparedCh d 0x1F
  | .die d 6 => (SMap.getD f.corrSpared (d * 2 + b2n (off = 0x44)) 0#32).toNat
  | .cl d c 0 =>
    -- R729: positions hold the slots not FUSED_OFF in ascending order; the fifth is the spare
    let good := (List.range 5).filter (fun k => !(f.fusedOff.contains (slotOf d c k)))
    if off = 0x44 then good.getD (lo / 4) 7 else 0
  | .core n 4 => bits (SMap.getD f.engBypass (n * 4) 0x2020) lo 6
  | .core n 5 => bits (SMap.getD f.engBypass (n * 4 + 1) 0x2020) lo 6
  | .core n 6 => bits (SMap.getD f.engBypass (n * 4 + 2) 0x2020) lo 6
  | .core n 7 => bits (SMap.getD f.engBypass (n * 4 + 3) 0x2020) lo 6
  | .core n 8 => SMap.getD f.bankOut n 16
  | _ => 0

/-- The value of a *hardwired* field (R676, R679 and the cluster map table). -/
def wiredField (p : Page) (off lo : Nat) : Nat :=
  if off = 0 then (if lo = 24 then pageGroup p else pageInstance p)
  else if off = 4 then
    (if lo = 0 then b2n (pageQuiesces p) else if lo = 1 then b2n (pageShadows p)
     else if lo = 2 then b2n (pageDetectors p ≠ []) else b2n (pageBase p / 0x10000 % 0x80 = 0x7F))
  else match p with
    | .cl d c _ => if lo = 8 then d else if lo = 4 then c else d * 4 + c
    | .core _ _ => pageInstance p
    | .die d _ => d
    | _ => 0

/-! ### Words and fields -/

/-- The value that one field takes at reset. Fields that firmware, pins or the always-on domain give are 0 until then; a
template field takes what a die's template holds at its own reset (R636, R649). -/
def resetField (f : Fuses) (p : Page) (off : Nat) (r : RegRow) : Nat :=
  match r.rst with
  | .val n => n
  | .fuse => fuseField f p off r.fld.lo
  | .hardwired => wiredField p off r.fld.lo
  | .firmware => 0
  | .pin => 0
  | .alwaysOn => 0
  | .template => if off = 0x58 then 0xFFFFFFFF else if off = 0x5C then 0x8000013F else 0

/-- The word of a register at reset. -/
def resetWord (f : Fuses) (p : Page) (off : Nat) : Nat :=
  (rowsAt p off).foldl (fun acc r => acc + bits (resetField f p off r) 0 r.fld.w * 2 ^ r.fld.lo) 0

/-- The word a register holds: what was written since reset, else its reset value. For RWS fields, the shadow. -/
def rawWord (s : State) (p : Page) (off : Nat) : Nat :=
  match SMap.find s.reg.regs (pageBase p + off) with
  | some w => w.toNat
  | none => resetWord s.fuse p off

/-- The word in effect: for RWS fields, the set last put into effect (R11). -/
def effWord (s : State) (p : Page) (off : Nat) : Nat :=
  match SMap.find s.reg.eff (pageBase p + off) with
  | some w => w.toNat
  | none => resetWord s.fuse p off

/-- Hold a word in a register. -/
def putWord (s : State) (p : Page) (off v : Nat) : State :=
  { s with reg.regs := SMap.put s.reg.regs (pageBase p + off) (BitVec.ofNat 32 v) }

/-- Read a field. -/
def fget (s : State) (p : Page) (f : Fld) : Nat := bits (rawWord s p f.off) f.lo f.w

/-- Read a field of the set in effect. -/
def eget (s : State) (p : Page) (f : Fld) : Nat := bits (effWord s p f.off) f.lo f.w

/-- Read a one-bit field. -/
def fbit (s : State) (p : Page) (f : Fld) : Bool := fget s p f = 1

/-- R677: a page's block has been asked to take no new work. -/
def quiescing (s : State) (p : Page) : Bool := pageQuiesces p && fbit s p HDR.PAGE_CTRL_QUIESCE_REQ

/-- Read a one-bit field of the set in effect. -/
def ebit (s : State) (p : Page) (f : Fld) : Bool := eget s p f = 1

/-- Hold `v` in a field. -/
def fset (s : State) (p : Page) (f : Fld) (v : Nat) : State :=
  putWord s p f.off (setBits (rawWord s p f.off) f.lo f.w v)

/-- Set or clear a one-bit field. -/
def fsetb (s : State) (p : Page) (f : Fld) (b : Bool) : State := fset s p f (b2n b)

/-- Add `k` to a counter, modulo its width. -/
def fadd (s : State) (p : Page) (f : Fld) (k : Nat) : State := fset s p f (fget s p f + k)

/-- Count one event. -/
def finc (s : State) (p : Page) (f : Fld) : State := fadd s p f 1

/-- Add to a 64-bit LO/HI counter pair (R9). -/
def fadd64 (s : State) (p : Page) (lo hi : Fld) (k : Nat) : State :=
  let v := fget s p lo + fget s p hi * 2 ^ 32 + k
  fset (fset s p lo (v % 2 ^ 32)) p hi (v / 2 ^ 32)

/-- Latch event bit `b` of a page's INT_RAW (R676). -/
def raiseInt (s : State) (p : Page) (b : Nat) : State :=
  putWord s p 0x14 (setBits (rawWord s p 0x14) b 1 1)

/-- INT_STAT of a page: INT_RAW and INT_EN (R676). -/
def intStat (s : State) (p : Page) : Nat := Nat.land (rawWord s p 0x14) (rawWord s p 0x18)

/-- Count a refused access or command of a page (R676). -/
def viol (s : State) (p : Page) : State := finc s p HDR.VIOL_COUNT

/-- Commit pending on a page (R11). -/
def commitPending (s : State) (p : Page) : Bool := (SMap.find s.reg.captured (pageBase p)).isSome

/-- The free value counter advances by one; the counter's old value names the value. -/
def tickFree (s : State) : State := { s with free := s.free + 1 }

/-! ### Logical cores -/

/-- SLOT_FENCE bit of a slot (R616). -/
def slotFenced (s : State) (n : Nat) : Bool :=
  bit (fget s (.cl (slotDie n) (slotCluster n) 3) CB3.SLOT_FENCE) (slotK n)

/-- The physical slot that the CORE_MAP in effect names in a committed position; 7 marks it vacant (R18, R21). -/
def mapField (s : State) (d c i : Nat) : Nat :=
  let f : Fld := [CB0.CORE_MAP_SLOT_L0, CB0.CORE_MAP_SLOT_L1, CB0.CORE_MAP_SLOT_L2, CB0.CORE_MAP_SLOT_L3,
    CB0.CORE_MAP_SPARE_SLOT].getD i CB0.CORE_MAP_SLOT_L0
  eget s (.cl d c 0) f

/-- The physical slot that holds logical core `n` (R18). -/
def logicalSlot (s : State) (n : Nat) : Option Nat :=
  let d := bits n 4 1; let c := bits n 2 2
  let k := mapField s d c (bits n 0 2)
  if k < 5 then some (slotOf d c k) else none

/-- The logical core that a slot holds under the CORE_MAP in effect. -/
def slotLogical (s : State) (n : Nat) : Option Nat :=
  let d := slotDie n; let c := slotCluster n
  ((List.range 4).find? (fun i => mapField s d c i = slotK n)).map (fun i => d * 16 + c * 4 + i)

/-- SLOT_STATE of a slot (R729): 0 COMMITTED, 1 SPARE, 2 FENCED, 3 FUSED_OFF. A slot that no rule names (CORE_MAP holds
it nowhere and it is not fenced) reads COMMITTED, the field's zero. -/
def slotState (s : State) (n : Nat) : Nat :=
  if s.fuse.fusedOff.contains n then 3
  else if slotFenced s n then 2
  else if (slotLogical s n).isSome then 0
  else if mapField s (slotDie n) (slotCluster n) 4 = slotK n then 1
  else 0

/-! ### Blocks and reset state -/

/-- The key of a block. -/
def blockKey : Block → Nat
  | .pkg => 0
  | .pcie => 1
  | .tap => 2
  | .die d => 4 + d
  | .point d => 6 + d
  | .cc d => 8 + d
  | .cluster d c => 16 + d * 4 + c
  | .core n => 32 + n
  | .eng n => 128 + n

/-- The block that a page belongs to. -/
def pageBlock : Page → Block
  | .pkg 7 => .pcie
  | .pkg _ => .pkg
  | .die d b => if b = 9 then .cc d else if 1 ≤ b ∧ b ≤ 4 then .point d else .die d
  | .cl d c _ => .cluster d c
  | .core n b => if 3 ≤ b ∧ b ≤ 7 then .eng n else .core n

/-- A block's reset state; a block never touched is in service. -/
def blockState (s : State) (b : Block) : BlockState :=
  SMap.getD s.rst.blocks (blockKey b) ⟨false, false, 0, 0, false, 0⟩

/-- Hold a block's reset state. -/
def setBlock (s : State) (b : Block) (st : BlockState) : State :=
  { s with rst.blocks := SMap.put s.rst.blocks (blockKey b) st }

/-- The block is in a reset episode. -/
def inReset (s : State) (b : Block) : Bool := (blockState s b).inReset

/-- R560: the block is out of service: in a reset episode, or held fenced by SLOT_FENCE. -/
def outOfService (s : State) (b : Block) : Bool :=
  inReset s b ||
    (match b with
     | .core n => slotFenced s n
     | .eng n => slotFenced s n || inReset s (.core n)
     | _ => false)

/-- R700: the pages that recovery mode holds in reset. -/
def recoveryHolds (s : State) (p : Page) : Bool :=
  fbit s (.pkg 13) PB13.BOOT_STATUS_RECOVERY &&
    (match p with
     | .pkg b => !([0, 1, 7, 9, 10, 13].contains b)
     | .die d b => !(d = 0 && b = 9)
     | _ => true)

/-- The pages of a block. -/
def blockPages : Block → List Page
  | .pkg => ([0, 1, 2, 3, 4, 5, 6, 8, 9, 10, 11, 12, 13].map Page.pkg)
  | .pcie => [.pkg 7]
  | .tap => []
  | .die d => ([0, 5, 6, 7, 8, 10].map (Page.die d))
  | .point d => ([1, 2, 3, 4].map (Page.die d))
  | .cc d => [.die d 9]
  | .cluster d c => ((List.range 4).map (Page.cl d c))
  | .core n => ([0, 1, 2, 8, 9, 10, 11, 12].map (Page.core n))
  | .eng n => ([3, 4, 5, 6, 7].map (Page.core n))

end Sys2Proof.Machine
end

