-- ==== Sys2Proof/Machine/Ops.lean ====
section
/-!
DEFINITION. The shared operations: bytes of memory, event history records (R596 to R599), detector reports (R590 to
R595), interrupt vectors (R665, R666), and the outcome of a command.
-/

namespace Sys2Proof.Machine

/-! ### Bytes -/

/-- The byte of the part's memory at local address `a`; an unlisted byte reads zero. -/
def rdByte (s : State) (a : Nat) : Nat := (SMap.getD s.mem a 0#8).toNat

/-- Write the byte at local address `a`. -/
def wrByte (s : State) (a v : Nat) : State := { s with mem := SMap.setD s.mem a (BitVec.ofNat 8 v) 0#8 }

/-- `n` bytes from `a` up. -/
def rdBytes (s : State) (a : Nat) : Nat → List Nat
  | 0 => []
  | n + 1 => rdByte s a :: rdBytes s (a + 1) n

/-- Write bytes from `a` up. -/
def wrBytes (s : State) (a : Nat) : List Nat → State
  | [] => s
  | b :: bs => wrBytes (wrByte s a b) (a + 1) bs

/-- The little-endian number of `n` bytes at `a`. -/
def rdN (s : State) (a n : Nat) : Nat := leNat (rdBytes s a n)

/-- Write `v` as `n` little-endian bytes at `a`. -/
def wrN (s : State) (a n v : Nat) : State := wrBytes s a (toLe n v)

/-- The byte of host memory at a PCI Express address. -/
def rdHost (s : State) (a : Nat) : Nat := (SMap.getD s.hostMem a 0#8).toNat

/-- Write a byte of host memory. -/
def wrHost (s : State) (a v : Nat) : State := { s with hostMem := SMap.setD s.hostMem a (BitVec.ofNat 8 v) 0#8 }

/-- Write bytes of host memory from `a` up. -/
def wrHostBytes (s : State) (a : Nat) : List Nat → State
  | [] => s
  | b :: bs => wrHostBytes (wrHost s a b) (a + 1) bs

/-- `n` bytes of host memory from `a` up. -/
def rdHostBytes (s : State) (a : Nat) : Nat → List Nat
  | 0 => []
  | n + 1 => rdHost s a :: rdHostBytes s (a + 1) n

/-! ### Device time (R42, R43): held in units of 2^-32 ns -/

/-- One second in device-time units. -/
def oneSec : Nat := 1000000000 * 2 ^ 32

/-- The 48-bit seconds. -/
def devSec (t : Nat) : Nat := t / oneSec % 2 ^ 48

/-- The nanoseconds within the second. -/
def devNs (t : Nat) : Nat := t % oneSec / 2 ^ 32

/-- The 16-bit fraction of a nanosecond. -/
def devFrac (t : Nat) : Nat := t % 2 ^ 32 / 2 ^ 16

/-- Device time as whole nanoseconds. -/
def devWholeNs (t : Nat) : Nat := t / 2 ^ 32

/-! ### Event history -/

/-- A record of the present moment (R596); FLAGS.TIME_FREE says that the discipline state is not LOCKED. -/
def mkRecord (s : State) (kind flags source a0 a1 a2 : Nat) : Record where
  ns := devNs s.tb.dev
  sec := devSec s.tb.dev
  kind := kind
  flags := flags + 2 * b2n (fget s (.pkg 2) PB2.TIME_STATUS_STATE ≠ 2)
  source := source
  arg0 := a0 % 2 ^ 32
  arg1 := a1 % 2 ^ 32
  arg2 := a2 % 2 ^ 32

/-- Offer a record to the history's queue of 64; one that finds it full is dropped and counted (R598). -/
def pushRecord (s : State) (r : Record) : State :=
  if s.hist.queue.length < 64 then { s with hist.queue := s.hist.queue ++ [r] }
  else finc { s with hist.dropped := s.hist.dropped + 1 } (.pkg 10) PB10.HIST_LOST

/-- Write a record of a page: SOURCE holds the page's BAR0 offset and the code in [31:24]. -/
def record (s : State) (p : Page) (kind code a0 a1 a2 : Nat) : State :=
  pushRecord s (mkRecord s kind 0 (pageBase p + code * 2 ^ 24) a0 a1 a2)

/-- R732: a STATE record. -/
def recordState (s : State) (p : Page) (code new old : Nat) : State := record s p 0x08 code new old 0

/-! ### Errors -/

/-- Set bits of FAULT_LATCH (R595) and flag them on page B10 (R621). -/
def latchFault (s : State) (b : Nat) : State :=
  raiseInt (putWord s (.pkg 10) 0x54 (setBits (rawWord s (.pkg 10) 0x54) b 1 1)) (.pkg 10) 2

/-- The class of a detector (R587): 0 corrected, 1 deferred, 2 uncorrected, 3 persistent. -/
def detClass (d : Nat) : Nat :=
  if [0x01, 0x04, 0x06, 0x07, 0x09, 0x10, 0x12, 0x20, 0x23, 0x27, 0x29, 0x2B, 0x34, 0x37].contains d then 0
  else if [0x03, 0x22, 0x26, 0x33].contains d then 1
  else if [0x05, 0x08, 0x0B, 0x11, 0x24, 0x25, 0x28].contains d then 3
  else 2

/-- Capture an event in ERR_FIRST, or set MORE (R591). -/
def captureErr (s : State) (p : Page) (d info addr : Nat) (inj : Bool) : State :=
  if fbit s p HDR.ERR_FIRST_VALID then fsetb s p HDR.ERR_FIRST_MORE true
  else
    putWord (putWord (putWord s p 0x28
      (2 ^ 31 + b2n inj * 2 ^ 30 + detClass d * 2 ^ 27 + d % 256 * 2 ^ 16 + info % 2 ^ 16))
      p 0x2C (addr % 2 ^ 32)) p 0x30 (addr / 2 ^ 32 % 2 ^ 26)

/-- One more corrected event in the present second (R599): the first event's INFO and address stand. -/
def addRise (rs : List CorrRise) (e : CorrRise) : List CorrRise :=
  match rs with
  | [] => [e]
  | r :: rest =>
    if r.page = e.page ∧ r.det = e.det then { r with rise := r.rise + 1, injected := r.injected || e.injected } :: rest
    else r :: addRise rest e

/-- A detector event on its page (R590, R591, R595, R599, R611): counted, captured, latched for FAULT_N unless
injected, and recorded at once unless corrected. -/
def reportErr (s : State) (p : Page) (d info addr : Nat) (inj : Bool) : State :=
  let s := putWord s p 0x24 (satAdd 32 (rawWord s p 0x24) 1)
  let s := captureErr s p d info addr inj
  let cls := detClass d
  let s :=
    if inj then
      let s := raiseInt (finc s (.pkg 10) PB10.INJ_EVENTS) (.pkg 10) 3
      if cls = 0 then s else { s with err.inj := true }
    else
      let s := if bit (fget s (.pkg 10) PB10.HIST_CTRL_FAULTN_EN) cls then latchFault s 0 else s
      let s := if cls = 3 then latchFault s 1 else s
      if d = 0x33 then latchFault s 4 else s
  if cls = 0 then { s with err.rises := addRise s.err.rises ⟨pageBase p, d, 1, info, addr, inj⟩ }
  else pushRecord s (mkRecord s 0x01 (b2n inj + 4 * cls) (pageBase p + d * 2 ^ 24) info addr (addr / 2 ^ 32))

/-! ### Interrupt vectors -/

/-- The MSI-X vector that a page's INT_STAT feeds (R665). -/
def pageVector : Page → Option Nat
  | .pkg b => if b = 11 then some 0 else if b = 0 then none else if b ≤ 10 then some (b + 1) else some b
  | .die d b =>
    if b = 1 ∨ b = 2 then some (16 + 4 * d) else if b = 3 ∨ b = 4 then some (17 + 4 * d)
    else if b = 7 ∨ b = 8 then some (19 + 4 * d) else some (18 + 4 * d)
  | .cl d c _ => some (24 + 4 * d + c)
  | .core n _ => some (24 + 4 * slotDie n + slotCluster n)

/-- The mask of one vector. -/
def vecBit (v : Nat) : BitVec 64 := BitVec.ofNat 64 (2 ^ v)

/-- What one listed register word adds to the vector conditions: an INT_EN word, an ERR_FIRST word (R592), FAULT_LATCH
or HOST_IRQ_STAT. -/
def regCondition (s : State) (a : Nat) (w : Word) : BitVec 64 :=
  let off := a % 0x1000
  match pageAt a with
  | none => 0#64
  | some p =>
    if off = 0x18 then
      match pageVector p with
      | some v => if intStat s p ≠ 0 ∧ fbit s p HDR.PAGE_CTRL_EN then vecBit v else 0#64
      | none => 0#64
    else if off = 0x28 then (if bit w.toNat 31 then vecBit 1 else 0#64)
    else if p = .pkg 10 ∧ off = 0x54 then (if w ≠ 0#32 then vecBit 1 else 0#64)
    else if p = .pkg 7 ∧ off = 0x50 then BitVec.ofNat 64 (w.toNat * 2 ^ 32)
    else 0#64

/-- The conditions of the 64 vectors (R665). -/
def vectorConditions (s : State) : BitVec 64 :=
  s.reg.regs.foldl (fun acc c => acc ||| regCondition s c.1 c.2) 0#64

/-- The function is in D3hot (R653). -/
def inD3 (s : State) : Bool := fget s (.pkg 7) PB7.PCIE_STATUS_DSTATE = 3

/-- Send vector `v`, or set its pending bit while it is masked or the function is in D3hot (R653, R666). -/
def sendVector (s : State) (v : Nat) : State :=
  if s.msix.masked.getLsbD v || inD3 s then { s with msix.pend := s.msix.pend ||| vecBit v }
  else { s with msix.sent := (v, SMap.getD s.msix.entries v (0#64, 0#32)) :: s.msix.sent }

/-- R666: send every vector whose condition became true, and those of `again` whose condition a write left true; a
pending bit clears when its condition falls. -/
def settle (again : BitVec 64) (s : State) : State :=
  let c := vectorConditions s
  let send := c &&& ((s.msix.cond ^^^ BitVec.allOnes 64) ||| again)
  let s := { s with msix.cond := c, msix.pend := s.msix.pend &&& c }
  if send = 0#64 then s
  else ((List.range 64).filter (fun v => send.getLsbD v)).foldl sendVector s

/-- The outcome of a command: the next state with its interrupt vectors settled. -/
def done (s : State) : Host.Outcome State Fault Refusal := .next (settle 0#64 { s with err.inj := false })

/-! ### Reading a pointer to one package's own node -/

/-- The package's own Gallery node (R476: NODE_ID in the page B8 set in effect). -/
def ownNode (s : State) : Nat := eget s (.pkg 8) PB8.GAL_NODE_NODE_ID

end Sys2Proof.Machine
end

