-- ==== Sys2Proof/Machine/Ctx.lean ====
section
/-!
DEFINITION. Thread contexts and cores: reading and writing them, faults (R413, R434, R594), arrival counters (R393 to R396),
and the conditions of the waits (R80, R81, R379, R380).
-/

namespace Sys2Proof.Machine

/-- A FREE context. -/
def Ctx.idle : Ctx where
  st := .free
  regs := []
  pc := 0
  domain := 0
  cls := 0
  unretired := 0
  spawnCtr := none
  ir := []
  loads := []
  stores := 0
  hold := .none
  since := 0
  promoted := false
  fault := 0

/-- A core with nothing entered. -/
def CoreState.idle : CoreState := ⟨[], [], 0, 0, [], [], []⟩

/-- The key of a context. -/
def ctxKey (slot c : Nat) : Nat := slot * 2048 + c

/-- A context. -/
def ctxAt (s : State) (slot c : Nat) : Ctx := SMap.getD s.ctx (ctxKey slot c) Ctx.idle

/-- Hold a context. -/
def setCtx (s : State) (slot c : Nat) (x : Ctx) : State := { s with ctx := SMap.setD s.ctx (ctxKey slot c) x Ctx.idle }

/-- The context of a reference. -/
def cref (s : State) (t : ThreadRef) : Ctx := ctxAt s t.slot.val t.ctx.val

/-- Hold the context of a reference. -/
def setRef (s : State) (t : ThreadRef) (x : Ctx) : State := setCtx s t.slot.val t.ctx.val x

/-- A core's queues. -/
def coreAt (s : State) (slot : Nat) : CoreState := SMap.getD s.core slot CoreState.idle

/-- Hold a core's queues. -/
def setCore (s : State) (slot : Nat) (x : CoreState) : State :=
  { s with core := SMap.setD s.core slot x CoreState.idle }

/-- Read a scalar register; s0 reads as zero (R368). -/
def Ctx.rget (x : Ctx) (r : Nat) : Reg64 := if r = 0 then 0 else SMap.getD x.regs r 0

/-- Write a scalar register; a write to s0 has no effect (R368). -/
def Ctx.rset (x : Ctx) (r : Nat) (v : Reg64) : Ctx := if r = 0 then x else { x with regs := SMap.setD x.regs r v 0 }

/-- Deliver an instruction's result: loads issued earlier to the same register no longer write it (R417). -/
def Ctx.deliver (x : Ctx) (r : Nat) (v : Reg64) : Ctx :=
  { x.rset r v with loads := x.loads.map (fun l => if l.dst = r then { l with dst := 0 } else l) }

/-- The thread ID of a context (R367). -/
def threadId (s : State) (slot c : Nat) : Nat := ((slotLogical s slot).getD 0) * 2048 + c

/-! ### Faults -/

/-- A fault of a context: it becomes FAULTED at `pc`, LAST_FAULT and LAST_FAULT_PC record it, at `at_` (R413, R434). A
context already FAULTED keeps all this and a FAULT record with SECONDARY is written (R435, R594). A fault that an injected
event has caused writes a record too (R594, R611). -/
def faultCtx (s : State) (slot c code at_ pc : Nat) : State :=
  let x := ctxAt s slot c
  let p := Page.core slot 1
  match x.st with
  | .faulted =>
    let s := pushRecord s (mkRecord s 0x02 (16 + b2n s.err.inj) (pageBase p) (threadId s slot c) code (at_ % 2 ^ 32))
    { s with err.inj := false }
  | .free => s
  | _ =>
    let s := setCtx s slot c { x with st := .faulted, pc := pc, hold := .none, ir := [], promoted := false, fault := code }
    let s := finc s p KB1.TE_FAULTS
    let s := putWord s p 0x60 (code % 256 * 2 ^ 24 + c % 2048)
    let s := putWord (putWord s p 0x64 (at_ % 2 ^ 32)) p 0x68 (at_ / 2 ^ 32 % 2 ^ 26)
    let s := if s.err.inj then
        { pushRecord s (mkRecord s 0x02 1 (pageBase p) (threadId s slot c) code (at_ % 2 ^ 32)) with err.inj := false } else s
    raiseInt s p 0

/-- A precise fault at the instruction (R413). -/
def faultHere (s : State) (slot c code : Nat) : State :=
  let pc := (ctxAt s slot c).pc
  faultCtx s slot c code pc pc

/-- FAULT_TARGET_RESET. -/
def fTargetReset : Nat := 0x01
/-- FAULT_ACCESS. -/
def fAccess : Nat := 0x02
/-- FAULT_ECC_UNCORR. -/
def fEcc : Nat := 0x03
/-- FAULT_PARITY_PERSIST. -/
def fParity : Nat := 0x04
/-- FAULT_META_RANGE. -/
def fMetaRange : Nat := 0x05
/-- FAULT_PASS_ABORT. -/
def fPassAbort : Nat := 0x06
/-- FAULT_SCOREBOARD. -/
def fScoreboard : Nat := 0x07
/-- FAULT_ALIGN. -/
def fAlign : Nat := 0x08
/-- FAULT_DOMAIN. -/
def fDomain : Nat := 0x09

/-! ### Arrival counters -/

/-- Arrival counter `n` of a slot, held in CTR_n (R393, R406). -/
def ctrAt (s : State) (slot n : Nat) : Nat := fget s (.core slot 1) (KB1.CTR n)

/-- Add to an arrival counter modulo 2^32 (R393, R394). -/
def ctrAdd (s : State) (slot n : Nat) (k : Int) : State :=
  fset s (.core slot 1) (KB1.CTR n) (wrap 32 ((ctrAt s slot n : Int) + k))

/-- The slot that serves a logical core's accesses; none while the number is vacant, fenced or in reset (R396, R560). -/
def coreInService (s : State) (n : Nat) : Option Nat :=
  match logicalSlot s n with
  | some k => if outOfService s (.core k) then none else some k
  | none => none

/-! ### Waits -/

/-- FRAME_NO: the frame holding the newel angle (R92); zero until frame 0 has begun. -/
def frameNo (s : State) : Nat :=
  let count := fun (g : StairFrame) => (g.no + (s.stair.angle - g.start) / 2 ^ 32) % 2 ^ 32
  match s.stair.frame with
  | none => 0
  | some f =>
    match s.stair.ahead with
    | some g => if g.start ≤ s.stair.angle then count g else f.no
    | none => count f

/-- Frame `f` counts as reached (R80). -/
def frameReached (s : State) (f : Nat) : Bool :=
  decide ((frameNo s + 2 ^ 32 - f % 2 ^ 32) % 2 ^ 32 < 2 ^ 31)

/-- Treads of a TREADS code (R71, R92). -/
def treadsOf (code : Nat) : Nat := 16 * 2 ^ code

/-- The frame whose treads close next, with the next tread whose event comes. -/
def closingFrame (s : State) : Option (Nat × Nat) :=
  match s.stair.frame with
  | none => none
  | some f =>
    match s.stair.closing with
    | c :: _ => some (f.no, if c.frame = f.no then c.tread else treadsOf f.code)
    | [] => some (f.no, if s.stair.cutAhead then treadsOf f.code else s.stair.nextCut)

/-- Frame `f` has landed. -/
def landed (s : State) (f : Nat) : Bool :=
  frameReached s f &&
    (match closingFrame s with
     | none => false
     | some (n, _) => decide (f % 2 ^ 32 ≠ n % 2 ^ 32) && decide ((n + 2 ^ 32 - f % 2 ^ 32) % 2 ^ 32 < 2 ^ 31))

/-- Tread `k` of frame `f` has closed; a k that the frame does not have counts as its landing (R80). -/
def treadClosed (s : State) (f k : Nat) : Bool :=
  landed s f ||
    (match closingFrame s with
     | none => false
     | some (n, nxt) => decide (f % 2 ^ 32 = n % 2 ^ 32) && decide (k < nxt))

/-- The device-time value that waits compare with, in nanoseconds (R379). -/
def devNsCount (s : State) : Nat := s.tb.dev / 2 ^ 32

/-- A wait's condition other than WAIT_HALO's holds (R80, R81, R379). Waits on treads and landings stay pending while EN
is 0 (R82). -/
def waitHolds (s : State) (slot : Nat) : WaitKind → Bool
  | .tread f k => ebit s (.pkg 3) PB3.STAIR_CTRL_EN && treadClosed s f k
  | .landing f => ebit s (.pkg 3) PB3.STAIR_CTRL_EN && landed s f
  | .time t => decide (t ≤ devNsCount s)
  | .count n v => decide ((ctrAt s slot n + 2 ^ 32 - v % 2 ^ 32) % 2 ^ 32 < 2 ^ 31)
  | .halo _ _ _ _ => false

/-- The wait's deadline has been reached (R380); zero means none. -/
def pastDeadline (s : State) (deadline : Nat) : Bool := deadline ≠ 0 && decide (deadline ≤ devNsCount s)

/-- Complete a wait with its status: DST is written and the thread goes on after the instruction. -/
def endWait (s : State) (slot c status : Nat) : State :=
  let x := ctxAt s slot c
  match x.hold with
  | .wait _ _ dst =>
    setCtx s slot c { x.deliver dst (BitVec.ofNat 64 status) with
      st := .ready, hold := .none, pc := (x.pc + 4) % 2 ^ 64, ir := [], since := s.now }
  | _ => s

/-- R50, R380: a forward step completes at once every WAIT_TIME and every deadline that it passes. -/
def stepWaits (s : State) : State :=
  s.ctx.foldl (fun acc kx =>
    match kx.2.hold with
    | .wait (.time t) d _ =>
      if t ≤ devNsCount s then endWait acc (kx.1 / 2048) (kx.1 % 2048) 0
      else if pastDeadline s d then endWait acc (kx.1 / 2048) (kx.1 % 2048) 3 else acc
    | .wait k d _ =>
      if pastDeadline s d && !waitHolds s (kx.1 / 2048) k then endWait acc (kx.1 / 2048) (kx.1 % 2048) 3 else acc
    | _ => acc) s

end Sys2Proof.Machine
end

