-- ==== Sys2Proof/Machine/Trig.lean ====
section
/-!
DEFINITION. Trigger outputs and capture inputs (R83 to R89, R94 to R96).
-/

namespace Sys2Proof.Machine

/-- A trigger never committed: no firing is scheduled. -/
def trigIdle : Trigger := ⟨none, none, 0⟩

/-- A trigger's state. -/
def trigAt (s : State) (n : Nat) : Trigger := SMap.getD s.trig n trigIdle

/-- R83, R84: a trigger fires: FIRED counts, the pin pulses for WIDTH_NS (not at all for 0, R87). `late` sets LATE. -/
def fireTrigger (s : State) (n : Nat) (late : Bool) : State :=
  let p := Page.pkg 5
  let s := fset s p (PB5.TRIG_STATUS_FIRED n) (fget s p (PB5.TRIG_STATUS_FIRED n) + 1)
  let s := if late then fsetb s p (PB5.TRIG_STATUS_LATE n) true else s
  let t := trigAt s n
  let w := eget s p (PB5.TRIG_WIDTH_NS n)
  raiseInt { s with trig := SMap.put s.trig n { t with until_ := if w = 0 then t.until_ else s.now + w } } p (8 + n)

/-- The level of TRIG_OUT[n] (R83). -/
def trigLevel (s : State) (n : Nat) : Bool :=
  (bit s.fuse.trigIdle n) != decide (s.now < (trigAt s n).until_)

/-- The programmed first time of a TIME-mode trigger, in device-time units. -/
def trigStart (s : State) (n : Nat) : Nat :=
  ((eget s (.pkg 5) (PB5.TRIG_SEC_HI n) * 2 ^ 32 + eget s (.pkg 5) (PB5.TRIG_SEC_LO n)) * 1000000000 +
    eget s (.pkg 5) (PB5.TRIG_AT n)) * 2 ^ 32

/-- The first time `t0 + m × per` that is not earlier than `now`. -/
def firstFrom (t0 per now : Nat) : Nat :=
  if t0 ≥ now then t0 else t0 + (now - t0 + per - 1) / per * per

/-- R84, R85: a committed trigger set takes effect on trigger `n`. The unwrapped angle that an ANGLE trigger crosses next
is the first one above the present angle. -/
def armTrigger (s : State) (n : Nat) : State :=
  let p := Page.pkg 5
  let s := fset s p (PB5.TRIG_STATUS_FIRED n) 0
  let old := trigAt s n
  let hold := fun (s : State) (t : Trigger) => { s with trig := SMap.put s.trig n t }
  let mode := eget s p (PB5.TRIG_CTRL_MODE n)
  if mode = 1 then
    let t0 := trigStart s n
    let per := eget s p (PB5.TRIG_PERIOD_NS n) * 2 ^ 32
    if per = 0 then
      if t0 < s.tb.dev then fireTrigger (hold s { old with nextTime := none, nextAngle := none }) n true
      else hold s { old with nextTime := some t0, nextAngle := none }
    else hold s { old with nextTime := some (firstFrom t0 per s.tb.dev), nextAngle := none }
  else if mode = 2 then
    let a := eget s p (PB5.TRIG_AT n) % 65536 * 65536
    hold s { old with nextTime := none, nextAngle := some (firstFrom a (2 ^ 32) (s.stair.angle + 1)) }
  else hold s { old with nextTime := none, nextAngle := none }

/-- Fire trigger `n` and schedule what follows: a period later, a sweep later, or nothing. -/
def fireAndNext (s : State) (n : Nat) : State :=
  let t := trigAt s n
  let s := fireTrigger s n false
  let u := trigAt s n
  match t.nextTime, t.nextAngle with
  | some x, _ =>
    let per := eget s (.pkg 5) (PB5.TRIG_PERIOD_NS n) * 2 ^ 32
    { s with trig := SMap.put s.trig n { u with nextTime := if per = 0 then none else some (x + per) } }
  | none, some a => { s with trig := SMap.put s.trig n { u with nextAngle := some (a + 2 ^ 32) } }
  | none, none => s

/-- R84, R85: a trigger whose scheduled time or angle has come fires. -/
def execTriggerFire (n : Fin 8) (s : State) : Host.Outcome State Fault Refusal :=
  let t := trigAt s n.val
  let due := (match t.nextTime with | some x => decide (x ≤ s.tb.dev) | none => false) ||
    (match t.nextAngle with | some a => decide (a ≤ s.stair.angle) | none => false)
  if due then done (fireAndNext s n.val) else .next s

/-- R50: a forward step fires every TIME-mode trigger whose time falls in the stepped-over interval up to `to`. A
periodic trigger fires at once and its next time is the first one after the interval. -/
def fireStepped (s : State) (upTo : Nat) : State :=
  (List.range 8).foldl (fun s n =>
    match (trigAt s n).nextTime with
    | some x =>
      if x ≤ upTo then
        let per := eget s (.pkg 5) (PB5.TRIG_PERIOD_NS n) * 2 ^ 32
        let s := fireTrigger s n false
        let t := trigAt s n
        let nx := if per = 0 then none else some (firstFrom x per (upTo + 1))
        { s with trig := SMap.put s.trig n { t with nextTime := nx } }
      else s
    | none => s) s

/-- A capture input's state. -/
def capAt (s : State) (n : Nat) : Capture := SMap.getD s.cap n ⟨[], none⟩

/-- R88: a selected edge is timestamped into the FIFO; with the FIFO full it is discarded and sets OVERFLOW; an edge less
than 8 ns after the last is recorded as one with it. -/
def execCaptureEdge (n : Fin 4) (rising : Bool) (s : State) : Host.Outcome State Fault Refusal :=
  let p := Page.pkg 5
  let e := fget s p (PB5.CAP_CTRL_EDGE n.val)
  let c := capAt s n.val
  let near := match c.last with | some t => decide (s.now < t + 8) | none => false
  if !(if rising then bit e 0 else bit e 1) || near then .next s
  else
    let s := { s with cap := SMap.put s.cap n.val { c with last := some s.now } }
    if c.fifo.length ≥ 16 then
      done (raiseInt (fsetb s p (PB5.CAP_CTRL_OVERFLOW n.val) true) p (20 + n.val))
    else
      let f := c.fifo ++ [(s.tb.dev, rising)]
      let s := { s with cap := SMap.put s.cap n.val ⟨f, some s.now⟩ }
      done (raiseInt (fset s p (PB5.CAP_CTRL_LEVEL n.val) f.length) p (16 + n.val))

/-- R89: a read of CAPn_HEAD_HI pops the oldest entry into the holding registers; the value read, and the state after. -/
def capPop (s : State) (n : Nat) : Nat × State :=
  let p := Page.pkg 5
  let c := capAt s n
  match c.fifo with
  | [] => (0, putWord s p (PB5.CAP_HEAD_HI_VALID n).off 0)
  | (t, rising) :: rest =>
    let v := 2 ^ 31 + b2n rising * 2 ^ 30 + devSec t / 2 ^ 32
    let s := { s with cap := SMap.put s.cap n ⟨rest, c.last⟩ }
    let s := fset s p (PB5.CAP_CTRL_LEVEL n) rest.length
    let s := fset (fset (fset s p (PB5.CAP_SEC_LO n) (devSec t % 2 ^ 32)) p (PB5.CAP_NS n) (devNs t)) p
      (PB5.CAP_FRAC n) (devFrac t)
    (v, putWord s p (PB5.CAP_HEAD_HI_VALID n).off v)

end Sys2Proof.Machine
end

