-- ==== Sys2Proof/Machine/Angle.lean ====
section
/-!
DEFINITION. The newel angle (R65 to R70, R688 to R690, R733): its rate, its source, loss and catch-up. Angles are
unwrapped, in 2^-16 of the 1/65,536-turn unit, so that a turn is 2^32; rates are in mHz.
-/

namespace Sys2Proof.Machine

/-- NEWEL_SRC in effect: 0 SENSOR, 1 ENCODER, 2 SYNTH. -/
def newelSrc (s : State) : Nat := eget s (.pkg 3) PB3.STAIR_CTRL_NEWEL_SRC

/-- HOLDOVER is set. -/
def holdover (s : State) : Bool := fbit s (.pkg 3) PB3.STAIR_STATUS_HOLDOVER

/-- CATCHUP is set. -/
def catchup (s : State) : Bool := fbit s (.pkg 3) PB3.STAIR_STATUS_CATCHUP

/-- The angle is synthesised: SYNTH, or in HOLDOVER (R688). -/
def synthesised (s : State) : Bool := newelSrc s = 2 || holdover s

/-- The measured rate; SYNTH_RATE until a revolution has been measured (R68). -/
def measuredRate (s : State) : Nat := s.stair.rate.getD (eget s (.pkg 3) PB3.SYNTH_RATE)

/-- The rate before catch-up: SYNTH_RATE under SYNTH, clamped to 5 to 40 Hz in HOLDOVER (R66, R69). -/
def baseRate (s : State) : Nat :=
  if newelSrc s = 2 then eget s (.pkg 3) PB3.SYNTH_RATE
  else if holdover s then min 40000 (max 5000 (measuredRate s))
  else measuredRate s

/-- The angle swept in `dt` (2^-32 ns) at `rate` mHz, from the remainder `rem`: the advance and the new remainder. -/
def sweep (rate dt rem : Nat) : Nat × Nat := ((rate * dt + rem) / 10 ^ 12, (rate * dt + rem) % 10 ^ 12)

/-- The source angle at the present device time: the SYNTH line (R733), or the last sample advanced at the measured rate. -/
def sourceAngle (s : State) : Option Nat :=
  if newelSrc s = 2 then
    some (eget s (.pkg 3) PB3.TREAD0_ANGLE * 65536 + eget s (.pkg 3) PB3.SYNTH_RATE * s.tb.dev / 10 ^ 12)
  else s.stair.sample.map (fun (a, t) => a + measuredRate s * (s.tb.dev - t) / 10 ^ 12)

/-- A difference of angles reduced to half a turn either way (R70). -/
def angleDiff (a b : Nat) : Int := sext 32 (wrap 32 ((a : Int) - b))

/-- The source angle minus the newel angle (R70); zero with no source angle. -/
def sourceDiff (s : State) : Int :=
  match sourceAngle s with
  | some a => angleDiff a s.stair.angle
  | none => 0

/-- The rate in use: in catch-up, 25 % above while behind and 25 % below while ahead (R70). -/
def rateInUse (s : State) : Nat :=
  let r := baseRate s
  if catchup s then (if sourceDiff s > 0 then r * 5 / 4 else if sourceDiff s < 0 then r * 3 / 4 else r) else r

/-- Advance the angle by `dt` of device time at the rate in use. -/
def advanceAngle (s : State) (dt : Nat) : State :=
  let (da, r) := sweep (rateInUse s) dt s.stair.rem
  { s with stair.angle := s.stair.angle + da, stair.rem := r }

/-- The angle follows device time from `old` to the present, held back after a backward step (R65, R688). -/
def angleTo (s : State) (old : Nat) : State :=
  match s.tb.angleHold with
  | none => advanceAngle s (s.tb.dev - old)
  | some h =>
    if s.tb.dev < h then s
    else advanceAngle { s with tb.angleHold := none } (s.tb.dev - max h old)

/-- R688, R689: what a step of device time from `old` does to the angle. -/
def stepAngle (s : State) (old : Nat) : State :=
  if synthesised s then
    if s.tb.dev ≥ old then angleTo s old
    else { s with tb.angleHold := some (max old (s.tb.angleHold.getD 0)) }
  else { s with stair.revFrom := none }

/-! ### Loss and return of the source -/

/-- R69: the source is lost. -/
def enterHoldover (s : State) : State :=
  if holdover s then s
  else
    let p := Page.pkg 3
    let s := fsetb (fsetb s p PB3.STAIR_STATUS_HOLDOVER true) p PB3.STAIR_STATUS_CATCHUP false
    let s := raiseInt (finc s p PB3.HOLDOVER_COUNT) p 2
    recordState { s with stair.sample := none, stair.agreed := 0, stair.revFrom := none } p 0 1 0

/-- R68: a full revolution of the source measures the rate; a rate outside 5 to 40 Hz is a loss of the source. -/
def measureRevolution (s : State) (a t : Nat) : State :=
  match s.stair.revFrom with
  | none => { s with stair.revFrom := some (a, t) }
  | some (a0, t0) =>
    if a < a0 + 2 ^ 32 ∨ t ≤ t0 then s
    else
      let r := (a - a0) * 10 ^ 12 / (t - t0)
      if r < 5000 ∨ 40000 < r then enterHoldover { s with stair.revFrom := some (a, t) }
      else { s with stair.rate := some r, stair.revFrom := some (a, t) }
/-- W of a TREADS code. -/
def widthOf (code : Nat) : Nat := 65536 / treadsOf code

/-- A rejected sample or reference (R67). -/
def rejectNewel (s : State) : State :=
  raiseInt (finc { s with stair.agreed := 0 } (.pkg 3) PB3.NEWEL_REJECT) (.pkg 3) 4

/-- An accepted sample at unwrapped angle `a`, dated `t`: in HOLDOVER it counts towards the eight of R70; else the angle
goes up to it, and never down. -/
def acceptSample (s : State) (a t : Nat) : State :=
  let s := { s with stair.sample := some (a, t), stair.sampleAt := some s.now }
  let s := measureRevolution s a t
  if holdover s then
    let n := s.stair.agreed + 1
    let s := { s with stair.agreed := n }
    if n ≥ 8 then fsetb s (.pkg 3) PB3.STAIR_STATUS_CATCHUP true else s
  else if catchup s then s
  else
    let here := a + measuredRate s * (s.tb.dev - t) / 10 ^ 12
    { s with stair.angle := max s.stair.angle here }

/-- R66, R67: a sensor sample, an angle of one turn in 65,536 units, dated `t` in device time (2^-32 ns). -/
def newelSample (s : State) (unit t : Nat) : State :=
  let pred : Option Nat :=
    if holdover s then s.stair.sample.map (fun (a, t0) => a + measuredRate s * (t - t0) / 10 ^ 12)
    else some (s.stair.angle - measuredRate s * (s.tb.dev - t) / 10 ^ 12)
  match pred with
  | none =>
    let a : Int := s.stair.angle + angleDiff (unit * 65536) s.stair.angle
    acceptSample s a.toNat t
  | some q =>
    let d := angleDiff (unit * 65536) q
    let a := ((q : Int) + d).toNat
    if d.natAbs > widthOf (eget s (.pkg 3) PB3.STAIR_CTRL_TREADS) * 65536 then
      rejectNewel (if holdover s then { s with stair.sample := some (a, t) } else s)
    else acceptSample s a t

/-- R66: a quadrature edge; the pins' new levels. A forward count advances the counted angle by 65,536 / CPR units; a
backward count is made up by the next forward ones, since the angle never decreases. -/
def execEncoderEdge (a b : Bool) (s : State) : Host.Outcome State Fault Refusal :=
  let p := Page.pkg 3
  let phase := fun (x y : Bool) => if x then (if y then 2 else 1) else (if y then 3 else 0)
  let d := (phase a b + 4 - phase s.stair.encA s.stair.encB) % 4
  let fwd := if ebit s p PB3.ENC_CPR_DIR then d = 3 else d = 1
  let s := { s with stair.encA := a, stair.encB := b }
  if d = 0 ∨ d = 2 ∨ newelSrc s ≠ 1 then .next s
  else
    let cpr := eget s p PB3.ENC_CPR_CPR
    if !fwd then done { s with stair.encBack := s.stair.encBack + 1, stair.sampleAt := some s.now }
    else if s.stair.encBack > 0 then
      done { s with stair.encBack := s.stair.encBack - 1, stair.sampleAt := some s.now }
    else
      let n := 2 ^ 32 + s.stair.encRem
      let s := { s with stair.encAngle := s.stair.encAngle + n / cpr, stair.encRem := n % cpr }
      done (acceptSample s s.stair.encAngle s.tb.dev)

/-- R67: an ENC_Z index; a reference more than 4 counts from the counted angle is rejected, another corrected through the
catch-up of R70. -/
def execEncoderIndex (s : State) : Host.Outcome State Fault Refusal :=
  let p := Page.pkg 3
  if newelSrc s ≠ 1 then .next s
  else
    let d := angleDiff (eget s p PB3.ENC_Z_ANGLE * 65536) s.stair.encAngle
    if d.natAbs * eget s p PB3.ENC_CPR_CPR > 4 * 2 ^ 32 then done (rejectNewel s)
    else
      let a := ((s.stair.encAngle : Int) + d).toNat
      let s := { s with stair.encAngle := a, stair.encRem := 0, stair.sample := some (a, s.tb.dev) }
      done (if d.natAbs < 16 * 65536 then s else fsetb s p PB3.STAIR_STATUS_CATCHUP true)

/-- R69: no accepted sample or quadrature edge for NEWEL_TIMEOUT. -/
def execNewelTimeoutExpire (s : State) : Host.Outcome State Fault Refusal :=
  match s.stair.sampleAt with
  | some t =>
    if newelSrc s = 2 ∨ s.now < t + eget s (.pkg 3) PB3.NEWEL_TIMEOUT * 1000 ∨ (holdover s && !catchup s) then .next s
    else if holdover s then
      done (fsetb { s with stair.sample := none, stair.agreed := 0 } (.pkg 3) PB3.STAIR_STATUS_CATCHUP false)
    else done (enterHoldover s)
  | none => .next s

/-- R70, R690, R733: the difference is below 16 units, so HOLDOVER and CATCHUP clear. -/
def execCatchupDone (s : State) : Host.Outcome State Fault Refusal :=
  let p := Page.pkg 3
  if !catchup s || decide ((sourceDiff s).natAbs ≥ 16 * 65536) then .next s
  else
    let was := holdover s
    let s := fsetb (fsetb s p PB3.STAIR_STATUS_CATCHUP false) p PB3.STAIR_STATUS_HOLDOVER false
    done (if was then recordState (raiseInt { s with stair.agreed := 0 } p 3) p 0 0 1 else s)

end Sys2Proof.Machine
end

