-- ==== Sys2Proof/Machine/Access.lean ====
section
/-!
DEFINITION. Global addresses (R36 to R40) and the access tables (R622 to R635): grants, windows, denials, the fields that
accept writes from certain masters only, and the checks of a register access.
-/

namespace Sys2Proof.Machine

/-! ### Masters (R622) -/

/-- MID of the host. -/
def midHost : Nat := 16
/-- MID of the control cores. -/
def midCC : Nat := 17
/-- MID of the Point Front. -/
def midPF : Nat := 18
/-- MID of the JTAG access. -/
def midDebug : Nat := 19

/-- The host. -/
def rqHost : Requester := ⟨midHost, false, none⟩
/-- A control core. -/
def rqCC : Requester := ⟨midCC, false, none⟩

/-! ### Grants -/

/-- R624, R625: whether a grant allows an access that reads (`rd`), writes (`wr`), or both (an atomic). -/
def grantAllows (lo hi : Nat) (rq : Requester) (rd wr : Bool) : Bool :=
  if !bit hi 31 then false
  else if rq.node.isSome && !bit hi 8 then false
  else if rq.mid ≤ 15 then
    if rq.unit && bit hi 9 then false
    else (!rd || bit lo rq.mid) && (!wr || bit lo (16 + rq.mid))
  else if rq.mid ≤ 19 then
    (!rd || bit hi (2 * (rq.mid - 16))) && (!wr || bit hi (2 * (rq.mid - 16) + 1))
  else false

/-- The window fields of one table (R648): BASE, LIMIT, GRANT_LO, GRANT_HI of window `n`. -/
structure WinFields where
  base : Nat → Fld
  limit : Nat → Fld
  lo : Nat → Fld
  hi : Nat → Fld

/-- DRAM windows of die page B7. -/
def dramWin : WinFields := ⟨DB7.DRAM_WIN_BASE, DB7.DRAM_WIN_LIMIT, DB7.DRAM_WIN_GRANT_LO, DB7.DRAM_WIN_GRANT_HI⟩
/-- Scratchpad windows of core page B11. -/
def spmWin : WinFields := ⟨KB11.SPM_WIN_BASE, KB11.SPM_WIN_LIMIT, KB11.SPM_WIN_GRANT_LO, KB11.SPM_WIN_GRANT_HI⟩
/-- Node windows of package page B9. -/
def nodeWin : WinFields := ⟨PB9.NODE_WIN_BASE, PB9.NODE_WIN_LIMIT, PB9.NODE_WIN_GRANT_LO, PB9.NODE_WIN_GRANT_HI⟩

/-- R627: the grant that decides for unit `u`: the lowest valid window containing it, else the default. -/
def unitGrant (s : State) (p : Page) (w : WinFields) (n : Nat) (dflt : Nat × Nat) (u : Nat) : Nat × Nat :=
  match (List.range n).find? (fun i => bit (eget s p (w.hi i)) 31 && decide (eget s p (w.base i) ≤ u) &&
      decide (u ≤ eget s p (w.limit i))) with
  | some i => (eget s p (w.lo i), eget s p (w.hi i))
  | none => dflt

/-- R627: every unit from `a` to `b` allows the access. -/
def unitsAllow (s : State) (p : Page) (w : WinFields) (n : Nat) (dflt : Nat × Nat) (a b : Nat) (rq : Requester)
    (rd wr : Bool) : Bool :=
  (List.range (b + 1 - a)).all (fun i =>
    let g := unitGrant s p w n dflt (a + i)
    grantAllows g.1 g.2 rq rd wr)

/-- R626: DRAM of die `d`, bytes `off` to `off + len - 1`. -/
def dramAllows (s : State) (d off len : Nat) (rq : Requester) (rd wr : Bool) : Bool :=
  let p := Page.die d 7
  unitsAllow s p dramWin 16 (eget s p DB7.DRAM_DEFAULT_LO, eget s p DB7.DRAM_DEFAULT_HI)
    (off / 65536) ((off + len - 1) / 65536) rq rd wr

/-- R626: the scratchpad of a physical slot. -/
def spmAllows (s : State) (slot off len : Nat) (rq : Requester) (rd wr : Bool) : Bool :=
  let p := Page.core slot 11
  unitsAllow s p spmWin 8 (eget s p KB11.SPM_DEFAULT_LO, eget s p KB11.SPM_DEFAULT_HI)
    (off / 4096) ((off + len - 1) / 4096) rq rd wr

/-- R626: a store of region 0x2. -/
def storeAllows (s : State) (d st : Nat) (rq : Requester) (rd wr : Bool) : Bool :=
  grantAllows (eget s (.die d 7) (DB7.STORE_GRANT_LO st)) (eget s (.die d 7) (DB7.STORE_GRANT_HI st)) rq rd wr

/-- R626: a host window at the gateway. -/
def hostWinAllows (s : State) (w : Nat) (rq : Requester) (rd wr : Bool) : Bool :=
  grantAllows (eget s (.pkg 9) (PB9.HOSTWIN_GRANT_LO w)) (eget s (.pkg 9) (PB9.HOSTWIN_GRANT_HI w)) rq rd wr

/-- R626, R629: output to another node, checked at the source. -/
def nodeAllows (s : State) (node : Nat) (rq : Requester) (rd wr : Bool) : Bool :=
  unitsAllow s (.pkg 9) nodeWin 8 (eget s (.pkg 9) PB9.GAL_DEFAULT_LO, eget s (.pkg 9) PB9.GAL_DEFAULT_HI)
    node node rq rd wr

/-- R626, R628: a register page. -/
def pageAllows (s : State) (p : Page) (rq : Requester) (rd wr : Bool) : Bool :=
  grantAllows (eget s (.pkg 9) (PB9.GROUP_GRANT_LO (pageGroup p))) (eget s (.pkg 9) (PB9.GROUP_GRANT_HI (pageGroup p)))
    rq rd wr

/-- R629: a REMOTE access from outside INBOUND_NODES is refused. -/
def inboundOk (s : State) (rq : Requester) : Bool :=
  match rq.node with
  | none => true
  | some n => decide (eget s (.pkg 9) PB9.INBOUND_NODES_MIN ≤ n) && decide (n ≤ eget s (.pkg 9) PB9.INBOUND_NODES_MAX)

/-- R633: a denial counts on the page of the deciding table and is captured there while DENY_FIRST.VALID is clear. The
three tables' pages hold these registers at the same offsets. -/
def deny (s : State) (p : Page) (rq : Requester) (wr : Bool) (addr : Nat) : State :=
  let s := raiseInt (viol (finc s p PB9.DENY_COUNT) p) p 0
  if fbit s p PB9.DENY_FIRST_VALID then s
  else
    putWord (putWord (putWord s p 0x4C
      (2 ^ 31 + b2n wr * 2 ^ 30 + b2n rq.node.isSome * 2 ^ 29 + rq.mid % 32 * 2 ^ 24 + b2n rq.unit * 2 ^ 23 +
        (rq.node.getD (ownNode s)) % 1024)) p 0x50 (addr % 2 ^ 32)) p 0x54 (addr / 2 ^ 32 % 2 ^ 26)

/-! ### Register accesses -/

/-- The offset of a page's last register. -/
def lastOffset (p : Page) : Nat :=
  (ownRows p).foldl (fun m r => max m (r.fld.off + r.s1 * (r.n1 - 1) + r.s2 * (r.n2 - 1))) 0x3C

/-- R630, R673: the masters that a whole register accepts writes from; none where any master may write. -/
def writersOf (p : Page) (off : Nat) : Option (List Nat) :=
  match p with
  | .pkg 9 => some [midHost, midCC]
  | .die _ 7 => some [midHost, midCC]
  | .core _ 11 => some [midHost, midCC]
  | .cl _ _ 0 => if off = 0x44 then some [midCC] else none
  | .die _ 5 => if off = DB5.SPARE_CMD_GO.off then some [midCC] else none
  | .die _ 9 => if off = 0x48 then some [midCC] else none
  | .die _ 10 => if 0x60 ≤ off ∧ off ≤ 0x7C then some [midCC] else none
  | .cl _ _ 3 => if off = 0x44 then some [midCC] else none
  | .pkg 11 => if off = 0x40 ∨ off = 0x44 ∨ (0x100 ≤ off ∧ off ≤ 0x13C) then some [midHost, midCC] else none
  | _ => none

/-- The outcome of the checks of a register access. -/
inductive RegCheck where
  | ok (p : Page)
  | unmapped | refused | stub (p : Page) | denied
  deriving DecidableEq, Repr

/-- The page's block is in reset, so that its stub answers (R582, R700, R703). -/
def pageStubbed (s : State) (p : Page) : Bool :=
  inReset s (pageBlock p) || (match p with | .core n _ => inReset s (.core n) | _ => false) || recoveryHolds s p

/-- The checks of a register access, in order: mapped (R658), whole aligned word (R7), block in reset (R582, R703), R630,
access table (R626, R629). Each failed check is counted where its rule says. -/
def checkReg (s : State) (rq : Requester) (a width : Nat) (rd wr : Bool) : RegCheck × State :=
  match pageAt a with
  | none => (.unmapped, finc s (.pkg 7) PB7.HOST_UNMAPPED)
  | some p =>
    let off := a % 0x1000
    if off / 4 * 4 > lastOffset p then (.unmapped, finc s (.pkg 7) PB7.HOST_UNMAPPED)
    else if width ≠ 4 ∨ off % 4 ≠ 0 then (.refused, viol s p)
    else if pageStubbed s p then (.stub p, if wr then finc s (.pkg 1) PB1.STUB_ANSWERS else s)
    else if wr && !(((writersOf p off).map (fun ms => ms.contains rq.mid)).getD true) then (.refused, viol s p)
    else if !(inboundOk s rq) || !(pageAllows s p rq rd wr) then
      (.denied, deny s (.pkg 9) rq wr (ownNode s * 2 ^ 48 + 3 * 2 ^ 44 + a))
    else (.ok p, s)

end Sys2Proof.Machine
end

