-- ==== Sys2Proof/Machine/Sha3.lean ====
section
/-!
DEFINITION. SHA3-256 (R568, R639: FIPS 202). The spec names the function and gives it by its standard; the text below is
PRESUMED from FIPS 202 (assumption log).
-/

namespace Sys2Proof.Machine

/-- Rotate a 64-bit lane left. -/
def rotl64 (x : BitVec 64) (n : Nat) : BitVec 64 := (x <<< (n % 64)) ||| (x >>> ((64 - n % 64) % 64))

/-- Round constants of Keccak-f[1600]. -/
def keccakRc : List (BitVec 64) :=
  [0x0000000000000001#64, 0x0000000000008082#64, 0x800000000000808A#64, 0x8000000080008000#64,
   0x000000000000808B#64, 0x0000000080000001#64, 0x8000000080008081#64, 0x8000000000008009#64,
   0x000000000000008A#64, 0x0000000000000088#64, 0x0000000080008009#64, 0x000000008000000A#64,
   0x000000008000808B#64, 0x800000000000008B#64, 0x8000000000008089#64, 0x8000000000008003#64,
   0x8000000000008002#64, 0x8000000000000080#64, 0x000000000000800A#64, 0x800000008000000A#64,
   0x8000000080008081#64, 0x8000000000008080#64, 0x0000000080000001#64, 0x8000000080008008#64]

/-- Rotation of lane (x, y), at place x + 5y. -/
def keccakRot : List Nat :=
  [0, 1, 62, 28, 27, 36, 44, 6, 55, 20, 3, 10, 43, 25, 39, 41, 45, 15, 21, 8, 18, 2, 61, 56, 14]

/-- Lane (x, y) of the 25-lane state. -/
def lane (a : List (BitVec 64)) (x y : Nat) : BitVec 64 := a.getD (x % 5 + 5 * (y % 5)) 0#64

/-- One round: theta, rho, pi, chi, iota. -/
def keccakRound (a : List (BitVec 64)) (rc : BitVec 64) : List (BitVec 64) :=
  let c := (List.range 5).map (fun x => lane a x 0 ^^^ lane a x 1 ^^^ lane a x 2 ^^^ lane a x 3 ^^^ lane a x 4)
  let dcol := (List.range 5).map (fun x => c.getD ((x + 4) % 5) 0#64 ^^^ rotl64 (c.getD ((x + 1) % 5) 0#64) 1)
  let t := (List.range 25).map (fun i => lane a i (i / 5) ^^^ dcol.getD (i % 5) 0#64)
  -- B[y][2x+3y] = rot(A[x][y]); the lane that lands at (X, Y) comes from x = X + 3Y, y = X
  let b := (List.range 25).map (fun i =>
    let x := (i % 5 + 3 * (i / 5)) % 5; let y := i % 5
    rotl64 (lane t x y) (keccakRot.getD (x + 5 * y) 0))
  let e := (List.range 25).map (fun i =>
    let x := i % 5; let y := i / 5
    lane b x y ^^^ ((lane b (x + 1) y ^^^ BitVec.allOnes 64) &&& lane b (x + 2) y))
  match e with
  | h :: r => (h ^^^ rc) :: r
  | [] => []

/-- The permutation. -/
def keccakF (a : List (BitVec 64)) : List (BitVec 64) := keccakRc.foldl keccakRound a

/-- Absorb one 136-byte block. -/
def keccakAbsorb (a : List (BitVec 64)) (blk : List Nat) : List (BitVec 64) :=
  keccakF ((List.range 25).map (fun i =>
    a.getD i 0#64 ^^^ (if i < 17 then BitVec.ofNat 64 (leNat ((blk.drop (8 * i)).take 8)) else 0#64)))

/-- Cut into blocks of 136 bytes; `fuel` bounds their number. -/
def keccakBlocks : Nat → List Nat → List (List Nat)
  | 0, _ => []
  | f + 1, m => if m.length ≤ 136 then [m] else m.take 136 :: keccakBlocks f (m.drop 136)

/-- The padded message: domain bits 01, then pad10*1. -/
def sha3Pad (m : List Nat) : List Nat :=
  let k := 136 - m.length % 136
  if k = 1 then m ++ [0x86] else m ++ [0x06] ++ List.replicate (k - 2) 0 ++ [0x80]

/-- The SHA3-256 digest of a string of bytes, 32 bytes. -/
def sha3_256 (m : List Nat) : List Nat :=
  let p := sha3Pad m
  let a := (keccakBlocks (p.length / 136 + 1) p).foldl keccakAbsorb (List.replicate 25 0#64)
  (a.take 4).flatMap (fun w => toLe 8 w.toNat)

end Sys2Proof.Machine
end

