-- ==== Sys2Proof/Machine/Attest.lean ====
section
/-!
DEFINITION. Identity, measurements, quotes and the debug gate (R635, R638 to R642, R645).
-/

namespace Sys2Proof.Machine

/-- The bytes of consecutive registers of a page, little-endian words. -/
def regBytes (s : State) (p : Page) (off n : Nat) : List Nat :=
  (List.range n).flatMap (fun i => toLe 4 (rawWord s p (off + 4 * i)))

/-- The 32 bytes of measurement `m` (R646). -/
def measBytes (s : State) (m : Nat) : List Nat := regBytes s (.pkg 9) (0x400 + 32 * m) 8

/-- Hold 32 bytes in measurement `m`. -/
def setMeas (s : State) (m : Nat) (bs : List Nat) : State :=
  (List.range 8).foldl (fun s i => putWord s (.pkg 9) (0x400 + 32 * m + 4 * i) (leNat ((bs.drop (4 * i)).take 4))) s

/-- R639: measurement 2, the fuse words 0 to 63 with withheld words taken as zero. -/
def fuseDigest (f : Fuses) : List Nat :=
  sha3_256 ((List.range 64).flatMap (fun i =>
    toLe 4 (if f.secret.contains i then 0 else (SMap.getD f.words i 0#32).toNat)))

/-- R639: measurement 3, over the access tables of B9 and of both dies' B7. -/
def tableDigest (s : State) : List Nat :=
  sha3_256 (regBytes s (.pkg 9) 0x100 176 ++ regBytes s (.die 0 7) 0x58 138 ++ regBytes s (.die 1 7) 0x58 138)

/-- R640: EXTEND_CMD.GO. -/
def extendGo (s : State) (slot : Nat) : State :=
  setMeas s (4 + slot) (sha3_256 (measBytes s (4 + slot) ++ regBytes s (.pkg 9) 0xA0 8))

/-- FLAGS of a quote (R642). -/
def quoteFlags (s : State) : Nat :=
  b2n (fbit s (.pkg 13) PB13.BOOT_STATUS_RECOVERY) + 2 * b2n (fbit s (.pkg 9) PB9.ACC_CTRL_LOCK) +
  4 * b2n (fbit s (.die 0 7) DB7.ACC_CTRL_LOCK) + 8 * b2n (fbit s (.die 1 7) DB7.ACC_CTRL_LOCK) +
  16 * b2n (fbit s (.die 0 7) DB7.ACC_CTRL_TPL_LOCK && fbit s (.die 1 7) DB7.ACC_CTRL_TPL_LOCK) +
  32 * b2n (fbit s (.pkg 9) PB9.ACC_CTRL_DEBUG_WAS_OPEN) + 64 * b2n (fbit s (.pkg 10) PB10.HIST_CTRL_INJ_LOCK) +
  128 * b2n (fget s (.pkg 2) PB2.TIME_STATUS_STATE = 2)

/-- R642: bytes 0x000 to 0x67F of the quote, as GO captures them. -/
def quoteHead (s : State) : List Nat :=
  [0x49, 0x54, 0x51, 0x54, 1, 0, s.fuse.grade % 256, s.fuse.siliconRev % 256] ++
  regBytes s (.pkg 9) 0x74 2 ++ toLe 4 (fget s (.pkg 9) PB9.QUOTE_SEQ) ++ toLe 4 (quoteFlags s) ++
  toLe 4 (devNs s.tb.dev) ++ toLe 4 (devSec s.tb.dev) ++ toLe 2 (devSec s.tb.dev / 2 ^ 32) ++
  [fget s (.pkg 1) PB1.PIN_STATE_BOOTSEL, fget s (.pkg 13) PB13.BOOT_STATUS_FAIL_COUNT] ++
  toLe 4 (fget s (.pkg 13) PB13.FW_IMAGE_VERSION) ++ toLe 4 (fget s (.pkg 13) PB13.ROLLBACK_MIN) ++
  toLe 4 (fget s (.pkg 12) PB12.POWERED_HOURS) ++ List.replicate 16 0 ++
  regBytes s (.pkg 9) 0x80 8 ++ (List.range 8).flatMap (measBytes s) ++ s.att.pubKey.map BitVec.toNat

/-- R641: QUOTE_CMD.GO. Refused while a quote is in progress or before the identity is ready. -/
def quoteGo (s : State) (rq : Requester) : State :=
  let p := Page.pkg 9
  if fbit s p PB9.ACC_STATUS_QUOTE_BUSY || !fbit s p PB9.ACC_STATUS_IDENT_READY then viol s p
  else
    let s := setMeas s 3 (tableDigest s)
    let s := finc (fsetb s p PB9.ACC_STATUS_QUOTE_BUSY true) p PB9.QUOTE_SEQ
    { s with att.quote := some ⟨rq, (quoteHead s).map (BitVec.ofNat 8)⟩ }

/-- R645: DEBUG_EN is set by the host, unless locked (R635). -/
def debugEnSet (s : State) (rq : Requester) : State :=
  let p := Page.pkg 9
  if rq.mid ≠ midHost then viol s p
  else if fbit s p PB9.ACC_CTRL_LOCK then viol s p
  else
    let s := fsetb (fsetb s p PB9.ACC_CTRL_DEBUG_EN true) p PB9.ACC_CTRL_DEBUG_WAS_OPEN true
    raiseInt s p 2

/-- R638: the identity key pair is derived: DEVICE_ID and IDENT_READY. The private key is not state any master reads. -/
def execIdentityKeyDerived (s : State) : Host.Outcome State Fault Refusal :=
  let seed := sha3_256 ((List.range 8).flatMap (fun i => toLe 4 (SMap.getD s.fuse.words (identWord + i) 0#32).toNat))
  let key := (List.range 1312).map (Config.identityKey seed)
  let id := (sha3_256 (key.map BitVec.toNat)).take 8
  let s := { s with att.pubKey := key }
  let s := putWord (putWord s (.pkg 9) 0x74 (leNat (id.take 4))) (.pkg 9) 0x78 (leNat (id.drop 4))
  done (fsetb s (.pkg 9) PB9.ACC_STATUS_IDENT_READY true)
where
  /-- The first of the eight fuse words that hold the identity fuse word; its place is not given (assumption log). -/
  identWord : Nat := 64

end Sys2Proof.Machine
end

