-- ==== Sys2Proof/Machine/Bypass.lean ====
section
/-!
DEFINITION. The ring bypass (R113 to R117, R122, R123).
-/

namespace Sys2Proof.Machine

/-- The word of a B4 register in effect on one port's receive path (R730). -/
def portWord (s : State) (n off : Nat) : Nat :=
  match SMap.find (SMap.getD s.ports.portEff n []) off with
  | some w => w.toNat
  | none => resetWord s.fuse (.pkg 4) off

/-- A B4 field in effect on one port's receive path (R730). -/
def pget (s : State) (n : Nat) (f : Fld) : Nat := bits (portWord s n f.off) f.lo f.w

/-- MODE of a port in effect. -/
def portMode (s : State) (n : Nat) : Nat := pget s n (PB4.PORT_CTRL_MODE n)

/-- The causes of R113 that hold now, but for the hold-off, as bits of BYP_STATUS (R122). -/
def bypassCauses (s : State) : Nat :=
  let absent := s.rst.lowRails.contains .core0 || s.rst.lowRails.contains .core1 || !s.rst.aonPresent
  2 * b2n (inReset s .pkg || absent) + 4 * b2n s.byp.pin +
  8 * fget s (.pkg 5) PB5.BYP_CTRL_FORCE_CLOSE + 16 * fget s (.pkg 6) PB6.LED_STATUS_SUPPLY_HOLD +
  32 * fget s (.pkg 13) PB13.BOOT_STATUS_RECOVERY + 64 * b2n (!s.byp.failover.isEmpty) +
  128 * b2n (portMode s 0 = 0 || portMode s 1 = 0)

/-- The bypass is closed. -/
def bypassClosed (s : State) : Bool := fbit s (.pkg 5) PB5.BYP_STATUS_CLOSED

/-- A ring port's link bits read 0 while the bypass isolates it (R118). -/
def dropLink (s : State) (n : Nat) : State :=
  let was := fbit s (.pkg 4) (PB4.PORT_STATUS_LINK n)
  let s := fsetb (fsetb (fsetb s (.pkg 4) (PB4.PORT_STATUS_LINK n) false) (.pkg 4) (PB4.PORT_STATUS_BLOCK_LOCK n) false)
    (.pkg 4) (PB4.PORT_STATUS_FEC_LOCK n) false
  if was then raiseInt s (.pkg 4) n else s

/-- A change of bypass state: status, time of change, event bit and record (R115, R732). -/
def bypassChange (s : State) (closed : Bool) : State :=
  let s := fsetb s (.pkg 5) PB5.BYP_STATUS_CLOSED closed
  let s := fsetb (fsetb s (.pkg 4) (PB4.PORT_STATUS_BYPASSED 0) closed) (.pkg 4) (PB4.PORT_STATUS_BYPASSED 1) closed
  let s := fset s (.pkg 5) PB5.BYP_LAST_NS (devNs s.tb.dev)
  recordState (raiseInt s (.pkg 5) (if closed then 0 else 1)) (.pkg 5) 0 (b2n closed) (b2n (!closed))

/-- R115: the bypass closes: the relay buffers are discarded and counted, and a frame being relayed is cut off. -/
def bypassClose (s : State) : State :=
  let s := [0, 1].foldl (fun s n =>
    fadd s (.pkg 4) (PB4.RELAY_DROP n) ((SMap.getD s.ports.relay n []).length)) s
  let s := { s with ports.relay := [], ports.begun := [] }
  let s := finc s (.pkg 5) PB5.BYP_CLOSE_COUNT
  dropLink (dropLink (bypassChange s true) 0) 1

/-- Put the present causes and the hold-off into BYP_STATUS. -/
def noteCauses (s : State) : State :=
  putWord s (.pkg 5) 0x44 (fget s (.pkg 5) PB5.BYP_STATUS_CLOSED + bypassCauses s + 256 * b2n s.byp.holdoff.isSome)

/-- R113, R114: look at the causes again: a cause closes the bypass and cancels a hold-off; with the last one gone the
hold-off starts, and with HOLDOFF_MS zero the bypass opens at once. -/
def bypassUpdate (s : State) : State :=
  if bypassCauses s ≠ 0 then
    let s := { s with byp.holdoff := none }
    noteCauses (if bypassClosed s then s else bypassClose s)
  else if bypassClosed s && s.byp.holdoff.isNone then
    let ms := fget s (.pkg 5) PB5.BYP_CTRL_HOLDOFF_MS
    if ms = 0 then noteCauses (bypassChange s false)
    else noteCauses { s with byp.holdoff := some (s.now + ms * 1000000) }
  else noteCauses s

/-- R113: the BYPASS_FORCE pin changes. -/
def execBypassForceChange (high : Bool) (s : State) : Host.Outcome State Fault Refusal :=
  let s := if s.byp.pin = high then s else raiseInt s (.pkg 5) 2
  done (bypassUpdate { s with byp.pin := high })

/-- R114: the hold-off ends with no cause present: the ring transmitters are enabled and the bypass opens. -/
def execHoldoffExpire (s : State) : Host.Outcome State Fault Refusal :=
  match s.byp.holdoff with
  | some t =>
    if decide (t ≤ s.now) && decide (bypassCauses s = 0) then
      done (noteCauses (bypassChange { s with byp.holdoff := none } false))
    else .next s
  | none => .next s

end Sys2Proof.Machine
end

