-- ==== Sys2Proof/Machine/Fp.lean ====
section
/-!
DEFINITION. Floating-point values and their exact rounding (R254 to R271), and the correctly rounded functions of R137.
A finite value is an exact dyadic number; every operation is exact and then rounded once.
-/

namespace Sys2Proof.Machine

/-- A value of a float format: the finite ones are `m × 2^e`. -/
inductive Fv where
  | nan
  | inf (neg : Bool)
  | fin (m e : Int)
  deriving DecidableEq, Repr

/-- A binary float format (R254): exponent and significand widths, bias; `e4m3` is FP8-E4M3, without infinities and
with NaN only in the last code. -/
structure Fmt where
  eb : Nat
  mb : Nat
  bias : Int
  e4m3 : Bool
  deriving DecidableEq, Repr

/-- FP32. -/
def fp32 : Fmt := ⟨8, 23, 127, false⟩
/-- BF16. -/
def bf16 : Fmt := ⟨8, 7, 127, false⟩
/-- FP16. -/
def fp16 : Fmt := ⟨5, 10, 15, false⟩
/-- FP8-E4M3. -/
def fp8e4m3 : Fmt := ⟨4, 3, 7, true⟩
/-- FP8-E5M2. -/
def fp8e5m2 : Fmt := ⟨5, 2, 15, false⟩

/-- Bits of a float format. -/
def Fmt.width (f : Fmt) : Nat := 1 + f.eb + f.mb

/-- The exponent of the smallest step. -/
def Fmt.qmin (f : Fmt) : Int := 1 - f.bias - f.mb

/-- The number of bits of `n`. -/
def bitLen (n : Nat) : Nat := if n = 0 then 0 else n.log2 + 1

/-- Decode (R254). Negative zero is taken as positive zero (R261). -/
def Fmt.decode (f : Fmt) (n : Nat) : Fv :=
  let neg := bit n (f.eb + f.mb)
  let ex := bits n f.mb f.eb
  let mn := bits n 0 f.mb
  let top := 2 ^ f.eb - 1
  let sg : Int := if neg then -1 else 1
  if f.e4m3 && ex = top && mn = 2 ^ f.mb - 1 then .nan
  else if !f.e4m3 && ex = top then (if mn = 0 then .inf neg else .nan)
  else if ex = 0 then .fin (sg * mn) f.qmin
  else .fin (sg * (mn + 2 ^ f.mb : Nat)) (f.qmin + ex - 1)

/-- The canonical NaN (R262). -/
def Fmt.nan (f : Fmt) : Nat :=
  if f.e4m3 then 2 ^ (f.eb + f.mb) - 1 else (2 ^ f.eb - 1) * 2 ^ f.mb + 2 ^ (f.mb - 1)

/-- The code of an infinity. -/
def Fmt.infCode (f : Fmt) (neg : Bool) : Nat := b2n neg * 2 ^ (f.eb + f.mb) + (2 ^ f.eb - 1) * 2 ^ f.mb

/-- The code of the largest finite magnitude. -/
def Fmt.maxCode (f : Fmt) : Nat :=
  if f.e4m3 then 2 ^ (f.eb + f.mb) - 2 else (2 ^ f.eb - 1) * 2 ^ f.mb - 1

/-- How the discarded part of a magnitude is rounded: to nearest even, or stochastically with the random 16 bits `r`
(R265). -/
inductive RoundMode where
  | nearest
  | stoch (r : Nat)
  deriving DecidableEq, Repr

/-- Divide the magnitude `n` by `2^s` and round. -/
def roundShift (md : RoundMode) (n s : Nat) : Nat :=
  if s = 0 then n
  else
    let q := n / 2 ^ s
    let rem := n % 2 ^ s
    match md with
    | .nearest =>
      if 2 * rem > 2 ^ s ∨ (2 * rem = 2 ^ s ∧ q % 2 = 1) then q + 1 else q
    | .stoch r => if rem * 65536 / 2 ^ s + r % 65536 ≥ 65536 then q + 1 else q

/-- A magnitude `n × 2^e` rounded to `p` significant bits, no step finer than `2^qmin`: the kept integer and its step. -/
def roundTo (md : RoundMode) (p : Nat) (qmin : Int) (n : Nat) (e : Int) : Nat × Int :=
  let q := max (e + (bitLen n : Int) - p) qmin
  if q ≤ e then (n * 2 ^ (e - q).toNat, q)
  else
    let k := roundShift md n (q - e).toNat
    if k = 2 ^ p then (2 ^ (p - 1), q + 1) else (k, q)

/-- What becomes of a finite value beyond the format's range. -/
inductive OverMode where
  | toInf | saturate
  deriving DecidableEq, Repr

/-- Round a value into a format (R260 to R262, R264 to R266). -/
def Fmt.encode (f : Fmt) (md : RoundMode) (ov : OverMode) (v : Fv) : Nat :=
  match v with
  | .nan => f.nan
  | .inf neg => if f.e4m3 then f.nan else f.infCode neg
  | .fin m e =>
    let neg := decide (m < 0)
    let (k, q) := roundTo md (f.mb + 1) f.qmin m.natAbs e
    if k = 0 then 0
    else
      let sgn := b2n neg * 2 ^ (f.eb + f.mb)
      let code := if k < 2 ^ f.mb then k else (q - f.qmin + 1).toNat * 2 ^ f.mb + (k - 2 ^ f.mb)
      if code ≤ f.maxCode then sgn + code
      else match ov with
        | .saturate => sgn + f.maxCode
        | .toInf => if f.e4m3 then f.nan else f.infCode neg

/-! ### FP32 operations (R260 to R262) -/

/-- The value of an FP32 word. -/
def f32v (n : Nat) : Fv := fp32.decode n

/-- Round to FP32: to nearest even, beyond the range an infinity. -/
def f32r (v : Fv) : Nat := fp32.encode .nearest .toInf v

/-- Exact sum of two values. -/
def Fv.add (a b : Fv) : Fv :=
  match a, b with
  | .nan, _ => .nan
  | _, .nan => .nan
  | .inf x, .inf y => if x = y then .inf x else .nan
  | .inf x, .fin _ _ => .inf x
  | .fin _ _, .inf y => .inf y
  | .fin m e, .fin n g =>
    let q := min e g
    .fin (m * 2 ^ (e - q).toNat + n * 2 ^ (g - q).toNat) q

/-- The negated value. -/
def Fv.neg : Fv → Fv
  | .nan => .nan
  | .inf x => .inf (!x)
  | .fin m e => .fin (-m) e

/-- Exact product of two values. -/
def Fv.mul (a b : Fv) : Fv :=
  match a, b with
  | .nan, _ => .nan
  | _, .nan => .nan
  | .inf x, .inf y => .inf (x != y)
  | .inf x, .fin n _ => if n = 0 then .nan else .inf (x != decide (n < 0))
  | .fin m _, .inf y => if m = 0 then .nan else .inf (y != decide (m < 0))
  | .fin m e, .fin n g => .fin (m * n) (e + g)

/-- Compare two values: none when either is a NaN, else whether a < b and whether a = b. -/
def Fv.cmp (a b : Fv) : Option (Bool × Bool) :=
  match a, b with
  | .nan, _ => none
  | _, .nan => none
  | .inf x, .inf y => some (x && !y, x == y)
  | .inf x, .fin _ _ => some (x, false)
  | .fin _ _, .inf y => some (!y, false)
  | .fin m e, .fin n g =>
    let q := min e g
    let u := m * 2 ^ (e - q).toNat
    let v := n * 2 ^ (g - q).toNat
    some (decide (u < v), decide (u = v))

/-- FP32 addition. -/
def f32add (a b : Nat) : Nat := f32r ((f32v a).add (f32v b))
/-- FP32 subtraction. -/
def f32sub (a b : Nat) : Nat := f32r ((f32v a).add (f32v b).neg)
/-- FP32 multiplication. -/
def f32mul (a b : Nat) : Nat := f32r ((f32v a).mul (f32v b))
/-- FP32 negation; zero keeps sign 0 (R261). -/
def f32neg (a : Nat) : Nat := f32r (f32v a).neg

/-- a < b; false with a NaN. -/
def f32lt (a b : Nat) : Bool := match (f32v a).cmp (f32v b) with | some (l, _) => l | none => false
/-- a = b; false with a NaN. -/
def f32eq (a b : Nat) : Bool := match (f32v a).cmp (f32v b) with | some (_, e) => e | none => false
/-- a ≤ b; false with a NaN. -/
def f32le (a b : Nat) : Bool := match (f32v a).cmp (f32v b) with | some (l, e) => l || e | none => false
/-- The word is a NaN. -/
def f32nan (a : Nat) : Bool := f32v a = .nan
/-- The word is finite. -/
def f32fin (a : Nat) : Bool := match f32v a with | .fin _ _ => true | _ => false

/-- The smaller of two words; a NaN in either gives the canonical NaN. -/
def f32min (a b : Nat) : Nat := if f32nan a || f32nan b then fp32.nan else if f32lt b a then f32r (f32v b) else f32r (f32v a)
/-- The larger of two words; a NaN in either gives the canonical NaN. -/
def f32max (a b : Nat) : Nat := if f32nan a || f32nan b then fp32.nan else if f32lt a b then f32r (f32v b) else f32r (f32v a)

/-- An integer as FP32 (R260). -/
def f32ofInt (i : Int) : Nat := f32r (.fin i 0)

/-- A value rounded to the nearest integer, ties to even. -/
def Fv.toInt (md : RoundMode) (m e : Int) : Int :=
  if e ≥ 0 then m * 2 ^ e.toNat
  else
    let k := roundShift md m.natAbs (-e).toNat
    if m < 0 then -(k : Int) else k

/-- A finite value's floor. -/
def Fv.floorFin (m e : Int) : Int := if e ≥ 0 then m * 2 ^ e.toNat else m.fdiv (2 ^ (-e).toNat)

/-- A value rounded to an integer of a range, saturating, infinities included; a NaN gives 0 (R266). -/
def Fv.toIntSat (md : RoundMode) (lo hi : Int) : Fv → Int
  | .nan => 0
  | .inf neg => if neg then lo else hi
  | .fin m e => clampI lo hi (Fv.toInt md m e)

/-- A quotient of integers rounded to FP32; the denominator is not zero. -/
def f32ofRat (n : Int) (d : Nat) (e : Int) : Nat :=
  let sh := bitLen d + 30
  let x := n.natAbs * 2 ^ sh
  let q := 2 * (x / d) + b2n (x % d ≠ 0)
  f32r (.fin (if n < 0 then -(q : Int) else q) (e - sh - 1))

/-- FP32 division of finite words by a finite non-zero word, to nearest even. -/
def f32div (a b : Nat) : Nat :=
  match f32v a, f32v b with
  | .fin m e, .fin n g => if n = 0 then fp32.nan else f32ofRat (if n < 0 then -m else m) n.natAbs (e - g)
  | .inf x, .fin n _ => f32r (.inf (x != decide (n < 0)))
  | _, _ => fp32.nan

/-- floor of an FP32 word; none when it is not finite. -/
def f32floor (a : Nat) : Option Int :=
  match f32v a with
  | .fin m e => some (Fv.floorFin m e)
  | _ => none

/-! ### The functions of R137

Computed in fixed point with 768 fraction bits, exact but for an error far below the spacing that rounding to FP32 can
see; the sticky last bit says that digits follow. -/

/-- Fraction bits. -/
def fxBits : Nat := 768

/-- 2π in fixed point. -/
def fxTwoPi : Nat :=
  9754758866674295461570735273566368876213259089234010624234189249406134967842452044676619113006886613721612377806352583487066070944291466297743957772337593185462732046403465187286957468725274774781276152867150699316543141844632796461

/-- arctan(1/2) in fixed point. -/
def fxAtanHalf : Nat :=
  719821301425716516793890152631352669302567358806769256921261270434868019175857607038304795057440569482406095297716347492542112205141279758998696886447331606051253800959972722083572200030166023190740159555170875717708220816511613896

/-- The tail of the sine or cosine series from its term `t`, factor number `k` next. -/
def fxSeries (x2 : Nat) : Nat → Nat → Nat → Int
  | 0, _, _ => 0
  | fuel + 1, t, k => (t : Int) - fxSeries x2 fuel (t * x2 / 2 ^ fxBits / ((k + 1) * (k + 2))) (k + 2)

/-- Sine and cosine of a fixed-point angle of at most a quarter turn. -/
def fxSinCos (x : Nat) : Int × Int :=
  let x2 := x * x / 2 ^ fxBits
  (fxSeries x2 150 x 1, fxSeries x2 150 (2 ^ fxBits) 0)

/-- Sine and cosine of `r` turns, `r` in fixed point below one turn, with exact values at the quarters. -/
def fxTurn (r : Nat) : Int × Int :=
  let q := 4 * r / 2 ^ fxBits
  let t := r - q * 2 ^ fxBits / 4
  let (s, c) := fxSinCos (t * fxTwoPi / 2 ^ fxBits)
  match q with
  | 0 => (s, c)
  | 1 => (c, -s)
  | 2 => (-s, -c)
  | _ => (-c, s)

/-- Round a fixed-point number that is exact when `exact` holds. -/
def fxRound (exact : Bool) (v : Int) : Nat :=
  let w : Int := if exact then 2 * v else if v < 0 then 2 * v - 1 else 2 * v + 1
  f32r (.fin w (-(fxBits : Int) - 1))

/-- The fraction of a turn of an FP32 angle in turns: exact, since no FP32 step is finer than 2^-149. -/
def turnFrac (m e : Int) : Nat :=
  if e ≥ 0 then 0 else ((m * 2 ^ (fxBits - (-e).toNat)) % 2 ^ fxBits).toNat

/-- cosT and sinT of an FP32 angle in turns (R137). A NaN or an infinity gives the canonical NaN. -/
def cosT (u : Nat) : Nat :=
  match f32v u with
  | .fin m e => let r := turnFrac m e; fxRound (4 * r % 2 ^ fxBits = 0) (fxTurn r).2
  | _ => fp32.nan
/-- sinT (R137). -/
def sinT (u : Nat) : Nat :=
  match f32v u with
  | .fin m e => let r := turnFrac m e; fxRound (4 * r % 2 ^ fxBits = 0) (fxTurn r).1
  | _ => fp32.nan

/-- Sine and cosine in fixed point of an FP32 angle in radians. -/
def fxRad (m e : Int) : Int × Int :=
  let a : Int := if e ≥ 0 then m * 2 ^ (fxBits + e.toNat) else m * 2 ^ (fxBits - (-e).toNat)
  let r := (a % fxTwoPi).toNat
  let q := 4 * r / fxTwoPi
  let (s, c) := fxSinCos (r - q * fxTwoPi / 4)
  match q with
  | 0 => (s, c)
  | 1 => (c, -s)
  | 2 => (-s, -c)
  | _ => (-c, s)

/-- cos of an FP32 angle in radians (R137). -/
def cosR (a : Nat) : Nat :=
  match f32v a with
  | .fin m e => if m = 0 then 0x3F800000 else fxRound false (fxRad m e).2
  | _ => fp32.nan
/-- sin of an FP32 angle in radians (R137). -/
def sinR (a : Nat) : Nat :=
  match f32v a with
  | .fin m e => if m = 0 then 0 else fxRound false (fxRad m e).1
  | _ => fp32.nan

/-- The arctangent series from its power `p`, odd number `k`. -/
def fxAtanSeries (z2 : Int) : Nat → Int → Nat → Int
  | 0, _, _ => 0
  | fuel + 1, p, k => p.tdiv k - fxAtanSeries z2 fuel (p * z2 / 2 ^ fxBits) (k + 2)

/-- arctan of a fixed-point number from 0 to 1. -/
def fxAtan (t : Nat) : Int :=
  if t * 4 ≤ 2 ^ fxBits then fxAtanSeries (t * t / 2 ^ fxBits : Nat) 400 t 1
  else
    -- about 1/2: z = (t - 1/2) / (1 + t/2)
    let z : Int := ((t : Int) - 2 ^ (fxBits - 1)) * 2 ^ fxBits / (2 ^ fxBits + t / 2 : Nat)
    fxAtanHalf + fxAtanSeries (z * z / 2 ^ fxBits) 400 z 1

/-- atan2(y, x) / 2π of integers on one scale, in turns from 0 to 1, fixed point. -/
def fxAtan2 (y x : Int) : Nat :=
  let ay := y.natAbs; let ax := x.natAbs
  let quarter := 2 ^ fxBits / 4
  let turns : Nat :=
    if ay = 0 then 0
    else if ay ≤ ax then ((fxAtan (ay * 2 ^ fxBits / ax)) * 2 ^ fxBits / fxTwoPi).toNat
    else quarter - ((fxAtan (ax * 2 ^ fxBits / ay)) * 2 ^ fxBits / fxTwoPi).toNat
  let h := if x < 0 then 2 ^ fxBits / 2 - turns else turns
  if y < 0 then 2 ^ fxBits - h else h

/-- atanT(y, x) (R137). An infinity is taken as the unit of its sign, a finite partner then as zero. -/
def atanT (y x : Nat) : Nat :=
  let unit := fun (n : Bool) => if n then (-1 : Int) else 1
  let (p, q) : Int × Int :=
    match f32v y, f32v x with
    | .nan, _ => (0, 0)
    | _, .nan => (0, 0)
    | .inf a, .inf b => (unit a, unit b)
    | .inf a, .fin _ _ => (unit a, 0)
    | .fin _ _, .inf b => (0, unit b)
    | .fin m e, .fin n g =>
      let z := min e g
      (m * 2 ^ (e - z).toNat, n * 2 ^ (g - z).toNat)
  if p = 0 ∧ q = 0 then 0
  else
    let t := fxAtan2 p q
    let exact := decide (p = 0) || decide (q = 0)
    let r := fxRound exact t
    if r = 0x3F800000 then 0 else r

/-- The angle unit of a position: floor(atanT(y, x) × 65,536), exact (R137). -/
def azUnit (y x : Nat) : Nat :=
  match f32v (atanT y x) with
  | .fin m e => (Fv.floorFin (m * 65536) e).toNat % 65536
  | _ => 0

/-! ### BS6 (R255) and conversion (R263 to R268) -/

/-- The value of a BS6 element. -/
def bs6Value (sig ex : Nat) : Fv :=
  let q : Int := bits sig 0 5
  .fin (if bit sig 5 then -q else q) ((ex : Int) - 131)

/-- One BS6 element at exponent `ex`: the rounded magnitude. -/
def bs6Q (md : RoundMode) (ex : Int) (m e : Int) : Nat := (Fv.toInt md (m.natAbs : Int) (e + 131 - ex)).natAbs

/-- floor(log2 |v|) of a non-zero finite value. -/
def Fv.log2Floor (m e : Int) : Int := (bitLen m.natAbs : Int) - 1 + e

/-- The significand code of an element at exponent `ex`: sign and magnitude, saturated at 31; zero results 0. -/
def bs6Sig (ex : Int) (v : Fv) (md : RoundMode) : Nat :=
  match v with
  | .nan => 0
  | .inf neg => 31 + 32 * b2n neg
  | .fin m e =>
    let q := min 31 (bs6Q md ex m e)
    if q = 0 then 0 else q + 32 * b2n (decide (m < 0))

/-- Convert a block of 32 values (R267): the exponent byte and the significands. `rs` gives each element's rounding. -/
def bs6Block (vs : List Fv) (rs : List RoundMode) : Nat × List Nat :=
  let tops := vs.filterMap (fun v => match v with
    | .fin m e => if m = 0 then none else some (Fv.log2Floor m e)
    | _ => none)
  let anyInf := vs.any (fun v => match v with | .inf _ => true | _ => false)
  match tops with
  | [] => let ex := if anyInf then 255 else 0
          (ex, vs.map (fun v => bs6Sig ex v .nearest))
  | t :: ts =>
    let top := ts.foldl max t
    let ex := clampI 0 255 (top + 127)
    let zs := vs.zip rs
    let bump := ex < 255 && zs.any (fun z => match z.1 with | .fin m e => bs6Q z.2 ex m e ≥ 32 | _ => false)
    let ex := if bump then ex + 1 else ex
    (ex.toNat, zs.map (fun z => bs6Sig ex z.1 z.2))

end Sys2Proof.Machine
end

