-- ==== Sys2Proof/Machine/Pose.lean ====
section
/-!
DEFINITION. Poses, deskew and voxel keys (R131 to R139, R142). Vectors are lists of FP32 words.
-/

namespace Sys2Proof.Machine

/-- A Point Front with nothing held. -/
def Front.idle : Front := ⟨[], 0, [], [], []⟩

/-- A die's Point Front. -/
def frontAt (s : State) (d : Nat) : Front := SMap.getD s.front d Front.idle

/-- Hold a die's Point Front. -/
def setFront (s : State) (d : Nat) (x : Front) : State := { s with front := SMap.setD s.front d x Front.idle }

/-- A Voxel Hall with every slot EMPTY. -/
def Hall.idle : Hall := ⟨[], [], [], [], [], none, []⟩

/-- A die's Voxel Hall. -/
def hallAt (s : State) (d : Nat) : Hall := SMap.getD s.hall d Hall.idle

/-- Hold a die's Voxel Hall. -/
def setHall (s : State) (d : Nat) (x : Hall) : State := { s with hall := SMap.setD s.hall d x Hall.idle }

/-- FP32 linear interpolation v0 + w × (v1 − v0) (R137). -/
def lerp (w v0 v1 : Nat) : Nat := f32add v0 (f32mul w (f32sub v1 v0))

/-- The pose between two samples, or beyond them (R135, R137). -/
def poseBetween (e0 e1 : EgoSample) (t : Nat) : List Nat :=
  let w := f32div (f32ofInt ((t : Int) - e0.t)) (f32ofInt ((e1.t : Int) - e0.t))
  (e0.pose.zip e1.pose).map (fun (a, b) => lerp w a b)

/-- Interpolation in the samples held, newest first; none when the pose is stale (R135). -/
def poseIn (t : Nat) : Bool → List EgoSample → Option (List Nat)
  | top, e1 :: e0 :: rest =>
    if e0.t ≤ t ∧ (t < e1.t ∨ (top = true ∧ t = e1.t)) then
      if e1.reset then none else some (poseBetween e0 e1 t)
    else poseIn t false (e0 :: rest)
  | _, _ => none

/-- The pose of a die at time `t` in nanoseconds; none when stale (R135). -/
def poseAt (s : State) (d t : Nat) : Option (List Nat) :=
  match (frontAt s d).ego with
  | e1 :: e0 :: rest =>
    if t > e1.t then
      if t - e1.t ≤ eget s (.die d 1) DB1.EGO_MAX_EXTRAP * 1000000 ∧ e1.reset = false then
        some (poseBetween e0 e1 t)
      else none
    else poseIn t true (e1 :: e0 :: rest)
  | _ => none

/-- The rotation matrix of a pose, row-major (R137). -/
def rotation (pose : List Nat) : List Nat :=
  let r := pose.getD 3 0; let p := pose.getD 4 0; let y := pose.getD 5 0
  let cr := cosR r; let sr := sinR r; let cp := cosR p; let sp := sinR p; let cy := cosR y; let sy := sinR y
  [f32mul cy cp, f32sub (f32mul (f32mul cy sp) sr) (f32mul sy cr), f32add (f32mul (f32mul cy sp) cr) (f32mul sy sr),
   f32mul sy cp, f32add (f32mul (f32mul sy sp) sr) (f32mul cy cr), f32sub (f32mul (f32mul sy sp) cr) (f32mul cy sr),
   f32neg sp, f32mul cp sr, f32mul cp cr]

/-- One row of a matrix product: (a × v0 + b × v1) + c × v2. -/
def dot3 (a b c : Nat) (v : List Nat) : Nat :=
  f32add (f32add (f32mul a (v.getD 0 0)) (f32mul b (v.getD 1 0))) (f32mul c (v.getD 2 0))

/-- R × v. -/
def matVec (m v : List Nat) : List Nat :=
  [dot3 (m.getD 0 0) (m.getD 1 0) (m.getD 2 0) v, dot3 (m.getD 3 0) (m.getD 4 0) (m.getD 5 0) v,
   dot3 (m.getD 6 0) (m.getD 7 0) (m.getD 8 0) v]

/-- Rᵀ × v. -/
def matTVec (m v : List Nat) : List Nat :=
  [dot3 (m.getD 0 0) (m.getD 3 0) (m.getD 6 0) v, dot3 (m.getD 1 0) (m.getD 4 0) (m.getD 7 0) v,
   dot3 (m.getD 2 0) (m.getD 5 0) (m.getD 8 0) v]

/-- Move a position from the pose `a` to the pose `b` (R136, R137, R157). -/
def movePose (a b v : List Nat) : List Nat :=
  let q := matVec (rotation a) v
  let dd := (List.range 3).map (fun i => f32sub (f32add (q.getD i 0) (a.getD i 0)) (b.getD i 0))
  matTVec (rotation b) dd

/-- M × [x, y, z, 1] with the extrinsics of a sensor (R132, R137). -/
def applyExtrinsic (m v : List Nat) : List Nat :=
  (List.range 3).map (fun i =>
    f32add (dot3 (m.getD (4 * i) 0) (m.getD (4 * i + 1) 0) (m.getD (4 * i + 2) 0) v) (m.getD (4 * i + 3) 0))

/-- The FP32 voxel size of a VOXEL field (R138). -/
def voxelSize (v : Nat) : Nat := f32r (.fin v (-8))

/-- The key of a position; none where it has none (R138). -/
def voxelKey (vox p : List Nat) : Option (List Int) :=
  let cs := (List.range 3).map (fun i =>
    let a := p.getD i 0
    if f32fin a then f32floor (f32div a (voxelSize (vox.getD i 0))) else none)
  match cs with
  | [some x, some y, some z] =>
    if [x, y, z].all (fun c => decide (-32768 ≤ c) && decide (c ≤ 32767)) then some [x, y, z] else none
  | _ => none

/-- The centre of a voxel (R137). -/
def voxelCentre (vox : List Nat) (key : List Int) : List Nat :=
  (List.range 3).map (fun i => f32mul (f32r (.fin (2 * key.getD i 0 + 1) (-1))) (voxelSize (vox.getD i 0)))

/-- OFF of a kept point on one axis: millimetres from the centre (R137, R142). -/
def offsetMm (p centre : Nat) : Int :=
  match (f32v p).add (f32v centre).neg with
  | .fin m e => satS 16 (Fv.toInt .nearest (m * 1000) e)
  | _ => 0

/-- The position rebuilt from a record (R137). -/
def rebuild (vox : List Nat) (c : Cell) : List Nat :=
  let centre := voxelCentre vox [c.kx, c.ky, c.kz]
  let offs := [c.ox, c.oy, c.oz]
  (List.range 3).map (fun i => f32add (centre.getD i 0) (f32ofRat (offs.getD i 0) 1000 0))

/-- The tread of a position's azimuth (R137). -/
def treadOf (b code : Nat) (p : List Nat) : Nat :=
  ((azUnit (p.getD 1 0) (p.getD 0 0) + 65536 - b) % 65536) / (65536 / (16 * 2 ^ code))

/-- The home die of a tread (R141). -/
def homeDie (code tread : Nat) : Nat := if tread < 8 * 2 ^ code then 0 else 1

end Sys2Proof.Machine
end

