-- ==== Sys2Proof/Machine/Hall.lean ====
section
/-!
DEFINITION. The Voxel Hall (R138 to R163): cell records, the index, probing, the choice of the kept point, merges, carry,
queries, frame slots and headers.
-/

namespace Sys2Proof.Machine

/-! ### Records and slots -/

/-- The base of a frame slot in the cell store (R161). -/
def slotBase (s : State) (d sl : Nat) : Nat :=
  (2 * 2 ^ 44 + d * 2 ^ 43 + 2 ^ 40) +
    (fget s (.die d 2) DB2.CELL_STORE_LO + fget s (.die d 2) DB2.CELL_STORE_HI * 2 ^ 32) % 2 ^ 40 + sl * 0x8000000

/-- The address of a cell record. -/
def cellAddr (s : State) (d sl n : Nat) : Nat := slotBase s d sl + 0x100000 + 32 * n

/-- A cell record as bytes (R142). -/
def Cell.bytes (c : Cell) : List Nat :=
  toLe 2 (wrap 16 c.kx) ++ toLe 2 (wrap 16 c.ky) ++ toLe 2 (wrap 16 c.kz) ++
  toLe 2 (wrap 16 c.ox) ++ toLe 2 (wrap 16 c.oy) ++ toLe 2 (wrap 16 c.oz) ++
  toLe 2 c.inten ++ [c.sensor, c.sweep] ++ toLe 4 (wrap 32 c.toff) ++
  [c.points, c.flags, c.tread, 0] ++ toLe 4 c.feat ++ toLe 4 0

/-- A cell record from its bytes. -/
def Cell.ofBytes (b : List Nat) : Cell :=
  let f := fun i n => leNat ((b.drop i).take n)
  ⟨sext 16 (f 0 2), sext 16 (f 2 2), sext 16 (f 4 2), sext 16 (f 6 2), sext 16 (f 8 2), sext 16 (f 10 2), f 12 2, f 14 1,
    f 15 1, sext 32 (f 16 4), f 20 1, f 21 1, f 22 1, f 24 4⟩

/-- Read a cell record. -/
def readCell (s : State) (d sl n : Nat) : Cell := Cell.ofBytes (rdBytes s (cellAddr s d sl n) 32)

/-- Write a cell record. -/
def writeCell (s : State) (d sl n : Nat) (c : Cell) : State := wrBytes s (cellAddr s d sl n) c.bytes

/-- The slot of frame `f` on a die, when it still holds `f`. -/
def slotFor (s : State) (d f : Nat) : Option Slot :=
  match SMap.find (hallAt s d).slots (f % 4) with
  | some x => if x.frame = f then some x else none
  | none => none

/-- Hold a slot. -/
def setSlot (s : State) (d : Nat) (x : Slot) : State :=
  let h := hallAt s d
  setHall s d { h with slots := SMap.put h.slots (x.frame % 4) x }

/-- Set flags of a frame's header on a die (R162): CLIPPED 1, CARRY_CLIPPED 2, DESKEW_STALE 3, HOLDOVER 4, LATE 5, DEFERRED
6, HALL_DOWN 7. -/
def flagSlot (s : State) (d f b : Nat) : State :=
  match slotFor s d f with
  | some x =>
    let x := { x with flags := setBits x.flags b 1 1 }
    wrN (setSlot s d x) (slotBase s d (f % 4) + 4) 4 x.flags
  | none => s

/-- The Hall takes points of frame `f`: in service since the frame opened, and not stopped (R141, R144, R588). -/
def hallTakes (s : State) (d f : Nat) : Bool :=
  !outOfService s (.point d) &&
    (match slotFor s d f with | some x => !x.stopped | none => false)

/-- R588: a frame whose placing has stopped still has its index entries; until they are emptied every point homed on the
die is refused, whatever its frame. -/
def hallStopped (s : State) (d : Nat) : Bool := (hallAt s d).slots.any (fun e => e.2.stopped && e.2.live)

/-! ### The index (R147, R148) -/

/-- Index entries. -/
def indexSize : Nat := 4194304

/-- The index position and tag of a key in a frame (R148). -/
def hallHash (seed f : Nat) (key : List Int) : Nat × Nat :=
  let k := wrap 16 (key.getD 0 0) + wrap 16 (key.getD 1 0) * 2 ^ 16 + wrap 16 (key.getD 2 0) * 2 ^ 32 + f % 2 * 2 ^ 48
  let h := (Nat.xor k seed * 0xA0B428DB3C6E5F17) % 2 ^ 64
  let h := Nat.xor h (h / 2 ^ 31)
  (bits h 42 22, bits h 32 10 % 1023 + 1)

/-- An index entry (R147). -/
def indexAt (s : State) (d i : Nat) : Nat := (SMap.getD (hallAt s d).index (i % indexSize) 0#32).toNat

/-- Write an index entry. -/
def setIndex (s : State) (d i w : Nat) : State :=
  let h := hallAt s d
  setHall s d { h with index := SMap.setD h.index (i % indexSize) (BitVec.ofNat 32 w) 0#32 }

/-- The key of a record. -/
def Cell.key (c : Cell) : List Int := [c.kx, c.ky, c.kz]

/-- The cell of a key in the main index: some entry of the window with its tag and parity whose record has the key. -/
def indexFind (s : State) (d : Nat) (x : Slot) (key : List Int) : Option Nat :=
  let (home, tag) := hallHash x.seed x.frame key
  (List.range 64).findSome? (fun i =>
    let w := indexAt s d (home + i)
    let n := bits w 0 21
    if bits w 22 10 = tag ∧ bits w 21 1 = x.frame % 2 ∧ (readCell s d (x.frame % 4) n).key = key then some n else none)

/-- The first empty entry of a key's window. -/
def indexFree (s : State) (d : Nat) (x : Slot) (key : List Int) : Option (Nat × Nat) :=
  let (home, tag) := hallHash x.seed x.frame key
  ((List.range 64).find? (fun i => bits (indexAt s d (home + i)) 22 10 = 0)).map (fun i => (home + i, tag))

/-- An entry of the unindexed list: its cell number and key (R161). -/
def unindexedAt (s : State) (d : Nat) (x : Slot) (i : Nat) : List Int × Nat :=
  let b := rdBytes s (slotBase s d (x.frame % 4) + 0x4900000 + 12 * i) 12
  ([sext 16 (leNat (b.take 2)), sext 16 (leNat ((b.drop 2).take 2)), sext 16 (leNat ((b.drop 4).take 2))],
    leNat ((b.drop 6).take 4))

/-- The cell of a key in the unindexed list. -/
def unindexedFind (s : State) (d : Nat) (x : Slot) (key : List Int) : Option Nat :=
  (List.range x.unindexed).findSome? (fun i =>
    let e := unindexedAt s d x i
    if e.1 = key then some e.2 else none)

/-- Whether a key comes before another, compared as (z, y, x). -/
def keyBefore (a b : List Int) : Bool :=
  let (ax, ay, az) := (a.getD 0 0, a.getD 1 0, a.getD 2 0)
  let (bx, by_, bz) := (b.getD 0 0, b.getD 1 0, b.getD 2 0)
  if az ≠ bz then az < bz else if ay ≠ by_ then ay < by_ else ax < bx

/-- List a cell as unindexed, keeping the list sorted (R151). -/
def unindexedPut (s : State) (d : Nat) (x : Slot) (key : List Int) (n : Nat) : State :=
  let es := (List.range x.unindexed).map (unindexedAt s d x)
  let es := es.filter (fun e => keyBefore e.1 key) ++ [(key, n)] ++ es.filter (fun e => !keyBefore e.1 key)
  let enc := fun (e : List Int × Nat) =>
    (e.1.flatMap (fun k => toLe 2 (wrap 16 k))) ++ toLe 4 e.2 ++ [0, 0]
  let s := wrBytes s (slotBase s d (x.frame % 4) + 0x4900000) (es.flatMap enc)
  let s := setSlot s d { x with unindexed := x.unindexed + 1 }
  raiseInt (finc s (.die d 2) DB2.UNINDEXED) (.die d 2) 2

/-! ### The choice of the kept point (R155, R156) -/

/-- Compare by a number: some true when the first wins, some false when the second does. -/
def lower (a b : Int) : Option Bool := if a < b then some true else if b < a then some false else none

/-- R155: whether `a` beats `b` in the slot of frame `f`; the first step that separates them decides. -/
def beats (s : State) (d : Nat) (x : Slot) (a b : Cell) : Bool :=
  let age := fun (c : Cell) => ((x.frame + 256 - c.sweep % 256) % 256 : Int)
  let prio := fun (c : Cell) => (eget s (.die d 1) (DB1.SENS_CTRL_PRIORITY c.sensor) : Int)
  let dist := fun (c : Cell) => c.ox * c.ox + c.oy * c.oy + c.oz * c.oz
  let policy := match x.policy with
    | 0 => lower a.toff b.toff
    | 1 => lower (dist a) (dist b)
    | 2 => lower b.inten a.inten
    | _ => lower b.toff a.toff
  let steps := [if x.rule = 1 then none else lower (age a) (age b), lower (prio b) (prio a), policy, lower a.toff b.toff,
    lower a.sensor b.sensor, lower a.ox b.ox, lower a.oy b.oy, lower a.oz b.oz, lower b.inten a.inten]
  (steps.findSome? id).getD true

/-- The sweep age of a candidate in a frame. -/
def sweepAge (f : Nat) (c : Cell) : Nat := (f + 256 - c.sweep % 256) % 256

/-- R155, R156: the record that holds after a candidate has been offered to a cell; `merged` when it is a merged result. -/
def combine (s : State) (d : Nat) (x : Slot) (cur new : Cell) (merged : Bool) : Cell :=
  let newWins := beats s d x new cur
  let win := if newWins then new else cur
  let lose := if newWins then cur else new
  let pts := if x.rule ≠ 1 ∧ sweepAge x.frame win < sweepAge x.frame lose then win.points
    else min 255 (win.points + lose.points)
  -- CARRIED, DESKEW_STALE and LATE are the winner's; VIA_ALCOVE and UNINDEXED are the cell's
  let fl := Nat.lor (Nat.land win.flags 0x19) (Nat.land cur.flags 0x06)
  { win with kx := cur.kx, ky := cur.ky, kz := cur.kz, tread := cur.tread, points := pts, feat := 0xFFFFFFFF,
             flags := if merged then Nat.lor fl 2 else fl }

/-- Where a candidate went. -/
inductive Placed where
  | placed | full
  deriving DecidableEq, Repr

/-- Create cell number `slot.cells` from a candidate. -/
def createCell (s : State) (d : Nat) (x : Slot) (c : Cell) : State :=
  let s := writeCell s d (x.frame % 4) x.cells { c with feat := 0xFFFFFFFF }
  finc (setSlot s d { x with cells := x.cells + 1 }) (.die d 2) DB2.CELLS_NEW

/-- R148: probe the index with a candidate and place it in its cell, or in a new one where the window has an empty entry. -/
def probe (s : State) (d : Nat) (x : Slot) (c : Cell) (merged : Bool) : Placed × State :=
  match indexFind s d x c.key with
  | some n => (.placed, writeCell s d (x.frame % 4) n (combine s d x (readCell s d (x.frame % 4) n) c merged))
  | none =>
    match indexFree s d x c.key with
    | some (i, tag) =>
      let c := if merged then { c with flags := Nat.lor c.flags 2 } else c
      (.placed, setIndex (createCell s d x c) d i (tag * 2 ^ 22 + x.frame % 2 * 2 ^ 21 + x.cells))
    | none => (.full, s)

/-- R150: defer a candidate to the alcove, or to the DRAM overflow region when the alcove is full. -/
def defer (s : State) (d f : Nat) (c : Cell) : State :=
  let h := hallAt s d
  let s := flagSlot s d f 6
  if h.alcove.length < 65536 then
    let h := hallAt s d
    raiseInt (finc (setHall s d { h with alcove := h.alcove ++ [(f, c)] }) (.die d 2) DB2.ALCOVE_IN) (.die d 2) 0
  else
    let h := hallAt s d
    raiseInt (finc (setHall s d { h with ovf := h.ovf ++ [(f, c)] }) (.die d 2) DB2.DRAM_OVF_IN) (.die d 2) 1

/-- R148, R153: offer a candidate to its home Hall: placed, or deferred while the window is full or an older frame's entries
are pinned. A frame that the Hall does not hold loses it (R141, R158), and a Hall that has stopped counts it (R588). -/
def offer (s : State) (d f : Nat) (c : Cell) : State :=
  match slotFor s d f with
  | none => s
  | some x =>
    if hallStopped s d then raiseInt (finc s (.die d 1) DB1.HALL_DOWN) (.die d 1) 3
    else if ((hallAt s d).emptying.map (· % 2)) = some (f % 2) then defer s d f c
    else match probe s d x c false with
      | (.placed, s) => finc s (.die d 2) DB2.PLACED
      | (.full, _) => defer s d f c

/-- R148: the next point at a die's probe input is placed or deferred. -/
def execPointProbe (d : Fin 2) (s : State) : Host.Outcome State Fault Refusal :=
  let h := hallAt s d.val
  match h.queue with
  | [] => .next s
  | (f, c) :: rest => done (offer (setHall s d.val { h with queue := rest }) d.val f c)

/-! ### Merges (R151, R152) -/

/-- Choose among the deferred candidates of each key, in key order (R151). -/
def mergeGroup (s : State) (d : Nat) (x : Slot) : List Cell → List Cell → List Cell
  | acc, [] => acc
  | acc, c :: cs =>
    match acc.find? (fun a => a.key = c.key) with
    | some a => mergeGroup s d x (acc.map (fun b => if b.key = c.key then combine s d x a c false else b)) cs
    | none => mergeGroup s d x (acc ++ [c]) cs

/-- Insert a cell into a list ordered by key. -/
def insertKey (c : Cell) : List Cell → List Cell
  | [] => [c]
  | a :: as => if keyBefore c.key a.key then c :: a :: as else a :: insertKey c as

/-- Place one merged result: index, unindexed list, new cell (R151). -/
def mergePlace (s : State) (d f : Nat) (c : Cell) : State :=
  match slotFor s d f with
  | none => s
  | some x =>
    match indexFind s d x c.key with
    | some _ => (probe s d x c true).2
    | none =>
      match unindexedFind s d x c.key with
      | some n => writeCell s d (f % 4) n (combine s d x (readCell s d (f % 4) n) c true)
      | none =>
        match probe s d x c true with
        | (.placed, s) => s
        | (.full, _) =>
          let s := createCell s d x { c with flags := Nat.lor c.flags 6 }
          match slotFor s d f with
          | some x' => unindexedPut s d x' c.key x.cells
          | none => s

/-- R151: merge the deferred points of a tread; whether there were any. -/
def mergeTread (s : State) (d f k : Nat) : Bool × State :=
  let h := hallAt s d
  let mine := fun (e : Nat × Cell) => e.1 = f && e.2.tread = k
  let cs := ((h.alcove ++ h.ovf).filter mine).map Prod.snd
  let s := setHall s d { h with alcove := h.alcove.filter (fun e => !mine e), ovf := h.ovf.filter (fun e => !mine e) }
  match slotFor s d f with
  | none => (false, s)
  | some x =>
    let best := mergeGroup s d x [] (cs.foldl (fun acc c => insertKey c acc) [])
    (!cs.isEmpty, best.foldl (fun s c => mergePlace s d f c) s)

/-! ### Queries (R154) -/

/-- What a lookup answers. -/
inductive Lookup where
  | cell (n : Nat)
  | none_
  | expired
  deriving DecidableEq, Repr

/-- R154: look a key up in a frame on one die, in the index and then in the unindexed list. -/
def hallLookup (s : State) (d f : Nat) (key : List Int) : Lookup :=
  match slotFor s d f with
  | none => .expired
  | some x =>
    if !x.live then .expired
    else match indexFind s d x key with
      | some n => .cell n
      | none => match unindexedFind s d x key with
        | some n => .cell n
        | none => .none_

/-- A lookup in a frame's cells by key alone, which does not need its index entries (R187, R209: the region-0x2 lists). -/
def cellByKey (s : State) (d f : Nat) (key : List Int) : Option Nat :=
  match slotFor s d f with
  | none => none
  | some x => (List.range x.cells).find? (fun n => (readCell s d (f % 4) n).key = key)

/-! ### Frames (R140, R160 to R163) -/

/-- The cells of a tread in ascending number. -/
def treadCells (s : State) (d : Nat) (x : Slot) (k : Nat) : List Nat :=
  (List.range x.cells).filter (fun n => rdByte s (cellAddr s d (x.frame % 4) n + 22) = k)

/-- SLOT_STATE of a slot (R174). -/
def setSlotState (s : State) (d sl v : Nat) : State :=
  let w := fget s (.die d 2) DB2.SLOT_STATE
  fset s (.die d 2) DB2.SLOT_STATE (setBits w (2 * sl) 2 v)

/-- Clear the slot's header, tread table and lists. -/
def clearSlot (s : State) (d sl : Nat) : State :=
  let lo := slotBase s d sl
  { s with mem := s.mem.filter (fun c => c.1 < lo || lo + 0x8000000 ≤ c.1) }

/-- The grid fields, policy and quota that a frame opening on a die runs under. -/
def newSlot (s : State) (d : Nat) (g : StairFrame) (seed : Nat) : Slot :=
  let p := Page.die d 2
  let sx := fun (f : Fld) => sext 16 (eget s p f)
  { frame := g.no, ref := g.ref, code := g.code, b := g.b,
    voxel := [eget s p DB2.VOXEL_XY_X, eget s p DB2.VOXEL_XY_Y, eget s p DB2.VOXEL_Z],
    roiMin := [sx DB2.ROI_MIN_XY_X, sx DB2.ROI_MIN_XY_Y, sx DB2.ROI_MIN_Z],
    roiMax := [sx DB2.ROI_MAX_XY_X, sx DB2.ROI_MAX_XY_Y, sx DB2.ROI_MAX_Z],
    policy := eget s p DB2.HALL_CTRL_POLICY, rule := eget s p DB2.HALL_CTRL_SWEEP_RULE,
    sweeps := eget s p DB2.HALL_CTRL_SWEEPS, seed := seed, quota := eget s (.die d 1) DB1.CARRY_QUOTA,
    landed := false, stopped := false, live := true, cells := 0, admitted := 0, carried := 0, unindexed := 0, listed := 0,
    flags := 0 }

/-- The header fields written at the opening (R162). -/
def openHeader (s : State) (d : Nat) (x : Slot) : State :=
  let a := slotBase s d (x.frame % 4)
  let sec := x.ref / 1000000000
  wrBytes s a (toLe 4 x.frame ++ toLe 4 0 ++ toLe 4 (x.ref % 1000000000) ++ toLe 4 (sec % 2 ^ 32) ++ toLe 2 (sec / 2 ^ 32) ++
    [x.code, x.sweeps] ++ toLe 20 0 ++ x.voxel.flatMap (toLe 2) ++ [x.policy + 4 * x.rule])

/-- R148: the seed of a frame: {SEED_HI, SEED_LO} xor f, or 64 free bits. -/
def frameSeed (s : State) (d f : Nat) : Nat × State :=
  let p := Page.die d 2
  if ebit s p DB2.HALL_CTRL_SEED_FIXED then
    (Nat.xor (eget s p DB2.SEED_HI * 2 ^ 32 + eget s p DB2.SEED_LO) f, s)
  else ((Config.freeWord s.free).toNat * 2 ^ 32 + (Config.freeWord (s.free + 1)).toNat, tickFree (tickFree s))

/-- R140, R160: a frame opens on a die whose Point Front and Voxel Hall are in service: its slot is claimed and cleared. -/
def openSlot (s : State) (d : Nat) (g : StairFrame) : State :=
  if outOfService s (.point d) then s
  else
    let sl := g.no % 4
    let (seed, s) := frameSeed s d g.no
    let x := newSlot s d g seed
    let s := openHeader (setSlot (clearSlot s d sl) d x) d x
    let s := fset (setSlotState s d sl 1) (.die d 2) (DB2.SLOT_FRAME sl) g.no
    raiseInt s (.die d 2) 4

/-- Every index entry of the frame's parity becomes empty (R153). -/
def emptyIndex (s : State) (d g : Nat) : State :=
  let h := hallAt s d
  let s := setHall s d { h with index := h.index.filter (fun e => bits e.2.toNat 21 1 ≠ g % 2), emptying := none }
  match slotFor s d g with
  | some x => setSlot s d { x with live := false }
  | none => s

/-- R162: the landing completes the header of a die: counts and VALID. -/
def landSlot (s : State) (d f : Nat) : State :=
  match slotFor s d f with
  | none => s
  | some x =>
    let a := slotBase s d (f % 4)
    let fl := setBits x.flags 0 1 1
    let ff : FrontFrame := ((frontAt s d).frames.find? (fun e => e.1 = f)).elim ⟨[], [], []⟩ Prod.snd
    let s := setSlot s d { x with landed := true, flags := fl }
    let s := wrN s (a + 4) 4 fl
    let s := wrBytes s (a + 0x14) (toLe 4 x.cells ++ toLe 4 x.admitted ++ toLe 4 x.carried ++ toLe 4 x.unindexed)
    let s := wrBytes s (a + 0x40) ((List.range 16).flatMap (fun m => toLe 4 (SMap.getD ff.admitted m 0)))
    let s := wrBytes s (a + 0x80) ((List.range 16).flatMap (fun m => toLe 4 (SMap.getD ff.refused m 0)))
    raiseInt (setSlotState s d (f % 4) 2) (.die d 2) 5

/-- R163: a tread event writes the tread table entry and lists the tread's cells on its home die. -/
def writeTread (s : State) (d f k ns : Nat) (holdover late merged : Bool) : State :=
  match slotFor s d f with
  | none => s
  | some x =>
    let a := slotBase s d (f % 4)
    let cs := treadCells s d x k
    let s := wrBytes s (a + 0x4100000 + 4 * x.listed) (cs.flatMap (toLe 4))
    let s := wrBytes s (a + 0x100 + 16 * k) (toLe 4 x.listed ++ toLe 4 cs.length ++ toLe 4 ns ++
      [1 + 2 * b2n holdover + 4 * b2n late + 8 * b2n merged, 0, 0, 0])
    setSlot s d { x with listed := x.listed + cs.length }

/-- Whether the tread table says that a tread has closed, on its home die. -/
def tableClosed (s : State) (d f k : Nat) : Bool := bit (rdByte s (slotBase s d (f % 4) + 0x100 + 16 * k + 12)) 0

/-! ### Carry (R157, R158) -/

/-- The region check of a key under a slot's region (R138). -/
def inRoi (x : Slot) (key : List Int) : Bool :=
  (List.range 3).all (fun i => decide (x.roiMin.getD i 0 ≤ key.getD i 0) && decide (key.getD i 0 ≤ x.roiMax.getD i 0))

/-- Count a cell that is not carried. -/
def carryDrop (s : State) (d : Nat) : State := finc s (.die d 2) DB2.CARRY_DROP

/-- Carry one cell of frame `g` from die `d` into frame g + 1, opened as `nx` (R157, R158, R694). -/
def carryCell (s : State) (d : Nat) (x : Slot) (nx : StairFrame) (c : Cell) : State :=
  let p := rebuild x.voxel c
  let deskew := ebit s (.die d 1) DB1.PF_CTRL_DESKEW_EN
  let (p, stale) := if deskew then
      match poseAt s d x.ref, poseAt s d nx.ref with
      | some a, some b => (movePose a b p, false)
      | _, _ => (p, true)
    else (p, false)
  -- the new frame's grid, from this die's copy or the other's
  match (slotFor s d nx.no).orElse (fun _ => slotFor s (1 - d) nx.no) with
  | none => carryDrop s d
  | some grid =>
    match voxelKey grid.voxel p with
    | none => carryDrop s d
    | some key =>
      if !inRoi grid key then carryDrop s d
      else
        let centre := voxelCentre grid.voxel key
        let tread := treadOf nx.b nx.code centre
        let home := homeDie nx.code tread
        if !hallTakes s home nx.no then carryDrop s d
        else
          match slotFor s home nx.no with
          | none => carryDrop s d
          | some y =>
            if y.carried ≥ y.quota then
              raiseInt (flagSlot (carryDrop s home) home nx.no 2) (.die home 2) 3
            else
              let off := fun i => offsetMm (p.getD i 0) (centre.getD i 0)
              let fl := Nat.lor (Nat.lor 1 (Nat.land c.flags 8)) (8 * b2n stale)
              let c' := { c with kx := key.getD 0 0, ky := key.getD 1 0, kz := key.getD 2 0, ox := off 0, oy := off 1,
                                 oz := off 2, toff := satS 32 (c.toff + (x.ref : Int) - (nx.ref : Int)), flags := fl,
                                 tread := tread, feat := 0xFFFFFFFF }
              let s := finc (setSlot s home { y with carried := y.carried + 1 }) (.die home 2) DB2.CARRIED
              let s := if stale then flagSlot s home nx.no 3 else s
              offer s home nx.no c'

/-- R157: at the event of tread `k` of frame `g`, its young cells are moved, re-keyed and offered to the next frame. -/
def carryTread (s : State) (d g k : Nat) (nx : StairFrame) : State :=
  match slotFor s d g with
  | none => s
  | some x =>
    if x.sweeps = 0 ∨ ((slotFor s d nx.no).map Slot.quota).getD 0 = 0 then s
    else
      let cs := ((treadCells s d x k).map (readCell s d (g % 4))).filter (fun c => sweepAge (g + 1) c ≤ x.sweeps)
      let s := cs.foldl (fun s c => carryCell s d x nx c) s
      let h := hallAt s d
      setHall s d { h with carries := h.carries ++ [(g, k)] }

/-- R159: the oldest carry of a die completes. -/
def execCarryDone (d : Fin 2) (s : State) : Host.Outcome State Fault Refusal :=
  let h := hallAt s d.val
  match h.carries with
  | [] => .next s
  | _ :: rest => done (setHall s d.val { h with carries := rest })

end Sys2Proof.Machine
end

