-- ==== Sys2Proof/Machine/Net.lean ====
section
/-!
DEFINITION. The Gallery's links, packets, routing and request tags (R479 to R506): training, flits and their cyclic
redundancy check, retry, credits, and what the answer to a request does at its source.
-/

namespace Sys2Proof.Machine

/-- How an access ends at its target (R494, R660): performed, refused under R40, denied by an access table, answered by a
stub or a failed channel, uncorrectable data, a persistent-parity error, held at the target, or in need of `len` bytes of
another node from address `g`. -/
inductive AccRes where
  | ok | refused | denied | targetReset | poisoned | parity | wait
  | need (g len : Nat)
  deriving DecidableEq, Repr

/-- The STATUS of R494. -/
def AccRes.status : AccRes → Nat
  | .ok => 0
  | .targetReset => 1
  | .refused => 2
  | .denied => 2
  | .poisoned => 3
  | .parity => 4
  | .wait => 0
  | .need _ _ => 0

/-- The outcome a STATUS stands for; UNROUTABLE and DROP as a TARGET_RESET. -/
def AccRes.ofStatus (n : Nat) : AccRes :=
  if n = 0 then .ok else if n = 2 then .refused else if n = 3 then .poisoned else if n = 4 then .parity else .targetReset

/-- The thread fault of an outcome (R494). -/
def AccRes.fault : AccRes → Nat
  | .ok => 0
  | .targetReset => fTargetReset
  | .refused => fAccess
  | .denied => fAccess
  | .poisoned => fEcc
  | .parity => fParity
  | .wait => 0
  | .need _ _ => 0

/-- R660: what the host sees of an outcome at the target, and the counter it goes to. -/
def hostAnswer (s : State) (wr : Bool) (r : AccRes) (data : List Nat) (n : Nat) : State :=
  match r with
  | .refused | .denied =>
    let s := raiseInt (finc s (.pkg 7) PB7.HOST_REFUSED) (.pkg 7) 2
    { s with ans := if wr then .refused else .bytes (List.replicate n 0) }
  | .targetReset =>
    let s := finc s (.pkg 7) PB7.HOST_TGT_RESET
    { s with ans := if wr then .targetReset else .bytes (List.replicate n 0xFF) }
  | .poisoned | .parity =>
    { finc s (.pkg 7) PB7.HOST_POISONED with ans := .poisoned }
  | .ok | .wait | .need _ _ => { s with ans := if wr then .none else .bytes data }

/-! ### Ports -/

/-- A port that has not trained. -/
def GPort.idle : GPort where
  since := 0
  lanes := 0
  txSeq := 0
  retry := []
  replay := []
  rxSeq := 4095
  bad := false
  nakAt := none
  nakDue := false
  credits := [256, 256, 256, 256]
  seen := [0, 0, 0, 0]
  got := [0, 0, 0, 0]
  freed := [0, 0, 0, 0]
  asm := []
  rxQ := []
  txQ := []
  cur := []
  crcFails := 0
  crcFrom := 0

/-- A port. -/
def gportAt (s : State) (p : Nat) : GPort := SMap.getD s.gal.ports p GPort.idle

/-- Hold a port. -/
def setGport (s : State) (p : Nat) (x : GPort) : State :=
  { s with gal.ports := SMap.setD s.gal.ports p x GPort.idle }

/-- The state of a port (R480): 0 DISABLED, 1 DETECT, 2 EQUALISE, 3 ALIGN, 4 EXCHANGE, 5 ACTIVE, 6 RETRAIN, 7 MISMATCH. -/
def gstate (s : State) (p : Nat) : Nat := fget s (.pkg 8) (PB8.GP_STATUS_STATE p)

/-- R482: the link is up while its port is ACTIVE or RETRAIN. -/
def linkUp (s : State) (p : Nat) : Bool := gstate s p = 5 || gstate s p = 6

/-- Node coordinates and sizes by dimension (R500): (own, size) pairs are read with `galSize`. -/
def galSize (s : State) (dim : Nat) : Nat :=
  1 + (if dim = 0 then eget s (.pkg 8) PB8.GAL_TOPO_XM1 else if dim = 1 then eget s (.pkg 8) PB8.GAL_TOPO_YM1
    else eget s (.pkg 8) PB8.GAL_TOPO_ZM1)

/-- The coordinate of node `n` in a dimension. -/
def galCoord (s : State) (n dim : Nat) : Nat :=
  if dim = 0 then n % galSize s 0 else if dim = 1 then n / galSize s 0 % galSize s 1 else n / (galSize s 0 * galSize s 1)

/-- The nodes of the topology. -/
def galNodes (s : State) : Nat := galSize s 0 * galSize s 1 * galSize s 2

/-- The node at a coordinate `v` of a dimension, this package's elsewhere. -/
def galNodeAt (s : State) (dim v : Nat) : Nat :=
  let c := fun d => if d = dim then v else galCoord s (ownNode s) d
  c 0 + galSize s 0 * (c 1 + galSize s 1 * c 2)

/-- The neighbour that a port faces (R481, R500). -/
def galNeighbour (s : State) (p : Nat) : Nat :=
  let dim := p / 2
  let n := galSize s dim
  let o := galCoord s (ownNode s) dim
  galNodeAt s dim (if p % 2 = 0 then (o + 1) % n else (o + n - 1) % n)

/-! ### Slots and bytes of packets (R492) -/

/-- Whether a packet is a response. -/
def Pkt.rsp (k : Pkt) : Bool := k.opc = 0x10 || k.opc = 0x11

/-- The head slot. -/
def Pkt.head (k : Pkt) : List Nat :=
  [k.opc, k.vc % 4 + 4 * b2n k.turned.isSome + 16 * (k.kind % 16)] ++ toLe 2 (k.dst % 1024) ++
  toLe 2 (k.src % 1024 + 1024 * (k.dom % 16)) ++ toLe 2 (k.tag % 4096 + 4096 * (k.status % 16)) ++ toLe 6 k.addr ++
  [k.len % 32, k.arg % 256]

/-- Cut bytes into slots of 16. -/
def slotsOf : Nat → List Nat → List (List Nat)
  | 0, _ => []
  | n + 1, bs => ((bs.take 16) ++ List.replicate (16 - (bs.take 16).length) 0) :: slotsOf n (bs.drop 16)

/-- All slots of a packet. -/
def Pkt.slots (k : Pkt) : List (List Nat) := k.head :: slotsOf k.len k.data

/-- A packet from its slots; `from_` is the port it arrived on, which a turned packet goes on away from. -/
def Pkt.ofSlots (from_ : Nat) (sl : List (List Nat)) : Pkt :=
  let h := sl.headD []
  let g := fun i n => leNat ((h.drop i).take n)
  { opc := g 0 1, vc := g 1 1 % 4, turned := if bit (g 1 1) 2 then some (Nat.xor from_ 1) else none, kind := g 1 1 / 16,
    dst := g 2 2 % 1024, src := g 4 2 % 1024, dom := g 4 2 / 1024 % 16, tag := g 6 2 % 4096, status := g 6 2 / 4096,
    addr := g 8 6, len := g 14 1 % 32, arg := g 15 1, data := sl.tail.flatten }

/-- Data placed as R493 says: its first byte at byte ADDR mod 16 of the first slot. -/
def galData (addr : Nat) (bs : List Nat) : Nat × List Nat :=
  (((addr % 16) + bs.length + 15) / 16, List.replicate (addr % 16) 0 ++ bs)

/-- The `n` bytes of a transfer in a packet's data. -/
def Pkt.bytes (k : Pkt) (n : Nat) : List Nat := (k.data.drop (k.addr % 16)).take n

/-! ### Completing a request at its source (R494, R496) -/

/-- An embedding unit with nothing held. -/
def EmbUnit.idle : EmbUnit := ⟨[], [], 0, [], [], [], []⟩

/-- A cluster's embedding unit. -/
def embAt (s : State) (cl : Nat) : EmbUnit := SMap.getD s.emb cl EmbUnit.idle

/-- Hold a cluster's embedding unit. -/
def setEmb (s : State) (cl : Nat) (x : EmbUnit) : State := { s with emb := SMap.setD s.emb cl x EmbUnit.idle }

/-- The contributions in flight of a table. -/
def flowAt (s : State) (t : Nat) : EmbFlow := SMap.getD s.flow t ⟨0, 0, 0⟩

/-- Hold the contributions in flight of a table. -/
def setFlow (s : State) (t : Nat) (x : EmbFlow) : State := { s with flow := SMap.setD s.flow t x ⟨0, 0, 0⟩ }

/-- A tensor instruction of a core by its number. -/
def tiAt (s : State) (slot id : Nat) : Option Ti := (coreAt s slot).tis.find? (fun t => t.id = id)

/-- Replace a tensor instruction of a core. -/
def putTi (s : State) (slot : Nat) (t : Ti) : State :=
  let c := coreAt s slot
  setCore s slot { c with tis := c.tis.map (fun u => if u.id = t.id then t else u) }

/-- A tensor instruction ends in a fault (R434): it is delivered by TENSOR_FAULT_DELIVER, as 256 + its code when an injected
event has caused it. The first fault stands. -/
def tiFault (s : State) (slot id code : Nat) : State :=
  match tiAt s slot id with
  | some t =>
    match t.phase with
    | .faulting _ => s
    | _ =>
      putTi { s with err.inj := false } slot
        { t with phase := .faulting (code + 256 * b2n s.err.inj), out := [], fin := [] }
  | none => s

/-- A load or atomic of a context that waits for tag `tag` has its value, or faults. -/
def loadAnswered (s : State) (slot c tag status : Nat) (data : List Nat) : State :=
  let x := ctxAt s slot c
  match x.loads.find? (fun l => l.tag = some tag) with
  | none => s
  | some l =>
    if status = 0 then
      setCtx s slot c { x with loads := x.loads.map (fun m =>
        if m.tag = some tag then { m with tag := none, value := some (leNat (data.take m.size)) } else m) }
    else
      faultCtx (setCtx s slot c { x with loads := x.loads.filter (fun m => m.tag ≠ some tag) }) slot c
        (AccRes.ofStatus status).fault l.pc l.pc

/-- A store of a context is performed, or faults. -/
def storeAnswered (s : State) (slot c pc status : Nat) : State :=
  let x := ctxAt s slot c
  let s := setCtx s slot c { x with stores := x.stores - 1 }
  if status = 0 then s else faultCtx s slot c (AccRes.ofStatus status).fault pc pc

/-- An access of a tensor instruction's unit is performed, or ends it with a fault. -/
def unitAnswered (s : State) (slot id status : Nat) : State :=
  match tiAt s slot id with
  | some t =>
    let s := putTi s slot { t with owed := t.owed - 1 }
    if status = 0 then s else tiFault s slot id (AccRes.ofStatus status).fault
  | none => s

/-- The block that an owner of a request belongs to; none for a master that no stub stands for. -/
def TagFor.block : TagFor → Option Block
  | .load slot _ => some (.core slot)
  | .store slot _ _ => some (.core slot)
  | .unitRead slot _ _ => some (.core slot)
  | .unitWrite slot _ => some (.core slot)
  | .line cl _ _ => some (.cluster (cl / 4) (cl % 4))
  | .contrib _ => none
  | .host _ _ => none

/-- What a response, or the lack of one, does at the source of a request. One for a block that is out of service is
discarded at its stub (R560). -/
def ownerAnswered (s : State) (tag : Nat) (g : GTag) (status : Nat) (data : List Nat) : State :=
  if (g.owner.block.map (outOfService s)).getD false then
    raiseInt (finc s (.pkg 1) PB1.STUB_DISCARDS) (.pkg 1) 2
  else
  match g.owner with
  | .load slot c => loadAnswered s slot c tag status data
  | .store slot c pc => storeAnswered s slot c pc status
  | .unitRead slot id addr =>
    match tiAt s slot id with
    | some t =>
      if status = 0 then putTi s slot { t with far := SMap.put t.far addr (data.take g.len) }
      else tiFault s slot id (AccRes.ofStatus status).fault
    | none => s
  | .unitWrite slot id => unitAnswered s slot id status
  | .contrib t =>
    let f := flowAt s t
    setFlow s t { f with out := f.out - 1, dropped := f.dropped + b2n (status ≠ 0) }
  | .line cl t a =>
    let e := embAt s cl
    setEmb s cl { e with misses := e.misses.map (fun m =>
      if m.table = t ∧ m.addr = a then { m with back := some (status, data.take 64) } else m) }
  | .host wr len => hostAnswer s wr (AccRes.ofStatus status) (data.take len) len

/-- Complete a tagged request; an unknown tag is an orphan (R496). -/
def tagAnswered (s : State) (tag status : Nat) (data : List Nat) : State :=
  match SMap.find s.gal.tags tag with
  | none => finc s (.pkg 8) PB8.ORPHAN_CPL
  | some g => ownerAnswered { s with gal.tags := SMap.del s.gal.tags tag } tag g status data

/-! ### Routing (R500, R501) -/

/-- The port a packet leaves by in a dimension, unturned: the shorter way, ties to +. -/
def shorter (s : State) (own dst dim : Nat) : Nat :=
  let n := galSize s dim
  let dp := (galCoord s dst dim + n - galCoord s own dim) % n
  if dp ≤ n - dp then 2 * dim else 2 * dim + 1

/-- The class on a link (R501): 1 once the packet crosses the dateline of the dimension. -/
def linkClass (s : State) (p cls : Nat) : Nat :=
  let o := galCoord s (ownNode s) (p / 2)
  if (p % 2 = 0 ∧ o = galSize s (p / 2) - 1) ∨ (p % 2 = 1 ∧ o = 0) then 1 else cls

/-- Queue a packet at an egress port. -/
def enqueuePkt (s : State) (p cls : Nat) (k : Pkt) : State :=
  let g := gportAt s p
  let k := { k with vc := 2 * b2n k.rsp + linkClass s p cls }
  setGport s p { g with txQ := g.txQ ++ [k] }

/-- R500: send a packet on by dimension order, turning it round a link that is down; none where it has no route. `arr` is
the port it arrived on. -/
def routeOnce (s : State) (arr : Option Nat) (k : Pkt) : Option State :=
  if galNodes s ≤ k.dst then none
  else
    match [0, 1, 2].find? (fun d => galCoord s (ownNode s) d ≠ galCoord s k.dst d) with
    | none => none
    | some dim =>
      let same := (arr.map (fun q => decide (q / 2 = dim))).getD false
      let cls := if same then k.vc % 2 else 0
      let k := if same then k else { k with turned := none }
      let p := k.turned.getD (shorter s (ownNode s) k.dst dim)
      if linkUp s p then some (enqueuePkt s p cls k)
      else if k.turned.isSome then none
      else
        let q := Nat.xor p 1
        if linkUp s q then some (enqueuePkt (finc s (.pkg 8) PB8.TURNED) q cls { k with turned := some q })
        else none

/-- The response to a request. -/
def Pkt.answer (s : State) (k : Pkt) (status : Nat) (data : Option (List Nat)) : Pkt :=
  let d := (data.map (galData k.addr)).getD (0, [])
  { opc := if data.isSome then 0x11 else 0x10, vc := 2, turned := none, kind := k.kind, dst := k.src, src := ownNode s,
    dom := k.dom, tag := k.tag, status := status, addr := if data.isSome then k.addr else 0, len := d.1, arg := 0,
    data := d.2 }

/-- Count a packet without a route. -/
def countUnroutable (s : State) : State := raiseInt (finc s (.pkg 8) PB8.UNROUTABLE) (.pkg 8) 6

/-- Send a response on its way; one without a route is discarded (R500). -/
def sendResponse (s : State) (k : Pkt) : State :=
  if k.dst = ownNode s then tagAnswered s k.tag k.status (k.bytes 256)
  else match routeOnce s none k with
    | some s' => s'
    | none => countUnroutable s

/-- Route a packet for another node; a request without a route is answered UNROUTABLE. -/
def routePkt (s : State) (arr : Option Nat) (k : Pkt) : State :=
  match routeOnce s arr k with
  | some s' => if arr.isSome then finc s' (.pkg 8) PB8.FORWARDED else s'
  | none => if k.rsp then countUnroutable s else sendResponse (countUnroutable s) (k.answer s 5 none)

/-! ### Originating requests -/

/-- The lowest free request tag (R496). -/
def freeTag (s : State) : Option Nat := (List.range 4096).find? (fun t => (SMap.find s.gal.tags t).isNone)

/-- The Gallery takes no new request while page B8 is asked to quiesce (R677). -/
def galHolds (s : State) : Bool := fbit s (.pkg 8) HDR.PAGE_CTRL_QUIESCE_REQ

/-- Send a request under a tag. While GAL_CTRL.EN is 0 it is answered UNROUTABLE here (R507). -/
def sendRequest (s : State) (tag : Nat) (owner : TagFor) (len : Nat) (k : Pkt) : State :=
  let s := { s with gal.tags := SMap.put s.gal.tags tag ⟨owner, s.now, k.dst * 2 ^ 48 + k.addr, len⟩ }
  let s := finc s (.pkg 8) PB8.REQ_SENT
  let k := { k with tag := tag, src := ownNode s }
  if ebit s (.pkg 8) PB8.GAL_CTRL_EN then routePkt s none k
  else tagAnswered (countUnroutable s) tag 5 []

/-- A request of a master: its kind (R492), its domain, the global address, opcode, ARG and data. -/
def galRequest (kind dom g opc arg : Nat) (data : List Nat) : Pkt :=
  let d := if data.isEmpty then (0, []) else if opc = 2 ∨ opc = 3 then galData g data else ((data.length + 15) / 16, data)
  { opc := opc, vc := 0, turned := none, kind := kind, dst := g / 2 ^ 48 % 1024, src := 0, dom := dom, tag := 0, status := 0,
    addr := g % 2 ^ 48, len := d.1, arg := arg, data := d.2 }

/-! ### Link state (R480 to R482, R488) -/

/-- Packets with slots in a retry buffer: a flit's body begins them where its SLOT_MAP says so. -/
def retryPackets (r : List (Nat × List Nat)) : Nat :=
  let begun := (r.map (fun e => (bitList 14 (leNat ((e.2.drop 224).take 2))).length)).sum
  match r with
  | e :: _ => begun + b2n (!bit (leNat ((e.2.drop 224).take 2)) 0)
  | [] => 0

/-- Enter a state: a change of link state is flagged, recorded and counted (R482), and a link that goes down loses its
retry buffer and gives back the packets not yet sent (R488), which are returned. -/
def enterState (s : State) (p st : Nat) : State × List Pkt :=
  let was := linkUp s p
  let s := fset s (.pkg 8) (PB8.GP_STATUS_STATE p) st
  let g := { gportAt s p with since := s.now }
  let now_ := st = 5 || st = 6
  let s := if st = 6 then finc s (.pkg 8) (PB8.GP_RETRAINS p) else s
  if was = now_ then (setGport s p g, [])
  else
    let s := recordState (raiseInt s (.pkg 8) p) (.pkg 8) p (b2n now_) (b2n was)
    if now_ then (setGport s p { GPort.idle with since := s.now, lanes := g.lanes }, [])
    else
      let lost := retryPackets g.retry
      let s := finc s (.pkg 8) (PB8.GP_LINK_DOWN p)
      let s := if lost = 0 then s
        else reportErr (raiseInt (fadd s (.pkg 8) (PB8.GP_LOST p) lost) (.pkg 8) 12) (.pkg 8) 0x35 p 0 false
      (setGport s p { GPort.idle with since := s.now, rxQ := g.rxQ }, g.txQ)

/-- Enter a state and route again what had been queued for a link that went down. -/
def toState (s : State) (p st : Nat) : State :=
  let r := enterState s p st
  r.2.foldl (fun s k => routePkt s none { k with turned := none }) r.1

/-- Both enables of a port (R480). -/
def portEnabled (s : State) (p : Nat) : Bool :=
  ebit s (.pkg 8) PB8.GAL_CTRL_EN && ebit s (.pkg 8) (PB8.GP_CTRL p) && !outOfService s .pkg

/-- R480: the enables of the ports after a commit or a reset: a port whose enables are clear is DISABLED; one that was
DISABLED or MISMATCH starts in DETECT. -/
def galEnables (s : State) : State :=
  (List.range 6).foldl (fun s p =>
    if !portEnabled s p then (if gstate s p = 0 then s else toState s p 0)
    else if gstate s p = 0 ∨ gstate s p = 7 then toState s p 1 else s) s

/-- R508: every enabled port trains again after a change of NODE_ID or GAL_TOPO. -/
def galRetrainAll (s : State) : State :=
  (List.range 6).foldl (fun s p => if portEnabled s p then toState s p 1 else s) s

/-- The five lanes named by a set of locked lanes, lowest first. -/
def lanesOf (locked : Nat) : List Nat := bitList 5 locked

/-- R480: in DETECT, every 10 ms, a port sends its pattern; one that sees the peer's on at least four lanes goes to
EQUALISE. -/
def execGalleryDetect (p : Fin 6) (seen : BitVec 5) (s : State) : Host.Outcome State Fault Refusal :=
  if gstate s p.val ≠ 1 ∨ s.now < (gportAt s p.val).since + 10000000 then .next s
  else if (lanesOf seen.toNat).length ≥ 4 then done (toState s p.val 2)
  else .next (setGport s p.val { gportAt s p.val with since := s.now })

/-- R480: equalisation ends: the active lanes are every locked lane, leaving out the highest-numbered lane that failed, or
the highest lane when none did; with fewer than four the port returns to DETECT. -/
def execEqualiseDone (p : Fin 6) (locked : BitVec 5) (s : State) : Host.Outcome State Fault Refusal :=
  let n := p.val
  if gstate s n ≠ 2 then .next s
  else if (lanesOf locked.toNat).length < 4 then done (toState s n 1)
  else
    let out := (([0, 1, 2, 3, 4].filter (fun i => !bit locked.toNat i)).getLast?).getD 4
    let s := fset s (.pkg 8) (PB8.GP_STATUS_LANE_OUT n) out
    let s := fset s (.pkg 8) (PB8.GP_STATUS_SPARE_USED n) (b2n (out ≠ 4))
    done (toState s n 3)

/-- R480: the four lanes are aligned to flit boundaries. -/
def execAlignDone (p : Fin 6) (s : State) : Host.Outcome State Fault Refusal :=
  if gstate s p.val = 3 then done (toState s p.val 4)
  else if gstate s p.val = 6 then done (toState s p.val 5)
  else .next s

/-- R481: the peer's node, port and topology sizes arrive: ACTIVE, or MISMATCH. -/
def execExchange (p : Fin 6) (peerNode : Fin 1024) (peerPort : Fin 6) (x y z : Nat) (s : State) :
    Host.Outcome State Fault Refusal :=
  let n := p.val
  if gstate s n ≠ 4 then .next s
  else
    let s := fset s (.pkg 8) (PB8.GP_STATUS_PEER_PORT n) peerPort.val
    let s := fset s (.pkg 8) (PB8.GP_STATUS_PEER_NODE n) peerNode.val
    if x = galSize s 0 ∧ y = galSize s 1 ∧ z = galSize s 2 ∧ peerNode.val = galNeighbour s n ∧
        peerPort.val = Nat.xor n 1 ∧ galSize s (n / 2) ≠ 1 then done (toState s n 5)
    else done (raiseInt (finc (toState s n 7) (.pkg 8) (PB8.GP_MISMATCH n)) (.pkg 8) 10)

/-- R480: loss of lock or flit alignment on a lane of an ACTIVE port. -/
def execLaneLockLoss (p : Fin 6) (s : State) : Host.Outcome State Fault Refusal :=
  if gstate s p.val = 5 then done (toState s p.val 6) else .next s

/-- R480: a port that is not back within RETRAIN_MS returns to DETECT and its link is down. -/
def execRetrainTimeout (p : Fin 6) (s : State) : Host.Outcome State Fault Refusal :=
  if gstate s p.val = 6 ∧ (gportAt s p.val).since + eget s (.pkg 8) PB8.GAL_RETRAIN_MS * 1000000 ≤ s.now then
    done (toState s p.val 1)
  else .next s

/-! ### Flits (R483 to R490) -/

/-- One byte of the reflected cyclic redundancy check of R484. -/
def crcByte (c b : Nat) : Nat :=
  (List.range 8).foldl (fun c _ => if c % 2 = 1 then Nat.xor (c / 2) 0x82F63B78 else c / 2) (Nat.xor c b)

/-- R484. -/
def flitCrc (bs : List Nat) : Nat := Nat.xor (bs.foldl crcByte 0xFFFFFFFF) 0xFFFFFFFF

/-- Fill up to `n` slots: slots of the packet begun, then a new packet whose slots all have credit; each slot says whether
it begins a packet. -/
def fillSlots : Nat → GPort → GPort × List (Bool × List Nat)
  | 0, g => (g, [])
  | n + 1, g =>
    match g.cur with
    | sl :: rest =>
      let r := fillSlots n { g with cur := rest }
      (r.1, (false, sl) :: r.2)
    | [] =>
      match g.txQ.find? (fun k => decide (k.len + 1 ≤ g.credits.getD k.vc 0)) with
      | none => (g, [])
      | some k =>
        let g := { g with txQ := g.txQ.erase k, credits := setAt g.credits k.vc (g.credits.getD k.vc 0 - (k.len + 1)) }
        match k.slots with
        | [] => (g, [])
        | sl :: rest =>
          let r := fillSlots n { g with cur := rest }
          (r.1, (true, sl) :: r.2)

/-- Bytes 0x10 to 0xFB of a DATA flit. -/
def flitBody (sl : List (Bool × List Nat)) : List Nat :=
  let map_ := (sl.zipIdx.map (fun e => if e.1.1 then 2 ^ e.2 else 0)).sum
  (slotsOf 14 (sl.map Prod.snd).flatten).flatten ++ toLe 2 map_ ++ [sl.length] ++ List.replicate 9 0

/-- A whole flit. -/
def mkFlit (g : GPort) (kind seq : Nat) (body : List Nat) : List Nat :=
  let b := [kind, b2n g.nakDue] ++ toLe 2 seq ++ toLe 2 g.rxSeq ++ [0, 0] ++
    g.freed.flatMap (fun c => toLe 2 (c % 65536)) ++ body
  b ++ toLe 4 (flitCrc b)

/-- R483, R485, R487: the flit a port sends in this flit period, which is the command's answer: a replayed flit first, then
new slots while the retry buffer has room, else NULL. -/
def execFlitTransmit (p : Fin 6) (s : State) : Host.Outcome State Fault Refusal :=
  let n := p.val
  let g := gportAt s n
  let pg := Page.pkg 8
  if gstate s n ≠ 5 then .next s
  else
    let after := fun (g : GPort) => { g with nakDue := false, nakAt := if g.nakDue then some s.now else g.nakAt }
    match g.replay with
    | (q, body) :: rest =>
      let s := finc s pg (PB8.GP_REPLAYS n)
      let s := reportErr s pg 0x34 n 0 false
      let s := setGport s n (after { g with replay := rest })
      done { s with ans := .bytes (mkFlit g 1 q body) }
    | [] =>
      let r := if g.retry.length < 128 then fillSlots 14 g else (g, [])
      if r.2.isEmpty then
        done { setGport s n (after g) with ans := .bytes (mkFlit g 0 0 (List.replicate 236 0)) }
      else
        let body := flitBody r.2
        let g' := { r.1 with retry := r.1.retry ++ [(g.txSeq, body)], txSeq := (g.txSeq + 1) % 4096 }
        let s := finc (setGport s n (after g')) pg (PB8.GP_TX_FLITS n)
        done { s with ans := .bytes (mkFlit g 1 g.txSeq body) }

/-- Drop from a retry buffer everything up to `ack`, where it is held (R485). -/
def ackRetry (ack : Nat) (r : List (Nat × List Nat)) : List (Nat × List Nat) :=
  if r.any (fun e => e.1 = ack) then (r.dropWhile (fun e => e.1 ≠ ack)).drop 1 else r

/-- What a good flit's ACK, NAK and credits do at the sender (R485 to R489). -/
def takeAck (g : GPort) (f : List Nat) : GPort :=
  let w := fun i => leNat ((f.drop i).take 2)
  let cr := (List.range 4).map (fun v => w (8 + 2 * v))
  let gain := (List.range 4).map (fun v => (cr.getD v 0 + 65536 - g.seen.getD v 0) % 65536)
  let retry := ackRetry (w 4 % 4096) g.retry
  { g with retry := retry, replay := if bit (f.getD 1 0) 0 then retry else g.replay.filter (fun e => retry.contains e),
           credits := (List.range 4).map (fun v => g.credits.getD v 0 + gain.getD v 0), seen := cr }

/-- Take one slot of a DATA flit: a slot goes on the packet being received or begins one; a packet that has all its slots
joins the port's received packets. -/
def takeSlot (p : Nat) (g : GPort) (sl : List Nat) : GPort :=
  let asm := g.asm ++ [sl]
  let head := asm.headD []
  let v := head.getD 1 0 % 4
  let g := { g with got := setAt g.got v (g.got.getD v 0 + 1) }
  if asm.length = 1 + head.getD 14 0 % 32 then { g with asm := [], rxQ := g.rxQ ++ [Pkt.ofSlots p asm] }
  else { g with asm := asm }

/-- Whether SLOT_MAP agrees with the packets in flight: a slot begins a packet exactly when none is being received. -/
def mapAgrees (map_ : Nat) : Nat → Nat → List (List Nat) → List (List Nat) → Bool
  | _, _, _, [] => true
  | i, left, asm, sl :: rest =>
    if left = 0 then
      bit map_ i && mapAgrees map_ (i + 1) (sl.getD 14 0 % 32) [sl] rest
    else !bit map_ i && mapAgrees map_ (i + 1) (left - 1) (asm ++ [sl]) rest

/-- R506: a flit with a good check that breaks the link protocol. -/
def flitBreaks (g : GPort) (f : List Nat) : Bool :=
  let kind := f.getD 0 0
  let w := fun i => leNat ((f.drop i).take 2)
  let used := f.getD 0xF2 0
  let sl := ((List.range 14).map (fun i => (f.drop (0x10 + 16 * i)).take 16)).take used
  let left := if g.asm.isEmpty then 0 else 1 + (g.asm.headD []).getD 14 0 % 32 - g.asm.length
  let after := sl.foldl (takeSlot 0) g
  kind > 1 || f.getD 1 0 > 1 || w 4 > 4095 || w 2 > 4095 || w 6 ≠ 0 || ((f.drop 0xF3).take 9).any (· ≠ 0) ||
  (kind = 0 && w 2 ≠ 0) || w 0xF0 > 2 ^ 14 - 1 ||
  (kind = 1 && (used = 0 || used > 14 || w 0xF0 ≥ 2 ^ used || !mapAgrees (w 0xF0) 0 left g.asm sl ||
    (List.range 4).any (fun v => after.got.getD v 0 > g.freed.getD v 0 + 256)))

/-- A NAK falls due (R486). -/
def askNak (s : State) (g : GPort) : GPort := { g with nakDue := true, nakAt := some s.now }

/-- R486, R487, R489, R506: a flit is received on an ACTIVE port. -/
def execFlitReceive (p : Fin 6) (flit : List Byte) (s : State) : Host.Outcome State Fault Refusal :=
  let n := p.val
  let pg := Page.pkg 8
  let f := flit.map BitVec.toNat
  let g := gportAt s n
  if gstate s n ≠ 5 ∨ f.length ≠ 256 then .next s
  else
    let data := f.getD 0 0 ≠ 0
    let seq := leNat ((f.drop 2).take 2)
    if flitCrc (f.take 252) ≠ leNat (f.drop 252) then
      let s := finc s pg (PB8.GP_CRC_ERR n)
      let g := if g.crcFrom + 1000000 ≤ s.now then { g with crcFrom := s.now, crcFails := 1 }
        else { g with crcFails := g.crcFails + 1 }
      let g := { g with bad := true }
      let g := if data && g.nakAt.isNone then askNak s g else g
      let s := setGport s n g
      done (if g.crcFails > eget s pg PB8.GAL_RETRAIN_CRC_THRESH then toState s n 6 else s)
    else if data && g.nakAt.isSome && seq ≠ (g.rxSeq + 1) % 4096 then
      -- discarded until the expected flit comes; its acknowledgements still count
      done (setGport s n (takeAck g f))
    else if data && seq ≠ (g.rxSeq + 1) % 4096 && seq < 4096 then
      let g := takeAck g f
      done (setGport s n (if g.bad then askNak s g else g))
    else if flitBreaks g f then
      let s := finc s pg (PB8.GP_PROTO_ERR n)
      done (toState (setGport s n (askNak s g)) n 6)
    else
      let g := takeAck g f
      if !data then done (setGport s n g)
      else
        let used := f.getD 0xF2 0
        let sl := ((List.range 14).map (fun i => (f.drop (0x10 + 16 * i)).take 16)).take used
        let g := sl.foldl (takeSlot n) { g with rxSeq := seq, nakAt := none, nakDue := false, bad := false }
        done (finc (setGport s n g) pg (PB8.GP_RX_FLITS n))

/-- R486: NAK again after any 2 µs without the expected flit. -/
def execNakRepeat (p : Fin 6) (s : State) : Host.Outcome State Fault Refusal :=
  let g := gportAt s p.val
  match g.nakAt with
  | some t => if gstate s p.val = 5 ∧ t + 2000 ≤ s.now then done (setGport s p.val (askNak s g)) else .next s
  | none => .next s

/-! ### Received packets -/

/-- R506: the request is a bad packet. -/
def Pkt.bad (k : Pkt) : Bool :=
  let n := k.arg + 1
  let span := k.addr % 16 + n
  let slots := (span + 15) / 16
  let ok := match k.opc with
    | 0x01 => decide (k.len = 0) && decide (k.addr % 256 + n ≤ 256)
    | 0x02 => decide (k.len = slots) && decide (k.addr % 256 + n ≤ 256)
    | 0x03 => decide (k.len = slots) && decide (k.addr % 256 + n ≤ 256)
    | 0x04 => decide (k.len = 1) && decide (k.arg < 32) && decide (k.arg % 16 ≤ 6) && decide (k.arg ≠ 0x16)
    | 0x05 => decide (k.len = 1) && decide (k.arg = 0)
    | 0x06 => decide (k.len = 4) && decide (k.arg = 0) && decide (k.addr = 0)
    | 0x07 => decide (k.len = 0) && decide (1 ≤ k.arg) && decide (k.arg ≤ 4) && decide (k.addr % 2 ^ 16 = 0) &&
        decide (k.addr < 2 ^ 24)
    | 0x08 => (decide (k.len = 5) || decide (k.len = 9)) && decide (k.addr = 0)
    | _ => false
  !ok || k.kind > 5 || k.status ≠ 0

/-- Free the slots of a packet taken from a receive channel (R489). -/
def freeSlots (g : GPort) (k : Pkt) : GPort :=
  { g with freed := setAt g.freed k.vc (g.freed.getD k.vc 0 + k.len + 1) }

/-- R500, R506: the oldest packet received on port `p` is taken: routed on, or delivered here, where a bad request is
answered ACCESS. -/
def execGalleryRoute (p : Fin 6) (s : State) : Host.Outcome State Fault Refusal :=
  let g := gportAt s p.val
  match g.rxQ with
  | [] => .next s
  | k :: rest =>
    let s := setGport s p.val (freeSlots { g with rxQ := rest } k)
    if k.dst ≠ ownNode s then done (routePkt s (some p.val) k)
    else if k.rsp then done { s with gal.local_ := s.gal.local_ ++ [k] }
    else if k.bad then
      done (sendResponse (raiseInt (finc s (.pkg 8) PB8.BAD_PKT) (.pkg 8) 11) (k.answer s 2 none))
    else done { s with gal.local_ := s.gal.local_ ++ [k] }

/-- The oldest delivered packet of an opcode. -/
def nextLocal (s : State) (opc : Nat) : Option Pkt := s.gal.local_.find? (fun k => k.opc = opc)

/-- Take a delivered packet. -/
def takeLocal (s : State) (k : Pkt) : State := { s with gal.local_ := s.gal.local_.erase k }

/-- Serve a delivered request with an outcome. -/
def answerPkt (s : State) (k : Pkt) (status : Nat) (data : Option (List Nat)) : State :=
  sendResponse (finc (takeLocal s k) (.pkg 8) PB8.REQ_SERVED) (k.answer s status data)

/-- R496: a CPL reaches its source. -/
def execCpl (s : State) : Host.Outcome State Fault Refusal :=
  match nextLocal s 0x10 with
  | none => .next s
  | some k => done (tagAnswered (takeLocal s k) k.tag k.status [])

/-- R496: a CPL_DATA delivers its data to the request's tag. -/
def execCplData (s : State) : Host.Outcome State Fault Refusal :=
  match nextLocal s 0x11 with
  | none => .next s
  | some k => done (tagAnswered (takeLocal s k) k.tag k.status (k.bytes 256))

/-- R496: a request without a response within GAL_TIMEOUT completes as TARGET_RESET. -/
def execGalleryRequestTimeout (tag : Fin 4096) (s : State) : Host.Outcome State Fault Refusal :=
  match SMap.find s.gal.tags tag.val with
  | none => .next s
  | some g =>
    if s.now < g.start + eget s (.pkg 8) PB8.GAL_TIMEOUT * 1000 then .next s
    else
      let s := raiseInt (finc s (.pkg 8) PB8.TIMEOUTS) (.pkg 8) 7
      let s := reportErr s (.pkg 8) 0x36 0 g.addr false
      done (tagAnswered s tag.val 1 [])

/-- R499: a MSG joins the firmware queue of 64, or is answered DROP. -/
def execMsg (s : State) : Host.Outcome State Fault Refusal :=
  match nextLocal s 0x06 with
  | none => .next s
  | some k =>
    if k.kind ≠ 2 then done (answerPkt s k 2 none)
    else if s.gal.msgs.length < 64 then
      let s := answerPkt s k 0 none
      done (raiseInt { s with gal.msgs := s.gal.msgs ++ [(k.src, k.data.take 64)] } (.pkg 8) 8)
    else done (answerPkt (finc s (.pkg 8) PB8.MSG_DROP) k 6 none)

end Sys2Proof.Machine
end

