-- ==== Sys2Proof/Machine/MemCore.lean ====
section
/-!
DEFINITION. Accesses to memory (R36 to R40, R383, R448 to R463, R622 to R635, R662): where a global address lies, the
checks in their order, error correction, and the bytes. Register addresses are Machine/MemAccess.lean's.
-/

namespace Sys2Proof.Machine

/-! ### Injection in CORRUPT mode (R610) -/

/-- Whether CORRUPT injection of detector `d` is armed on a page; one event of it is then used. -/
def takeCorrupt (s : State) (p : Page) (d : Nat) : Bool × State :=
  if fget s p HDR.INJECT_MODE = 1 ∧ fget s p HDR.INJECT_DETECTOR = d ∧ fget s p HDR.INJECT_COUNT ≠ 0 then
    (true, fset s p HDR.INJECT_COUNT (fget s p HDR.INJECT_COUNT - 1))
  else (false, s)

/-! ### Bit errors of stored words -/

/-- The marks of words with bit errors between two local addresses. -/
def eccIn (s : State) (lo hi : Nat) : List (Nat × Nat) := s.ecc.filter (fun e => decide (lo ≤ e.1) && decide (e.1 < hi))

/-- Mark a word: 1 correctable, 2 uncorrectable, + 4 injected, + 8 corrected and not yet written back. -/
def eccMark (s : State) (a m : Nat) : State := { s with ecc := SMap.setD s.ecc a m 0 }

/-- Firmware is to fence a slot (R601), once. -/
def askFence (s : State) (slot : Nat) : State :=
  if slotFenced s slot || s.err.fenceReq.contains slot then s else { s with err.fenceReq := s.err.fenceReq ++ [slot] }

/-- An uncorrectable line of a slot: four distinct ones since the last L0 ask for a fence (R601). -/
def badLine (s : State) (slot line : Nat) (inj : Bool) : State :=
  let ls := SMap.getD s.err.badLines slot []
  if inj || ls.contains line then s
  else
    let ls := ls ++ [line]
    let s := { s with err.badLines := SMap.put s.err.badLines slot ls }
    if ls.length = 4 then askFence s slot else s

/-- The local address of a scratchpad's byte 0 (physical slot). -/
def spmBase (slot : Nat) : Nat := 2 ^ 44 + slot * 2 ^ 23

/-- The global address of a scratchpad byte, as ERR_ADDR gives it. -/
def spmGlobal (s : State) (slot off : Nat) : Nat :=
  ownNode s * 2 ^ 48 + 2 ^ 44 + (slotLogical s slot).getD 0 * 2 ^ 23 + off

/-- R448: what one marked word does when it is read; whether it is uncorrectable. -/
def spmWordRead (s : State) (slot a m : Nat) : Bool × State :=
  let off := a - spmBase slot
  let p := Page.core slot 8
  let inj := bit m 2
  if m % 4 = 2 then
    let s := raiseInt (fset (finc s p KB8.SPM_ECC_UNCORR) p KB8.SPM_ECC_LINE (off / 128)) p 1
    (true, badLine (reportErr s p 0x02 (off / 128) (spmGlobal s slot off) inj) slot (off / 128) inj)
  else
    let s := raiseInt (finc s p KB8.SPM_ECC_CORR) p 0
    (false, eccMark (reportErr s p 0x01 (off / 128) (spmGlobal s slot off) inj) a (setBits m 3 1 1))

/-- Injected errors of a scratchpad read (R610): the first word read is marked as the armed detector needs. -/
def spmInject (s : State) (slot off : Nat) : State :=
  let a := spmBase slot + off / 8 * 8
  let (c, s) := takeCorrupt s (.core slot 8) 0x01
  let s := if c then eccMark s a (if SMap.getD s.ecc a 0 % 4 = 2 then 6 else 5) else s
  let (u, s) := takeCorrupt s (.core slot 8) 0x02
  if u then eccMark s a 6 else s

/-- Lines that a transfer touches in part (R444). -/
def narrowLines (off len : Nat) : Nat :=
  if len = 0 then 0
  else if off / 128 = (off + len - 1) / 128 then b2n (len < 128)
  else b2n (off % 128 ≠ 0) + b2n ((off + len) % 128 ≠ 0)

/-- Lines that a transfer touches. -/
def linesOf (off len : Nat) : Nat := if len = 0 then 0 else (off + len - 1) / 128 - off / 128 + 1

/-- Read a scratchpad; `inb` for a master other than the core's own. -/
def spmRead (s : State) (slot off len : Nat) (inb : Bool) : AccRes × List Nat × State :=
  let p := Page.core slot 8
  let s := spmInject s slot off
  let s := if narrowLines off len = 0 then s else fadd s p KB8.NARROW (narrowLines off len)
  let s := if inb && len ≠ 0 then fadd s p KB8.REMOTE_RD (linesOf off len) else s
  let lo := spmBase slot + off
  let marks := eccIn s (lo / 8 * 8) (lo + len)
  let r := marks.foldl (fun (acc : Bool × State) e =>
    let w := spmWordRead acc.2 slot e.1 e.2
    (acc.1 || w.1, w.2)) (false, s)
  (if r.1 then .poisoned else .ok, rdBytes s lo len, r.2)

/-- What a write of scratchpad bytes `lo` to `hi - 1` leaves of a mark: a word wholly written, or corrected by the merge, is
good; an uncorrectable one stays so under a narrower write and counts; another word of a written line drops its
write-back (R448, R450). -/
def spmWordWrite (slot lo hi : Nat) (s : State) (e : Nat × Nat) : State :=
  let whole := decide (lo ≤ e.1) && decide (e.1 + 8 ≤ hi)
  let part := decide (e.1 < hi) && decide (lo < e.1 + 8)
  if whole then eccMark s e.1 0
  else if part then
    if e.2 % 4 = 2 then finc s (.core slot 8) KB8.SPM_ECC_UNCORR else eccMark s e.1 0
  else eccMark s e.1 (setBits e.2 3 1 0)

/-- Write a scratchpad. -/
def spmWrite (s : State) (slot off : Nat) (bs : List Nat) (inb : Bool) : State :=
  let p := Page.core slot 8
  let n := bs.length
  let s := if narrowLines off n = 0 then s else fadd s p KB8.NARROW (narrowLines off n)
  let s := if inb && n ≠ 0 then fadd s p KB8.REMOTE_WR (linesOf off n) else s
  let lo := spmBase slot + off
  let marks := if n = 0 then [] else eccIn s (lo / 128 * 128) ((lo + n + 127) / 128 * 128)
  let s := marks.foldl (spmWordWrite slot lo (lo + n)) s
  wrBytes s lo bs

/-- R560: a stub answers a request with TARGET_RESET. -/
def stubAnswered (s : State) : State := finc s (.pkg 1) PB1.STUB_ANSWERS

/-! ### DRAM (R460 to R463, R472) -/

/-- The local address of a die's DRAM. -/
def dramBase (d : Nat) : Nat := d * 2 ^ 34

/-- The logical channel of a byte (R461). -/
def dramChannel (off : Nat) : Nat := Nat.xor (bits off 8 4) (bits off 16 4)

/-- The physical channel that serves a logical one (R460). -/
def dramPhysical (s : State) (d c : Nat) : Nat := if fget s (.die d 5) DB5.DRAM_STATUS_SPARED_CH = c then 16 else c

/-- The physical channel of a byte. -/
def dramPhysAt (s : State) (d off : Nat) : Nat := dramPhysical s d (dramChannel off)

/-- R472: a byte's channel has been marked failed. -/
def dramFailed (s : State) (d off : Nat) : Bool := bit (fget s (.die d 5) DB5.DRAM_STATUS_FAILED) (dramPhysAt s d off)

/-- Some 256-byte granule of a transfer lies in a failed channel. -/
def dramTouchesFailed (s : State) (d off len : Nat) : Bool :=
  fget s (.die d 5) DB5.DRAM_STATUS_FAILED ≠ 0 && len ≠ 0 &&
    (List.range ((off + len - 1) / 256 - off / 256 + 1)).any (fun i => dramFailed s d ((off / 256 + i) * 256))

/-- R463: what one marked burst does when it is read; whether it is uncorrectable. -/
def dramBurstRead (s : State) (d a m : Nat) : Bool × State :=
  let off := a - dramBase d
  let c := dramPhysAt s d off
  let p := Page.die d 5
  let g := ownNode s * 2 ^ 48 + a
  if m % 4 = 2 then
    (true, reportErr (raiseInt (finc s p (DB5.CH_UNCORR c)) p 0) p 0x21 c g (bit m 2))
  else (false, eccMark (reportErr (finc s p (DB5.CH_CORR c)) p 0x20 c g (bit m 2)) a (setBits m 3 1 1))

/-- Injected errors of a DRAM read (R610). -/
def dramInject (s : State) (d off : Nat) : State :=
  let a := dramBase d + off / 32 * 32
  let (c, s) := takeCorrupt s (.die d 5) 0x20
  let s := if c then eccMark s a (if SMap.getD s.ecc a 0 % 4 = 2 then 6 else 5) else s
  let (u, s) := takeCorrupt s (.die d 5) 0x21
  if u then eccMark s a 6 else s

/-- Read DRAM. -/
def dramRead (s : State) (d off len : Nat) : AccRes × List Nat × State :=
  if outOfService s (.die d) then (.targetReset, [], stubAnswered s)
  else if dramTouchesFailed s d off len then (.targetReset, [], s)
  else
    let s := dramInject s d off
    let lo := dramBase d + off
    let r := (eccIn s (lo / 32 * 32) (lo + len)).foldl (fun (acc : Bool × State) e =>
      let w := dramBurstRead acc.2 d e.1 e.2
      (acc.1 || w.1, w.2)) (false, s)
    (if r.1 then .poisoned else .ok, rdBytes s lo len, r.2)

/-- What a write leaves of a burst's mark: a whole burst, or one corrected by the merge, is good (R461, R463). -/
def dramBurstWrite (lo hi : Nat) (s : State) (e : Nat × Nat) : State :=
  if (lo ≤ e.1 ∧ e.1 + 32 ≤ hi) ∨ e.2 % 4 ≠ 2 then eccMark s e.1 0 else s

/-- Write DRAM. -/
def dramWrite (s : State) (d off : Nat) (bs : List Nat) : AccRes × State :=
  if outOfService s (.die d) then (.targetReset, stubAnswered s)
  else if dramTouchesFailed s d off bs.length then (.targetReset, s)
  else
    let lo := dramBase d + off
    let s := (eccIn s (lo / 32 * 32) (lo + bs.length)).foldl (dramBurstWrite lo (lo + bs.length)) s
    (.ok, wrBytes s lo bs)

/-! ### Places (R36 to R40) -/

/-- Where a transfer goes. `bad` is a refusal under R40, with the page that counts it; `down` a target whose stub answers. -/
inductive Place where
  | dram (d off : Nat)
  | spm (slot off : Nat)
  | store (d st off : Nat)
  | reg (a : Nat)
  | host (w x : Nat)
  | far (node : Nat)
  | bad (p : Option Page)
  | down
  deriving DecidableEq, Repr

/-- The bytes of a die's DRAM below the carve-outs (R467). -/
def dramLimit (s : State) (d : Nat) : Nat := min (2 ^ 34) (fget s (.die d 5) DB5.CARVE_BASE * 65536)

/-- The page that counts refusals at a store of region 0x2: its owner's. -/
def storePage (d st : Nat) : Page := .die d (if st ≤ 1 then 2 else if st = 2 then 3 else 4)

/-- Where the `len` bytes at global address `g` lie (R36 to R40). -/
def locate (s : State) (g len : Nat) : Place :=
  if g ≥ 2 ^ 58 then .bad none
  else if g / 2 ^ 48 ≠ ownNode s then .far (g / 2 ^ 48)
  else
    let r := bits g 44 4
    let o := g % 2 ^ 44
    match r with
    | 0 =>
      let d := bits o 34 1
      if o ≥ 2 ^ 35 then .bad none
      else if o % 2 ^ 34 + len > dramLimit s d then .bad (some (.die d 5))
      else .dram d (o % 2 ^ 34)
    | 1 =>
      if o ≥ 2 ^ 28 then .bad none
      else
        match logicalSlot s (bits o 23 5) with
        | none => if o % 2 ^ 23 + len > 0x600000 then .bad none else .down
        | some k =>
          if o % 2 ^ 23 + len > 0x600000 then .bad (some (.core k 8))
          else if outOfService s (.core k) then .down
          else .spm k (o % 2 ^ 23)
    | 2 =>
      let d := bits o 43 1
      let st := bits o 40 3
      if st ≥ 4 then .bad none
      else if o % 2 ^ 40 + len > (if st = 0 then 4 * indexSize else 2 ^ 40) then .bad (some (storePage d st))
      else if outOfService s (.point d) then .down
      else .store d st (o % 2 ^ 40)
    | 3 => if o ≥ 2 ^ 24 then .bad none else .reg o
    | _ => if r < 8 then .bad none else .host (r - 8) o

/-- Count a refusal under R40 at its target. -/
def refuse (s : State) (p : Option Page) : State := match p with | some q => viol s q | none => s

/-! ### Host windows (R504, R653, R662) -/

/-- The PCI Express address of a window access, when this package is a gateway that may serve the requester's node. -/
def hostTarget (s : State) (rq : Requester) (w x len : Nat) : Option Nat :=
  let p := Page.pkg 7
  let near := match rq.node with | none => true | some n => decide (n / 64 = ownNode s / 64)
  if fbit s p PB7.PCIE_STATUS_LINK_UP && near && !inD3 s && ebit s p (PB7.OUTWIN_ATTR_VALID w) &&
      decide (x + len ≤ eget s p (PB7.OUTWIN_SIZE_M1 w) * 4096 + 4096) then
    some (eget s p (PB7.OUTWIN_BASE_LO w) * 4096 + eget s p (PB7.OUTWIN_BASE_HI w) * 2 ^ 32 + x)
  else none

/-! ### Reads and writes -/

/-- Bytes of a store: the index is the Hall's, the others lie in memory. -/
def storeBytes (s : State) (d st off len : Nat) : List Nat :=
  if st = 0 then
    (List.range len).map (fun i => bits (indexAt s d ((off + i) / 4)) (8 * ((off + i) % 4)) 8)
  else rdBytes s (2 * 2 ^ 44 + d * 2 ^ 43 + st * 2 ^ 40 + off) len

/-- R143: an aligned 4-byte write of a FEATURE_SLOT. -/
def isFeatureSlot (s : State) (d st off len : Nat) : Bool :=
  st = 1 && len = 4 &&
    (List.range 4).any (fun sl =>
      let base := slotBase s d sl % 2 ^ 40 + 0x100000
      decide (base ≤ off) && decide (off < base + 0x4000000) && (off - base) % 32 = 0x18)

/-- The slot whose own master makes an access; its accesses are not inbound. -/
abbrev Own := Option Nat

/-- Read `len` bytes at `g` as a master; `own` is the slot whose thread or unit reads. Registers and other nodes are not
served here. -/
def coreRead (s : State) (rq : Requester) (own : Own) (g len : Nat) : AccRes × List Nat × State :=
  match locate s g len with
  | .bad p => (.refused, [], refuse s p)
  | .down => (.targetReset, [], stubAnswered s)
  | .far _ => (.need g len, [], s)
  | .reg _ => (.refused, [], s)
  | .dram d off =>
    if !inboundOk s rq then (.denied, [], deny s (.pkg 9) rq false g)
    else if !dramAllows s d off len rq true false then (.denied, [], deny s (.die d 7) rq false g)
    else dramRead s d off len
  | .spm k off =>
    if !inboundOk s rq then (.denied, [], deny s (.pkg 9) rq false g)
    else if !spmAllows s k off len rq true false then (.denied, [], deny s (.core k 11) rq false g)
    else spmRead s k off len (own ≠ some k)
  | .store d st off =>
    if !inboundOk s rq then (.denied, [], deny s (.pkg 9) rq false g)
    else if !storeAllows s d st rq true false then (.denied, [], deny s (.die d 7) rq false g)
    else (.ok, storeBytes s d st off len, s)
  | .host w x =>
    match hostTarget s rq w x len with
    | none => (.refused, [], viol s (.pkg 7))
    | some a =>
      if !inboundOk s rq || !hostWinAllows s w rq true false then (.denied, [], deny s (.pkg 9) rq false g)
      else (.ok, rdHostBytes s a len, s)

/-- Bytes `off` to `off + len - 1` share a line with a range. -/
def Range.meets (r : Range) (off len : Nat) : Bool :=
  len ≠ 0 && decide (r.start * 128 < off + len) && decide (off < (r.start + r.lines) * 128)

/-- The ranges entered at a core's scoreboard, held sets included (R397, R402). -/
def entries (s : State) (slot : Nat) : List Range :=
  (coreAt s slot).tis.flatMap Ti.ranges ++ (coreAt s slot).kept.map Kept.range

/-- R403, R404: whether the line of an access lies in any entered range. -/
def lineEntered (s : State) (slot off len : Nat) : Bool := (entries s slot).any (fun r => r.meets off len)

/-- R403: whether the line of an access lies in the write range of an entered instruction. -/
def lineWritten (s : State) (slot off len : Nat) : Bool := (entries s slot).any (fun r => r.wr && r.meets off len)

/-- R404: a write or atomic of another master waits while its line lies in an entered range, behind a held write to one of
its lines, or while 64 writes are held. -/
def mustWait (s : State) (slot off len : Nat) : Bool :=
  lineEntered s slot off len || decide ((coreAt s slot).inbound.length ≥ 64) ||
    (coreAt s slot).inbound.any (fun w =>
      (⟨w.off / 128, linesOf w.off w.data.length, false, true, false⟩ : Range).meets off len)

/-- Write bytes at `g` as a master. A write from another master to a scratchpad whose line lies in an entered range is held:
`wait`. -/
def coreWrite (s : State) (rq : Requester) (own : Own) (g : Nat) (bs : List Nat) : AccRes × State :=
  let len := bs.length
  match locate s g len with
  | .bad p => (.refused, refuse s p)
  | .down => (.targetReset, stubAnswered s)
  | .far _ => (.need g len, s)
  | .reg _ => (.refused, s)
  | .dram d off =>
    if !inboundOk s rq then (.denied, deny s (.pkg 9) rq true g)
    else if !dramAllows s d off len rq false true then (.denied, deny s (.die d 7) rq true g)
    else dramWrite s d off bs
  | .spm k off =>
    if !inboundOk s rq then (.denied, deny s (.pkg 9) rq true g)
    else if !spmAllows s k off len rq false true then (.denied, deny s (.core k 11) rq true g)
    else if own ≠ some k && mustWait s k off len then (.wait, s)
    else (.ok, spmWrite s k off bs (own ≠ some k))
  | .store d st off =>
    if !isFeatureSlot s d st off len then (.refused, viol s (storePage d st))
    else if !inboundOk s rq then (.denied, deny s (.pkg 9) rq true g)
    else if !storeAllows s d st rq false true then (.denied, deny s (.die d 7) rq true g)
    else (.ok, wrBytes s (2 * 2 ^ 44 + d * 2 ^ 43 + st * 2 ^ 40 + off) bs)
  | .host w x =>
    match hostTarget s rq w x len with
    | none => (.refused, viol s (.pkg 7))
    | some a =>
      if !inboundOk s rq || !hostWinAllows s w rq false true then (.denied, deny s (.pkg 9) rq true g)
      else (.ok, wrHostBytes s a bs)

/-- The new word of an atomic (R390, R422) or, for code 7, of an FP32 maximum (R317): operation code, width in bytes, old
word, operand, comparand. -/
def amoResult (op size old opnd cmp : Nat) : Nat :=
  let w := 8 * size
  let o := opnd % 2 ^ w
  match op with
  | 0 => (old + o) % 2 ^ w
  | 1 => if sext w o < sext w old then o else old
  | 2 => if sext w old < sext w o then o else old
  | 3 => min old o
  | 4 => max old o
  | 5 => if old = cmp % 2 ^ w then o else old
  | 6 => f32add old o
  | _ => f32max old o

/-- An atomic (R390, R391): regions 0x0 and 0x1 only, reading and writing in one step; the old word. -/
def coreAmo (s : State) (rq : Requester) (own : Own) (op size g opnd cmp : Nat) : AccRes × Nat × State :=
  match locate s g size with
  | .bad p => (.refused, 0, refuse s p)
  | .down => (.targetReset, 0, stubAnswered s)
  | .far _ => (.need g size, 0, s)
  | .reg _ => (.refused, 0, s)
  | .host _ _ => (.refused, 0, viol s (.pkg 7))
  | .store d st _ => (.refused, 0, viol s (storePage d st))
  | .dram d off =>
    if !inboundOk s rq then (.denied, 0, deny s (.pkg 9) rq true g)
    else if !dramAllows s d off size rq true true then (.denied, 0, deny s (.die d 7) rq true g)
    else
      let r := dramRead s d off size
      let old := leNat r.2.1
      match r.1 with
      | .ok =>
        let w := dramWrite r.2.2 d off (toLe size (amoResult op size old opnd cmp))
        (w.1, old, w.2)
      | e => (e, 0, r.2.2)
  | .spm k off =>
    if !inboundOk s rq then (.denied, 0, deny s (.pkg 9) rq true g)
    else if !spmAllows s k off size rq true true then (.denied, 0, deny s (.core k 11) rq true g)
    else if own ≠ some k && mustWait s k off size then (.wait, 0, s)
    else
      let inb := own ≠ some k
      let r := spmRead s k off size inb
      let old := leNat r.2.1
      match r.1 with
      | .ok => (.ok, old, spmWrite r.2.2 k off (toLe size (amoResult op size old opnd cmp)) inb)
      | e => (e, 0, r.2.2)

end Sys2Proof.Machine
end

