-- ==== Sys2Proof/Machine/ResetEffects.lean ====
section
/-!
DEFINITION. What an episode and a release do to the state of a block (R245, R370, R393, R404, R447, R465, R480, R547 to
R552, R578, R702), and the boot state that resets and links share.
-/

namespace Sys2Proof.Machine

/-! ### Boot state -/

/-- The page of boot and recovery. -/
def bootPage : Page := .pkg 13

/-- BOOT_DONE. -/
def bootDone (s : State) : Bool := fbit s bootPage PB13.BOOT_STATUS_BOOT_DONE

/-- Recovery mode. -/
def inRecovery (s : State) : Bool := fbit s bootPage PB13.BOOT_STATUS_RECOVERY

/-- BOOT_PHASE (R572). -/
def bootPhase (s : State) : Nat := fget s bootPage PB13.BOOT_STATUS_BOOT_PHASE

/-- Set BOOT_PHASE. -/
def setPhase (s : State) (n : Nat) : State := fset s bootPage PB13.BOOT_STATUS_BOOT_PHASE n

/-- The boot source pins sampled at the last start. -/
def bootsel (s : State) : Nat := fget s (.pkg 1) PB1.PIN_STATE_BOOTSEL

/-- The boot timer stops counting (R570, R702). -/
def pauseBoot (s : State) : State :=
  match s.boot.timerFrom with
  | some t => { s with boot.timerFrom := none, boot.timerRun := s.boot.timerRun + (s.now - t) }
  | none => s

/-- The boot timer counts on: it runs during a start, but not while WAIT_HOST is set (R570) or SUPPLY_WARN_N is low
(R702). -/
def resumeBoot (s : State) : State :=
  if s.boot.starting && s.boot.timerFrom.isNone && !s.sup.pinLow && !fbit s bootPage PB13.BOOT_STATUS_WAIT_HOST then
    { s with boot.timerFrom := some s.now }
  else s

/-- R570: WAIT_HOST is set once the link is up, and the boot timer pauses. -/
def waitHost (s : State) : State :=
  pauseBoot (raiseInt (fsetb s bootPage PB13.BOOT_STATUS_WAIT_HOST true) bootPage 1)

/-- The PCI Express link is up. -/
def pcieUp (s : State) : Bool := fbit s (.pkg 7) PB7.PCIE_STATUS_LINK_UP

/-- The start has come to the point where the host must supply the image (R565, R570). -/
def hostTurn (s : State) : Bool :=
  s.boot.starting && !inRecovery s && (bootsel s = 1 || (bootsel s = 2 && s.boot.flashFailed)) &&
    decide (4 ≤ bootPhase s ∧ bootPhase s ≤ 5)

/-- Set WAIT_HOST when it is the host's turn and the link is up. -/
def maybeWaitHost (s : State) : State :=
  if hostTurn s && pcieUp s && !fbit s bootPage PB13.BOOT_STATUS_WAIT_HOST then waitHost s else s

/-- The clocks of the package and of both dies are all good. -/
def allClocksGood (s : State) : Bool :=
  [Clk.aclk 0, .aclk 1, .fclk 0, .fclk 1, .pclk 0, .pclk 1, .kclk 0, .kclk 1, .tclk, .xclk].all
    (fun c => s.rst.clkGood.contains c)

/-- A start that waited for its clocks goes on: to DRAM training after L0, else to the image (R572). -/
def onClocks (s : State) : State :=
  if s.boot.starting && bootPhase s = 0 && allClocksGood s then
    maybeWaitHost (setPhase s (if fget s (.pkg 1) PB1.RST_STATUS_LAST_LEVEL = 0 then 3 else 4))
  else s

/-- A control core of the die runs (R515). -/
def ccRunning (s : State) (d : Nat) : Bool := fget s (.die d 9) DB9.CC_STATUS_RUNNING ≠ 0 && !inReset s (.cc d)

/-- The causes of the bypass are looked at again after a change of supply (R113). -/
def onSupplyChange (s : State) : State := bypassUpdate s

/-- R531 step 1: recorded and counted; classes 2 and 3 are held on every core. -/
def supplyStep1 (s : State) : State :=
  let s := record s (.pkg 6) 0x09 0 1 0 0
  let s := raiseInt (finc (fsetb s (.pkg 6) PB6.LED_STATUS_SUPPLY_PENDING true) (.pkg 6) PB6.SUPPLY_EVENTS) (.pkg 6) 4
  { s with sup.step1 := some s.now, sup.due := true }

/-- R702: at a start with SUPPLY_WARN_N low, step 1 of R531 begins again. -/
def onStartSupplyLow (s : State) : State := supplyStep1 s

/-- FAULT_LATCH bits 2 and 3 set again while a logical core is vacant or a DRAM channel failed (R595). -/
def latchVacant (s : State) : State :=
  let vacant := (List.range 32).any (fun n => (logicalSlot s n).isNone)
  let failed := [0, 1].any (fun d => fget s (.die d 5) DB5.DRAM_STATUS_FAILED ≠ 0)
  let s := if vacant && !bit (rawWord s (.pkg 10) 0x54) 2 then latchFault s 2 else s
  if failed && !bit (rawWord s (.pkg 10) 0x54) 3 then latchFault s 3 else s

/-! ### Engine groups -/

/-- A group with nothing held. -/
def Group.idle : Group := ⟨none, [], none, 0, none, [], none, [], [], 0, []⟩

/-- A slot's engine group. -/
def grpAt (s : State) (slot : Nat) : Group := SMap.getD s.grp slot Group.idle

/-- Hold a slot's engine group. -/
def setGrp (s : State) (slot : Nat) (g : Group) : State := { s with grp := SMap.setD s.grp slot g Group.idle }

/-- R246: the output lines of a discarded pass hold undefined values: each byte of them takes a free value. -/
def freeOutput (slot : Nat) (s : State) (f : Flight) : State :=
  f.writes.foldl (fun s w => tickFree (wrByte s (spmBase slot + w.1) (Config.freeByte s.free).toNat)) s

/-- Picojoules that leave COMMIT (R520). -/
def uncommit (s : State) (pj : Nat) : State := { s with led.commit := s.led.commit - pj }

/-- R245, R247: discard every pass in flight, any open chain and, with `next`, the next pass, and queue them to be issued
again in their order, under the held set that stood before the first of them. -/
def reissueAll (s : State) (slot : Nat) (next : Bool) : State :=
  let g := grpAt s slot
  let s := g.flight.foldl (fun s f => uncommit (freeOutput slot s f) f.est) s
  let ids := g.flight.map Flight.id
  let nx := match g.next with | some n => if next then [n.id] else [] | none => []
  let again := ids ++ (nx ++ g.again).filter (fun i => !ids.contains i)
  let s := match g.next with | some n => if next && n.admitted then uncommit s n.est else s | none => s
  let g := match g.flight with | f :: _ => { g with held := f.before, sets := f.setsBefore } | [] => g
  let s := setGrp s slot { g with flight := [], chain := none, next := if next then none else g.next, again := again,
                                  prev := none }
  if ids.isEmpty then s else raiseInt s (.core slot 3) 1

/-- Every pass of a group is discarded and not issued again (R245). -/
def dropGroup (s : State) (slot : Nat) : State :=
  let g := grpAt s slot
  let s := g.flight.foldl (fun s f => uncommit (freeOutput slot s f) f.est) s
  let s := match g.next with | some n => if n.admitted then uncommit s n.est else s | none => s
  { s with grp := SMap.del s.grp slot }

/-! ### What an episode ends -/

/-- A request of a slot, or of context `c` of it. -/
def TagFor.of (o : TagFor) (slot : Nat) (c : Option Nat) : Bool :=
  match o with
  | .load n k => n = slot && (c.map (fun i => decide (i = k))).getD true
  | .store n k _ => n = slot && (c.map (fun i => decide (i = k))).getD true
  | .unitRead n _ _ => n = slot && c.isNone
  | .unitWrite n _ => n = slot && c.isNone
  | _ => false

/-- A held write of a slot, or of context `c` of it. -/
def Inbound.of (w : Inbound) (slot : Nat) (c : Option Nat) : Bool :=
  (match w.thread with
   | some (k, _) => decide (k / 2048 = slot) && (c.map (fun i => decide (i = k % 2048))).getD true
   | none => false) ||
  (match w.unit with | some (n, _) => decide (n = slot) && c.isNone | none => false)

/-- Answers still to come for a slot whose contexts are gone, or for one context freed, do nothing more: they are kept for
instruction 0, which no core gives out. -/
def disown (s : State) (slot : Nat) (c : Option Nat) : State :=
  { s with
    gal.tags := s.gal.tags.map (fun e => if e.2.owner.of slot c then (e.1, { e.2 with owner := .unitWrite slot 0 }) else e),
    core := s.core.map (fun e => (e.1, { e.2 with inbound := e.2.inbound.map (fun w =>
      if w.of slot c then { w with thread := none, unit := some (slot, 0) } else w) })) }

/-- R404: the writes held at a scratchpad are answered TARGET_RESET, and none is performed. -/
def dropInbound (s : State) (slot : Nat) : State :=
  let c := coreAt s slot
  let s := setCore s slot { c with inbound := [] }
  c.inbound.foldl (fun s w =>
    let s := finc s (.pkg 1) PB1.STUB_ANSWERS
    match w.thread, w.unit, w.reply with
    | some (k, pc), _, _ => storeAnswered s (k / 2048) (k % 2048) pc 1
    | none, some (u, id), _ => unitAnswered s u id 1
    | none, none, some (node, tag) =>
      sendResponse s { opc := 0x10, vc := 2, turned := none, kind := 0, dst := node, src := ownNode s, dom := 0, tag := tag,
                       status := 1, addr := 0, len := 0, arg := 0, data := [] }
    | none, none, none => hostAnswer s true .targetReset [] 0) s

/-- The contexts of a slot become FREE (R370). -/
def freeContexts (s : State) (slot : Nat) : State :=
  { s with ctx := s.ctx.filter (fun e => e.1 / 2048 ≠ slot) }

/-- Segments of a rulebook that die `d` has still to build: the treads of the frame whose home it is (R178, R194), none
once its part has been abandoned. -/
def unbuiltOn (r : Rb) (d : Nat) : List Nat :=
  (List.range (16 * 2 ^ r.code)).filter (fun k => homeDie r.code k = d && !r.built.contains k && !r.gone.contains d)

/-- A rulebook slot area of a frame on a die (R193): region 0x2 store 2. -/
def rbArea (s : State) (d f : Nat) : Nat :=
  (2 * 2 ^ 44 + d * 2 ^ 43 + 2 * 2 ^ 40) +
    (fget s (.die d 3) DB3.RB_STORE_LO + fget s (.die d 3) DB3.RB_STORE_HI * 2 ^ 32) % 2 ^ 40 +
    f % 4 * (fget s (.die d 3) DB3.RB_SLOT_SIZE * 65536)

/-- The header of a rulebook on a die (R194). -/
def rbHeader (s : State) (d : Nat) (r : Rb) : Nat := rbArea s d r.frame + r.off.getD d 0

/-- Set a flag of a rulebook header on a die (R194): COMPLETE 0, OVERFLOW 1, GRID_FULL 2, DEGRADED 3, ABANDONED 4. -/
def rbFlag (s : State) (d : Nat) (r : Rb) (b : Nat) : State :=
  let a := rbHeader s d r + 14
  wrByte s a (setBits (rdByte s a) b 1 1)

/-- R200, R552: a die's part of every rulebook that it has not finished is abandoned: its segments are built no more, the
rulebook notifies no more, and it counts at the other die's builder, whose registers stand. -/
def abandonBuilds (s : State) (d : Nat) : State :=
  let hit := fun (r : Rb) => !(unbuiltOn r d).isEmpty
  let rs := s.bld.rbs.filter hit
  let s := { s with bld.ready := SMap.del s.bld.ready d,
                    bld.rbs := s.bld.rbs.map (fun r => if hit r then { r with targets := [], gone := r.gone ++ [d] } else r) }
  let s := rs.foldl (fun s r => rbFlag s (1 - d) r 4) s
  if rs.isEmpty then s else raiseInt (fadd s (.die (1 - d) 3) DB3.ABANDONED rs.length) (.die (1 - d) 3) 3

/-- R209: a request at a distance engine is abandoned and its instruction retires. -/
def abandonNbr (s : State) (d : Nat) : State :=
  let gone := s.nbr.filter (fun q => q.die = d)
  let s := { s with nbr := s.nbr.filter (fun q => q.die ≠ d) }
  gone.foldl (fun s q =>
    let s := raiseInt (finc s (.die d 4) DB4.ABANDONED) (.die d 4) 3
    match tiAt s q.slot q.id with
    | some t =>
      let s := if t.w3 = 0xFFFFFFFF ∨ t.w3 + 32 > 0x600000 then s else spmWrite s q.slot t.w3 [2] false
      putTi s q.slot { t with phase := .retiring }
    | none => s) s

/-- What block `b` held in flight when its episode starts. -/
def onEpisodeStart (s : State) (b : Block) : State :=
  match b with
  | .eng n => if (blockState s b).level = 5 then reissueAll s n true else dropGroup s n
  | .core n =>
    let s := disown (freeContexts (dropInbound (dropGroup s n) n) n) n none
    { s with core := SMap.del s.core n }
  | .cluster d c =>
    let e := embAt s (d * 4 + c)
    setEmb s (d * 4 + c) { EmbUnit.idle with upd := e.upd }
  | .cc d => fset s (.die d 9) DB9.CC_STATUS_RUNNING 0
  | .point d =>
    let s := abandonNbr (abandonBuilds s d) d
    -- the other die's open frames carry HALL_DOWN (R552)
    let s := (hallAt s d).slots.foldl (fun s e => if e.2.landed then s else flagSlot s (1 - d) e.2.frame 7) s
    { s with front := SMap.del s.front d, hall := SMap.del s.hall d }
  | .die d => fsetb (fset s (.die d 5) DB5.DRAM_STATUS_SPARING 0) (.die d 5) DB5.DRAM_STATUS_SELF_REFRESH true
  | .pcie =>
    { fsetb (fset s (.pkg 7) PB7.PCIE_STATUS_SPEED 0) (.pkg 7) PB7.PCIE_STATUS_LINK_UP false with
      msix := ⟨BitVec.allOnes 64, 0#64, 0#64, [], s.msix.sent⟩ }
  | .tap => { s with jtag := ⟨0x02#8, [], false, 0#32, false, false, 0⟩ }
  | .pkg =>
    let s := (List.range 6).foldl (fun s p => if gstate s p = 0 then s else (enterState s p 0).1) s
    bypassUpdate { s with gal := { s.gal with tags := [], local_ := [], msgs := [] } }

/-- R551: the gradient lines of a cluster's update buffer, lost by its episode. -/
def lostGradients (s : State) (b : Block) : Nat × State :=
  match b with
  | .cluster d c =>
    let e := embAt s (d * 4 + c)
    (e.upd.length, setEmb s (d * 4 + c) { e with upd := [] })
  | _ => (0, s)

/-! ### What a release does -/

/-- R548, R466, R470, R472, R21: a field that keeps its value through an episode at a level. -/
def keeps (p : Page) (level : Nat) (off : Nat) (r : RegRow) : Bool :=
  r.rst = .alwaysOn || (r.rst = .firmware && level ≥ 2) ||
    (match p with
     | .pkg 2 => level ≥ 1
     | .pkg 5 => level ≥ 1 && (off = 0x40 || off = 0x44)
     | .pkg 0 => level ≥ 2
     | .die _ 5 => level ≥ 1 && (off = 0x48 || off = 0x44 || (off ≥ 0x100 && off % 16 = 12))
     | .cl _ _ 0 => level ≥ 2 && off = 0x44
     | .cl _ _ 3 => level ≥ 2 && off = 0x44
     | .cl _ _ _ => false
     | _ => false)

/-- A word of a page after its release. -/
def releasedWord (s : State) (p : Page) (level off w : Nat) : Nat :=
  (rowsAt p off).foldl (fun acc r =>
    let v := if keeps p level off r then bits w r.fld.lo r.fld.w else bits (resetField s.fuse p off r) 0 r.fld.w
    acc + v * 2 ^ r.fld.lo) 0

/-- R550: a page returns to its reset values and loses its captured set. -/
def flushPage (level : Nat) (s : State) (p : Page) : State :=
  let b := pageBase p
  let flush := fun (m : List (Nat × Word)) => m.filterMap (fun (e : Nat × Word) =>
    if e.1 < b ∨ b + 0x1000 ≤ e.1 then some e
    else
      let w := releasedWord s p level (e.1 - b) e.2.toNat
      if w = resetWord s.fuse p (e.1 - b) then none else some (e.1, BitVec.ofNat 32 w))
  { s with reg := { s.reg with regs := flush s.reg.regs, eff := flush s.reg.eff, captured := SMap.del s.reg.captured b,
                               hiLatch := s.reg.hiLatch.filter (fun e => e.1 < b || b + 0x1000 ≤ e.1) } }

/-- R447: the scratchpad of a slot is written to zero; CLEARING reads 1 until the clear is done. -/
def clearSpm (s : State) (slot : Nat) : State :=
  let lo := spmBase slot
  let out := fun (a : Nat) => decide (a < lo) || decide (lo + 2 ^ 23 ≤ a)
  let s := { s with mem := s.mem.filter (fun c => out c.1), ecc := s.ecc.filter (fun e => out e.1) }
  fsetb s (.core slot 8) KB8.SPM_STATUS_CLEARING true

/-- R636: the windows, SPM_DEFAULT and LOCK of a slot's B11 page load from its die's template. -/
def loadTemplate (s : State) (slot : Nat) : State :=
  let p := Page.core slot 11
  let q := Page.die (slotDie slot) 7
  let ws := (0x58, 0x80) :: (0x5C, 0x84) :: (List.range 32).map (fun i => (0x100 + 4 * i, 0x200 + 4 * i))
  let s := ws.foldl (fun s w =>
    let v := effWord s q w.2
    let s := if rawWord s p w.1 = v then s else putWord s p w.1 v
    if effWord s p w.1 = v then s
    else { s with reg.eff := SMap.put s.reg.eff (pageBase p + w.1) (BitVec.ofNat 32 v) }) s
  if fbit s q DB7.ACC_CTRL_TPL_LOCK then fsetb s p KB11.ACC_CTRL true else s

/-- R465, R547: L0 loses the contents of a die's DRAM, its stores included, and its bit errors. -/
def loseDram (s : State) (d : Nat) : State :=
  let out := fun (a : Nat) => !((decide (dramBase d ≤ a) && decide (a < dramBase d + 2 ^ 34)) ||
    (decide (2 * 2 ^ 44 + d * 2 ^ 43 ≤ a) && decide (a < 2 * 2 ^ 44 + (d + 1) * 2 ^ 43)))
  { s with mem := s.mem.filter (fun c => out c.1), ecc := s.ecc.filter (fun e => out e.1) }

/-- The package-common blocks of a release at L1 or L0. -/
def releasePkg (s : State) (level : Nat) : State :=
  let s := { s with stair := Stair.start, trig := [], cap := [], ports := ⟨[], [], [], [], [], if level = 0 then 0 else devSec s.tb.dev, s.ports.sent⟩,
                    led := ⟨0, 0, [], none, 0, 0, false, false, s.tb.dev, [], []⟩,
                    sup := { s.sup with step1 := none, due := false, stopped := false },
                    att := { s.att with quote := none }, mbx := [] }
  if level = 0 then
    { s with tb := TimeBase.start, rst := { s.rst with held := [] }, err := ⟨[], [], [], [], [], [], [], false, 0⟩,
             byp := { s.byp with holdoff := none, failover := [] } }
  else { s with rst := { s.rst with held := [] }, byp := { s.byp with failover := [] } }

/-- The release sequence of a block at the level of its episode (R550, R557). -/
def onRelease (s : State) (b : Block) (level : Nat) : State :=
  let s := (blockPages b).foldl (flushPage level) s
  match b with
  | .core n => clearSpm (loadTemplate s n) n
  | .die d =>
    let s := fsetb s (.die d 5) DB5.DRAM_STATUS_SELF_REFRESH false
    if level = 0 then loseDram s d else s
  | .pkg => bypassUpdate (releasePkg s level)
  | _ => s

/-- R30: at failover the sensor ports, the Gallery and the PCI Express link go down and retrain on d1's lanes, and the
bypass closes meanwhile. -/
def onFailover (s : State) : State :=
  let s := (List.range 4).foldl dropLink { s with byp.failover := [0, 1] }
  let s := (List.range 6).foldl (fun s p => if gstate s p = 0 then s else toState s p 1) s
  let was := pcieUp s
  let s := fsetb s (.pkg 7) PB7.PCIE_STATUS_LINK_UP false
  let s := if was then raiseInt (finc s (.pkg 7) PB7.LINK_DOWN) (.pkg 7) 0 else s
  bypassUpdate s

/-- The blocks that recovery mode holds in reset (R578). -/
def recoveryBlocks : List Block :=
  [0, 1].flatMap (fun d => [Block.die d, .point d] ++ (List.range 4).flatMap (fun c =>
    .cluster d c :: (List.range 5).flatMap (fun k => [Block.core (slotOf d c k), .eng (slotOf d c k)]))) ++ [.cc 1]

/-- R578: recovery mode is entered: control core 0 of d0 alone runs, and the bypass is closed. -/
def onRecovery (s : State) : State :=
  let s := recoveryBlocks.foldl (fun s b =>
    if inReset s b then s else onEpisodeStart (setBlock s b { blockState s b with inReset := true, level := 1 }) b) s
  let s := (List.range 6).foldl (fun s p => if gstate s p = 0 then s else (enterState s p 0).1) s
  bypassUpdate (fset s (.die 0 9) DB9.CC_STATUS_RUNNING 1)

end Sys2Proof.Machine
end

