-- ==== Sys2Proof/Machine/Reset.lean ====
section
/-!
DEFINITION. The reset controller (R547 to R562): sources and their reach, the combination of sources into episodes,
failover (R27 to R30), releases, and the clocks.
-/

namespace Sys2Proof.Machine

/-! ### Coverage -/

/-- Every block of a core slot. -/
def slotBlocks (n : Nat) : List Block := [.core n, .eng n]

/-- Every block of a cluster. -/
def clusterBlocks (d c : Nat) : List Block :=
  .cluster d c :: (List.range 5).flatMap (fun k => slotBlocks (slotOf d c k))

/-- Every block of a die (R547, L2). -/
def dieBlocks (d : Nat) : List Block :=
  [.die d, .point d, .cc d] ++ (List.range 4).flatMap (clusterBlocks d)

/-- The blocks that a source reaches (R547). -/
def targetBlocks (t : Target) (level : Nat) : List Block :=
  match t with
  | .package => [.pkg, .pcie] ++ dieBlocks 0 ++ dieBlocks 1
  | .die d => dieBlocks d
  | .cluster d c => clusterBlocks d c
  | .slot n => if level = 5 then [.eng n] else slotBlocks n
  | .only b => [b]

/-- A source reaches the block. -/
def covers (src : Source) (b : Block) : Bool := (targetBlocks src.target src.level).contains b

/-- The scope of a target in the layout of R555. -/
def targetScope : Target → Nat
  | .package => 0
  | .die d => d * 128
  | .cluster d c => d * 128 + c * 16
  | .slot n => slotDie n * 128 + slotCluster n * 16 + slotK n
  | .only _ => 0

/-- The scope of a block in the layout of R555. -/
def blockScope : Block → Nat
  | .pkg => 0
  | .pcie => 0
  | .tap => 0
  | .die d => d * 128
  | .point d => d * 128
  | .cc d => d * 128
  | .cluster d c => d * 128 + c * 16
  | .core n => pageInstance (.core n 0)
  | .eng n => pageInstance (.core n 0)

/-- A block whose episode is counted and recorded as one of its own (R558 and the worked example of three sources: a slot
with its engine group is one, and so are a cluster, a die and the package-common blocks); otherwise it is part of a wider
block's episode, unless the source names it alone. -/
def ownEpisode (t : Target) (level : Nat) (b : Block) : Bool :=
  match b with
  | .pkg => true
  | .die _ => true
  | .cluster _ _ => true
  | .core _ => true
  | .eng _ => level = 5
  | _ => decide (t = .only b)

/-! ### Episodes -/

/-- R556: a source covers block `b` at `level`: the episode starts, its stub takes over and what the block held in flight
is ended, or the running episode widens. -/
def coverBlock (src : Source) (s : State) (b : Block) : State :=
  let st := blockState s b
  if st.inReset then
    setBlock s b { st with level := min st.level src.level, releasing := false,
                           code := if src.level < st.level then src.code else st.code }
  else
    let s := setBlock s b { st with inReset := true, releasing := false, level := src.level, code := src.code,
                                    episodes := satAdd 8 st.episodes 1,
                                    clkLost := st.clkLost || src.code = 12 }
    let s := onEpisodeStart s b
    if ownEpisode src.target src.level b then
      let s := raiseInt (finc s (.pkg 1) PB1.EPISODES) (.pkg 1) 0
      if src.level ≤ 4 then record s (.pkg 1) 0x04 src.code src.level (blockScope b) 0 else s
    else s

/-- R27, R28, R549: the level and target that a source really takes: an L2 of package scope acts as L1; an L2 on d0 with
MIRROR_OK 0 is raised to L1. -/
def effectiveSource (s : State) (src : Source) : Source :=
  if src.level = 2 ∧ src.target = .package then { src with level := 1 }
  else if src.level = 2 ∧ src.target = .die 0 ∧ !fbit s (.pkg 0) PB0.PKG_STATUS_MIRROR_OK then
    { src with level := 1, target := .package }
  else src

/-- R27, R30: d0 enters reset at L2 with MIRROR_OK 1: the copies on d1 become active; the ports, the Gallery and the PCI
Express link retrain on d1's lanes, and the ring bypass closes meanwhile. -/
def failover (s : State) : State :=
  let s := fsetb (fsetb s (.pkg 0) PB0.PKG_STATUS_FAILED_OVER true) (.pkg 0) PB0.PKG_STATUS_ACTIVE_DIE true
  onFailover (fsetb s (.pkg 0) PB0.PKG_STATUS_MIRROR_OK false)

/-- Assert a source: it is held, failover takes place where R27 asks for it, and every block it reaches starts or widens
its episode. -/
def assertSource (s : State) (src0 : Source) : State :=
  let src := effectiveSource s src0
  let s := { s with rst.sources :=
    (s.rst.sources.filter (fun q => q.code ≠ src.code ∨ q.target ≠ src.target ∨ q.level ≠ src.level ∨ q.tag ≠ src.tag)) ++ [src] }
  let s := if src.level = 2 ∧ src.target = .die 0 then failover s else s
  let s := if src.level = 2 ∧ src.target = .die 1 then fsetb s (.pkg 0) PB0.PKG_STATUS_MIRROR_OK false else s
  let s := if src.level ≤ 1 ∧ src.target = .package then { s with rst.startCode := src.code } else s
  (targetBlocks src.target src.level).foldl (coverBlock src) s

/-- The reach code of a source from the fuse table (R553, R581). -/
def reachCode (s : State) (code : Nat) : Nat :=
  if code < 8 then bits s.fuse.reach0 (3 * code) 3 else bits s.fuse.reach1 (3 * (code - 8)) 3

/-- The block that code 6 BLOCK names for a source. -/
def reachBlock (code : Nat) : Block := if code = 10 then .tap else .pcie

/-- Assert a source at the reach its fuse gives (R553). A BLOCK reach is counted as an episode of level 5 and NONE resets
nothing. -/
def assertFused (s : State) (code : Nat) (scope : Target) (ends : Option Nat) : State :=
  let r := reachCode s code
  if r ≤ 1 then assertSource s ⟨code, r, .package, ends, 0⟩
  else if r ≤ 5 then assertSource s ⟨code, r, scope, ends, 0⟩
  else if r = 6 then assertSource s ⟨code, 5, .only (reachBlock code), ends, 0⟩
  else s

/-- Release every source of a code. -/
def releaseSource (s : State) (code : Nat) : State :=
  { s with rst.sources := s.rst.sources.filter (fun q => q.code ≠ code) }

/-- The block through which a block is reached (R556). -/
def blockParent : Block → Option Block
  | .eng n => some (.core n)
  | .core n => some (.cluster (slotDie n) (slotCluster n))
  | .cluster d _ => some (.die d)
  | .point d => some (.die d)
  | .cc d => some (.die d)
  | _ => none

/-- The clocks that drive a block (R32, R559). -/
def blockClocks : Block → List Clk
  | .pkg => [.tclk, .xclk]
  | .pcie => [.xclk]
  | .tap => []
  | .die d => if d = 0 then [.fclk 0] else [.fclk 1]
  | .point d => if d = 0 then [.pclk 0] else [.pclk 1]
  | .cc d => if d = 0 then [.kclk 0] else [.kclk 1]
  | .cluster d _ => if d = 0 then [.fclk 0] else [.fclk 1]
  | .core n => if slotDie n = 0 then [.aclk 0] else [.aclk 1]
  | .eng n => if slotDie n = 0 then [.aclk 0] else [.aclk 1]

/-- Every CLK_GOOD of the block is 1. -/
def blockClocksGood (s : State) (b : Block) : Bool := (blockClocks b).all (fun c => s.rst.clkGood.contains c)

/-- R556: the block may release: no source covers it, its parent is in service and its clocks are good. -/
def mayRelease (s : State) (b : Block) : Bool :=
  let st := blockState s b
  st.inReset && !st.releasing && s.rst.sources.all (fun q => !covers q b) &&
    !(inRecovery s && recoveryBlocks.contains b) &&
    (match blockParent b with | some q => !inReset s q | none => true) && blockClocksGood s b

/-- R564: a release sequence that has begun ends: the stub withdraws between requests (R561), and the end of an episode
that is the block's own is recorded (R558). A die that released at L2 has its mirror copies out of step until they have
resynchronised (R29). -/
def execReleaseDone (b : Block) (s : State) : Host.Outcome State Fault Refusal :=
  let st := blockState s b
  if st.inReset && st.releasing then
    let s := setBlock s b { st with inReset := false, releasing := false }
    let own := match b with
      | .pkg => true
      | .die _ => true
      | .cluster _ _ => true
      | .core _ => true
      | _ => false
    let (lost, s) := lostGradients s b
    done (if own && decide (st.level ≤ 4) then record s (.pkg 1) 0x05 st.code st.level (blockScope b) lost else s)
  else .next s

/-- R29: after d1 has left reset its copies have resynchronised. -/
def execMirrorResyncDone (s : State) : Host.Outcome State Fault Refusal :=
  if inReset s (.die 1) || fbit s (.pkg 0) PB0.PKG_STATUS_FAILED_OVER || inReset s .pkg then .next s
  else done (fsetb s (.pkg 0) PB0.PKG_STATUS_MIRROR_OK true)

/-! ### Pins and links as sources -/

/-- A filtered change of a reset pin: low asserts its source, high releases it (R553, R554). -/
def pinSource (s : State) (code : Nat) (high : Bool) : State :=
  if high then releaseSource s code else assertFused s code .package none

/-- R553: PORn. -/
def execPornChange (high : Bool) (s : State) : Host.Outcome State Fault Refusal :=
  done (pinSource { s with rst.porN := high } 0 high)

/-- R553: RESETn. -/
def execResetnChange (high : Bool) (s : State) : Host.Outcome State Fault Refusal :=
  done (pinSource { s with rst.resetN := high } 1 high)

/-- R553, R654: PERSTn. -/
def execPerstnChange (high : Bool) (s : State) : Host.Outcome State Fault Refusal :=
  done (pinSource { s with rst.perstN := high } 2 high)

/-- R553, R643: TRSTn resets the test access port, whatever its reach code: IDCODE is selected and nothing is driven. -/
def execTrstnChange (high : Bool) (s : State) : Host.Outcome State Fault Refusal :=
  let s := { s with rst.trstN := high }
  let s := if high then s else { s with jtag.ir := 0x02#8, jtag.driving := false }
  done (pinSource s 10 high)

/-- R553: a PCI Express hot reset, asserted until 2 µs after it. -/
def execPcieHotReset (s : State) : Host.Outcome State Fault Refusal :=
  done (assertFused s 3 .package (some (s.now + 2000)))

/-- R553: a function-level reset request, asserted until 2 µs after it. -/
def execPcieFlr (s : State) : Host.Outcome State Fault Refusal :=
  done (assertFused s 4 .package (some (s.now + 2000)))

/-- R553: the timed assertions that have run out end. -/
def execResetSourceTimer (s : State) : Host.Outcome State Fault Refusal :=
  done { s with rst.sources := s.rst.sources.filter (fun q =>
    match q.ends with | some t => decide (s.now < t) | none => true) }

/-- R553, R710: a supply has been below its threshold for 1 µs: the BROWNOUT source asserts. An absent core supply also
closes the bypass (R113). -/
def execBrownout (r : Rail) (s : State) : Host.Outcome State Fault Refusal :=
  let s := { s with rst.lowRails := if s.rst.lowRails.contains r then s.rst.lowRails else r :: s.rst.lowRails }
  let code := match r with | .core0 => 0 | .core1 => 1 | .sram => 2 | .dram => 3
  let s := reportErr s (.pkg 1) 0x31 code 0 false
  done (onSupplyChange (assertFused s 9 .package none))

/-- R553: 1 ms after a supply has returned; the source releases once no supply is low. -/
def execBrownoutRelease (r : Rail) (s : State) : Host.Outcome State Fault Refusal :=
  let s := { s with rst.lowRails := s.rst.lowRails.filter (fun q => q ≠ r) }
  let s := if s.rst.lowRails.isEmpty then releaseSource s 9 else s
  done (onSupplyChange s)

/-! ### SW_RESET (R555) -/

/-- The target of a level and scope; none where a field is out of range or an unused one is not zero. -/
def swTarget (level scope : Nat) : Option Target :=
  let d := bits scope 7 1; let c := bits scope 4 3; let k := bits scope 0 4
  if level ≤ 1 then (if scope = 0 then some .package else none)
  else if level = 2 then (if c = 0 ∧ k = 0 then some (.die d) else none)
  else if level = 3 then (if c < 4 ∧ k = 0 then some (.cluster d c) else none)
  else if level ≤ 5 then (if c < 4 ∧ k < 5 then some (.slot (slotOf d c k)) else none)
  else none

/-- A refused command counts in VIOL_COUNT and sets SW_REFUSED. -/
def swRefuse (s : State) : State := raiseInt (viol s (.pkg 1)) (.pkg 1) 3

/-- The lowest of the eight ASSERT places that is free. -/
def freeHeld (s : State) : Option Nat := (List.range 8).find? (fun i => (SMap.find s.rst.held i).isNone)

/-- The place of a held pair. -/
def heldAt (s : State) (level scope : Nat) : Option Nat :=
  (s.rst.held.find? (fun e => e.2 = (level, scope))).map (fun e => e.1)

/-- A write of SW_RESET (R555, R581). -/
def swReset (s : State) (cmd level scope : Nat) : State :=
  if cmd = 0 then s
  else match swTarget level scope with
  | none => swRefuse s
  | some t =>
    if cmd = 1 then assertSource s ⟨7, level, t, some (s.now + 1000), 0⟩
    else if cmd = 2 then
      match heldAt s level scope with
      | some _ => s
      | none =>
        match freeHeld s with
        | none => swRefuse s
        | some i =>
          assertSource { s with rst.held := SMap.put s.rst.held i (level, scope) } ⟨7, level, t, none, 1⟩
    else
      match heldAt s level scope with
      | none => swRefuse s
      | some i =>
        { s with rst.held := SMap.del s.rst.held i,
                 rst.sources := s.rst.sources.filter (fun q =>
                   q.code ≠ 7 ∨ q.level ≠ level ∨ q.target ≠ t ∨ q.ends.isSome) }

/-! ### Clocks (R559) -/

/-- A clock's die page B10 and its bit in CLK_GOOD and LOCK (R543). -/
def clkIndex : Clk → Nat
  | .aclk _ => 0
  | .fclk _ => 1
  | .pclk _ => 2
  | .kclk _ => 3
  | .xclk => 4
  | .tclk => 5

/-- A number for each clock. -/
def clkTag : Clk → Nat
  | .aclk d => d.val
  | .fclk d => 2 + d.val
  | .pclk d => 4 + d.val
  | .kclk d => 6 + d.val
  | .tclk => 8
  | .xclk => 9

/-- The sources that a loss of the clock asserts; the tag tells the clock. -/
def clkLossSources (c : Clk) : List Source :=
  match c with
  | .aclk d => (List.range 20).map (fun i => ⟨12, 5, .slot (d.val * 20 + i), none, clkTag c⟩)
  | .fclk d => [⟨12, 2, .die d.val, none, clkTag c⟩]
  | .pclk d => [⟨12, 2, .only (.point d.val), none, clkTag c⟩]
  | .kclk d => [⟨12, 2, .only (.cc d.val), none, clkTag c⟩]
  | .tclk => [⟨12, 1, .package, none, clkTag c⟩]
  | .xclk => [⟨12, 0, .package, none, clkTag c⟩]

/-- R559: CLK_GOOD of a domain falls: counted, recorded, and CLK_LOSS asserted with the clock's reach. -/
def execClkLoss (c : Clk) (s : State) : Host.Outcome State Fault Refusal :=
  if s.rst.clkGood.contains c then
    let s := { s with rst.clkGood := s.rst.clkGood.filter (fun q => q ≠ c) }
    let s := raiseInt (finc s (.pkg 1) PB1.CLK_LOSS_COUNT) (.pkg 1) 1
    let s := reportErr s (.pkg 1) 0x32 (clkIndex c) 0 false
    done ((clkLossSources c).foldl assertSource s)
  else .next s

/-- R559: CLK_GOOD of a domain rises: its CLK_LOSS ends, and releases that waited for it may run. -/
def execClkGoodRise (c : Clk) (s : State) : Host.Outcome State Fault Refusal :=
  if s.rst.clkGood.contains c then .next s
  else
    let s := { s with rst.clkGood := s.rst.clkGood ++ [c] }
    let s := { s with rst.sources := s.rst.sources.filter (fun q => q.code ≠ 12 ∨ q.tag ≠ clkTag c) }
    done (onClocks s)

/-- ACLK of the slot's die is lost: thread engines and scratchpads stand still (R559). -/
def aclkLost (s : State) (n : Nat) : Bool :=
  s.rst.sources.any (fun q => q.code = 12 && q.target = .slot n)

end Sys2Proof.Machine
end

