-- ==== Sys2Proof/Machine/Boot.lean ====
section
/-!
DEFINITION. Starts and releases (R556, R565 to R580, R607, R637, R700), firmware images (R566 to R571), the boot timer
(R576) and the always-on domain (R548, R710).
-/

namespace Sys2Proof.Machine

/-! ### The boot timer -/

/-- What the boot timer has counted, in nanoseconds. -/
def bootElapsed (s : State) : Nat :=
  s.boot.timerRun + (match s.boot.timerFrom with | some t => s.now - t | none => 0)

/-- R576: a start fails: FAIL_CODE, FAIL_COUNT saturating at 15, a record, and the BOOT_TIMER source. -/
def failStart (s : State) (code : Nat) : State :=
  let s := fset s bootPage PB13.BOOT_STATUS_FAIL_CODE code
  let s := fset s bootPage PB13.BOOT_STATUS_FAIL_COUNT (min 15 (fget s bootPage PB13.BOOT_STATUS_FAIL_COUNT + 1))
  let s := { s with boot.starting := false, boot.timerFrom := none }
  assertFused (reportErr s bootPage 0x3A code 0 false) 11 .package (some (s.now + 1000))

/-! ### A start -/

/-- R565, R576 to R578: a start begins: BOOTSEL is sampled, the start is counted, and the part either enters recovery mode
or begins to boot with the boot timer running (paused while SUPPLY_WARN_N is low, R702). -/
def beginStart (s : State) (level : Nat) : State :=
  let s := fset s (.pkg 1) PB1.PIN_STATE_BOOTSEL s.rst.bootselPin
  let s := fset (fset s (.pkg 1) PB1.RST_STATUS_LAST_SOURCE s.rst.startCode) (.pkg 1) PB1.RST_STATUS_LAST_LEVEL level
  let s := finc s bootPage PB13.STARTS
  let s := { s with boot.flashFailed := false, boot.go := false, boot.timerRun := 0, boot.timerFrom := none }
  if fget s bootPage PB13.BOOT_STATUS_FAIL_COUNT ≥ s.fuse.failLimit ∨ s.rst.bootselPin = 3 then
    let s := { s with boot.starting := false }
    let s := setPhase (fsetb s bootPage PB13.BOOT_STATUS_RECOVERY true) 8
    onRecovery (raiseInt s bootPage 3)
  else
    let s := { s with boot.starting := true, boot.timerFrom := if s.sup.pinLow then none else some s.now }
    let s := setPhase s (if allClocksGood s then (if level = 0 then 3 else 4) else 0)
    if s.sup.pinLow then onStartSupplyLow s else s

/-- R556, R557: a block that may release runs the release sequence of its episode's level, once. The release of the
package-common blocks at L1 or L0 is a start. A die that releases at L2 without an accepted image is raised to L1 (R571). -/
def execBlockRelease (b : Block) (s : State) : Host.Outcome State Fault Refusal :=
  if mayRelease s b then
    let st := blockState s b
    match b with
    | .die d =>
      if st.level = 2 ∧ s.boot.image.isNone then
        done (assertSource s ⟨7, 1, .package, some (s.now + 1000), 2⟩)
      else
        let s := onRelease (setBlock s b { st with releasing := true }) b st.level
        done (if st.level = 2 ∧ d < 2 then fset s (.die d 9) DB9.CC_STATUS_RUNNING 15 else s)
    | .pkg =>
      let s := onRelease (setBlock s b { st with releasing := true }) b st.level
      done (if st.level ≤ 1 then beginStart s st.level else s)
    | _ => done (onRelease (setBlock s b { st with releasing := true }) b st.level)
  else .next s

/-! ### Images -/

/-- A little-endian field of an image header (R566). -/
def imgField (img : List Nat) (off n : Nat) : Nat := leNat ((img.drop off).take n)

/-- Bytes `off` to `off + n - 1` are all zero. -/
def imgZero (img : List Nat) (off n : Nat) : Bool := ((img.drop off).take n).all (· = 0)

/-- R567: the first failing check's FAIL_CODE (R573), or none when the image is accepted. -/
def imageCheck (s : State) (img : List Nat) (kind : Nat) : Option Nat :=
  let body := imgField img 0x00C 4
  let key := img.getD 7 0
  let pub := (img.drop 0x40).take 1312
  if img.length < 0x1000 ∨ img.take 4 ≠ [0x49, 0x54, 0x46, 0x57] ∨ imgField img 4 2 ≠ 1 ∨ !imgZero img 0x14 44 ∨
      !imgZero img 0xED4 300 ∨ body % 64 ≠ 0 ∨ body < 64 ∨ body > 1044480 ∨ imgField img 0x10 4 % 4 ≠ 0 ∨
      imgField img 0x10 4 ≥ body ∨ img.length < 0x1000 + body then some 2
  else if key > 3 ∨ sha3_256 pub ≠ (List.range 32).map (fun i => (Config.keyHash key i).toNat) ∨
      bit s.fuse.keyRevoked key ∨ !bit s.fuse.keyPresent key then some 3
  else if imgField img 8 4 < s.fuse.rollbackMin then some 4
  else if !Config.verifies pub (sha3_256 (img.take 0x40 ++ pub ++ (img.drop 0x1000).take body))
      ((img.drop 0x560).take 2420) then some 5
  else if img.getD 6 0 ≠ kind then some 6
  else none

/-- The header and body of an accepted image. -/
def imageBytes (img : List Nat) : List Nat := img.take (0x1000 + imgField img 0x00C 4)

/-- The host image buffer, 1 MiB, as far as it has been written. -/
def hostImage (s : State) : List Nat :=
  let top := s.boot.imgBuf.foldl (fun m c => max m (c.1 + 1)) 0
  (List.range top).map (fun i => (SMap.getD s.boot.imgBuf i 0#8).toNat)

/-- R571, R572, R574: an accepted image is copied to both dies' control cores and DRAM copies, and runs. -/
def acceptImage (s : State) (src : ImageSource) (img : List Nat) : State :=
  let s := fset s bootPage PB13.FW_IMAGE_VERSION (imgField img 8 4)
  let s := fsetb (fsetb (fsetb s bootPage PB13.BOOT_STATUS_SLOT (src = .flashB)) bootPage
    PB13.BOOT_STATUS_FROM_HOST (src = .host)) bootPage PB13.BOOT_STATUS_FROM_COPY
    (match src with | .dramCopy _ => true | _ => false)
  let s := { s with boot.image := some ((imageBytes img).map (BitVec.ofNat 8)), boot.copies := [0, 1], boot.go := false }
  let s := setMeas (setMeas s 0 ((List.range 32).map (fun i => (Config.romDigest i).toNat))) 1
    (sha3_256 (imageBytes img))
  let s := setMeas s 2 (fuseDigest s.fuse)
  if inRecovery s then setPhase s 9
  else setPhase (fset (fset s (.die 0 9) DB9.CC_STATUS_RUNNING 15) (.die 1 9) DB9.CC_STATUS_RUNNING 15) 6

/-- What follows a rejected image: the next source that BOOTSEL allows, the host again, or a failed start (R567, R569,
R570, R571, R576, R579). -/
def rejectImage (s : State) (src : ImageSource) (silent : Bool) (code : Nat) : State :=
  let s := raiseInt (finc s bootPage PB13.IMG_REJECTS) bootPage 2
  let s := fset s bootPage PB13.BOOT_STATUS_FAIL_CODE code
  if inRecovery s then setPhase { s with boot.go := false } 8
  else match src with
    | .dramCopy d => { s with boot.copies := s.boot.copies.filter (fun x => x ≠ d.val) }
    | .host => waitHost s
    | .flashA => if silent then flashOut s code else s
    | .flashB => flashOut s code
where
  /-- Both flash slots have failed. -/
  flashOut (s : State) (code : Nat) : State :=
    if bootsel s = 2 then maybeWaitHost { s with boot.flashFailed := true } else failStart s code

/-- Whether the boot ROM reads an image from this source now: DRAM copies first at a start after L1 (R571), then what
BOOTSEL allows (R565); the host's once GO has been written (R570, R579). -/
def sourceOpen (s : State) (src : ImageSource) : Bool :=
  if inRecovery s then decide (src = .host) && s.boot.go
  else if !s.boot.starting || !(decide (4 ≤ bootPhase s) && decide (bootPhase s ≤ 5)) then false
  else match src with
    | .dramCopy d => fget s (.pkg 1) PB1.RST_STATUS_LAST_LEVEL = 1 && s.boot.copies.contains d.val
    | .host => s.boot.go && !fbit s bootPage PB13.BOOT_STATUS_WAIT_HOST
    | _ => (bootsel s = 0 || bootsel s = 2) && !s.boot.flashFailed

/-- R567, R571, R579: the boot ROM checks an image. `img` is what the flash returned (nothing when it does not answer);
the host's image is read from the image buffer and a DRAM copy is the image last accepted. -/
def execBootImageCheck (src : ImageSource) (img : List Byte) (s : State) : Host.Outcome State Fault Refusal :=
  if sourceOpen s src then
    let bytes := match src with
      | .host => hostImage s
      | .dramCopy _ => (s.boot.image.getD []).map BitVec.toNat
      | _ => img.map BitVec.toNat
    let s := if inRecovery s then s else setPhase s 5
    match imageCheck s bytes (b2n (inRecovery s)) with
    | none => done (acceptImage s src bytes)
    | some code => done (rejectImage { s with boot.go := false } src (src = .flashA && img.isEmpty) code)
  else .next s

/-- R576: the boot timer has reached 2 s. In HOST mode with the link down the code is LINK (R573). -/
def execBootTimerExpire (s : State) : Host.Outcome State Fault Refusal :=
  if s.boot.starting && !bootDone s && decide (bootElapsed s ≥ 2000000000) then
    done (failStart s (if bootsel s = 1 && !pcieUp s then 8 else 1))
  else .next s

/-- BOOT_CMD.GO (R570, R579): no effect unless WAIT_HOST or RECOVERY_WAIT. -/
def bootGo (s : State) : State :=
  if fbit s bootPage PB13.BOOT_STATUS_WAIT_HOST then
    resumeBoot { fsetb s bootPage PB13.BOOT_STATUS_WAIT_HOST false with boot.go := true }
  else if bootPhase s = 8 then { s with boot.go := true }
  else s

/-- BOOT_CMD.RECOVERY_EXIT (R580): clears FAIL_COUNT and asserts a software reset at L0; no effect outside recovery. -/
def recoveryExit (s : State) : State :=
  if inRecovery s then
    assertSource (fset s bootPage PB13.BOOT_STATUS_FAIL_COUNT 0) ⟨7, 0, .package, some (s.now + 1000), 3⟩
  else s

/-! ### BOOT_DONE -/

/-- A register that firmware gives its value at a start (R512): a field whose reset value is *firmware*, a voltage and
frequency point, or a field of the access tables. -/
def firmwareOwns (p : Page) (off : Nat) : Bool :=
  (rowsAt p off).any (fun r => r.rst = .firmware) ||
    (match p with
     | .pkg 9 => true
     | .die _ 7 => true
     | .core _ 11 => true
     | _ => false)

/-- Firmware writes one register and, where it is shadowed, commits it. -/
def firmwarePut (s : State) (w : Page × Nat × Word) : State :=
  if firmwareOwns w.1 w.2.1 then
    let s := putWord s w.1 w.2.1 w.2.2.toNat
    if (rowsAt w.1 w.2.1).any (fun r => r.acc = .rws) then
      { s with reg.eff := SMap.put s.reg.eff (pageBase w.1 + w.2.1) w.2.2 }
    else s
  else s

/-- R607: firmware holds the fences of its flash record again: SLOT_FENCE and the CORE_MAP it committed with them. -/
def restoreFences (s : State) : State :=
  s.boot.flashFences.foldl (fun s e =>
    let p0 := Page.cl (e.1 / 4) (e.1 % 4) 0
    let s := fset s (.cl (e.1 / 4) (e.1 % 4) 3) CB3.SLOT_FENCE e.2.1
    let s := putWord s p0 0x44 e.2.2
    { s with reg.eff := SMap.put s.reg.eff (pageBase p0 + 0x44) (BitVec.ofNat 32 e.2.2) }) s

/-- R574, R607, R537: firmware has initialised the part: its register values stand, FAIL_COUNT clears, the boot timer
stops, fences are held again, and a mailbox trigger that waited may scan (R670). -/
def execBootDoneSet (fw : List (Page × Nat × Word)) (s : State) : Host.Outcome State Fault Refusal :=
  if s.boot.starting && decide (bootPhase s = 6) && !bootDone s then
    let us := bootElapsed s / 1000
    let s := restoreFences (fw.foldl firmwarePut s)
    let s := fset s (.pkg 12) PB12.POWERED_HOURS (max (fget s (.pkg 12) PB12.POWERED_HOURS) s.boot.flashHours)
    let s := fset (fset s bootPage PB13.BOOT_TIME_US us) bootPage PB13.BOOT_STATUS_FAIL_COUNT 0
    let s := setPhase (fsetb s bootPage PB13.BOOT_STATUS_BOOT_DONE true) 7
    let s := { s with boot.starting := false, boot.timerFrom := none }
    done (latchVacant (raiseInt s bootPage 0))
  else .next s

/-- R637: after an L2 release firmware rewrites the die's B7 page from its copy of the last committed set and locks it
again when that set was locked. -/
def execAccessTableRestore (d : Fin 2) (s : State) : Host.Outcome State Fault Refusal :=
  match SMap.find s.att.b7copy d.val with
  | some (ws, locked) =>
    if ccRunning s d.val then
      let s := ws.foldl (fun s w => { s with reg.regs := SMap.put s.reg.regs w.1 w.2,
                                             reg.eff := SMap.put s.reg.eff w.1 w.2 }) s
      done (fsetb s (.die d.val 7) DB7.ACC_CTRL_LOCK locked)
    else .next s
  | none => .next s

/-! ### The always-on domain -/

/-- R548, R710, R728: VDD_AON below 0.70 V: the always-on domain is reset. The event history and the always-on registers
are lost and XCLK stops, which asserts CLK_LOSS at L0 (R559). -/
def execVddAonLoss (s : State) : Host.Outcome State Fault Refusal :=
  let s := { s with rst.aonPresent := false, hist := ⟨[], 0, []⟩ }
  let s := [(Page.pkg 12, PB12.POWERED_HOURS), (.pkg 12, PB12.LAST_REPLAN), (.pkg 1, PB1.RST_STATUS_LAST_SOURCE),
    (.pkg 1, PB1.RST_STATUS_LAST_LEVEL), (bootPage, PB13.BOOT_STATUS_FAIL_CODE), (bootPage, PB13.BOOT_STATUS_FAIL_COUNT),
    (bootPage, PB13.STARTS), (.pkg 10, PB10.HIST_WR), (.pkg 10, PB10.HIST_SEQ)].foldl
    (fun s f => fset s f.1 f.2 0) s
  let s := { s with rst.clkGood := s.rst.clkGood.filter (fun q => q ≠ .xclk) }
  done (onSupplyChange ((clkLossSources .xclk).foldl assertSource s))

/-- R710, R711: VDD_AON is back above 0.70 V: the always-on domain leaves reset and XCLK starts; its CLK_GOOD rises by
CLK_GOOD_RISE. -/
def execVddAonReturn (s : State) : Host.Outcome State Fault Refusal :=
  done (onSupplyChange { s with rst.aonPresent := true })

end Sys2Proof.Machine
end

