-- ==== Sys2Proof/Machine/Time.lean ====
section
/-!
DEFINITION. Disciplining device time (R46 to R54): the discipline state, the servo, steps, PPS input and output.
-/

namespace Sys2Proof.Machine

/-- The discipline state (R47): 0 FREERUN, 1 ACQUIRING, 2 LOCKED, 3 TIME_HOLD. -/
def discState (s : State) : Nat := fget s (.pkg 2) PB2.TIME_STATUS_STATE

/-- SOURCE in effect: 0 FREE, 1 PTP_RING, 2 PPS_IN. -/
def timeSource (s : State) : Nat := eget s (.pkg 2) PB2.TIME_CTRL_SOURCE

/-- FREQ_ADJ in 1/1,024 ppb. -/
def freqAdj (s : State) : Int := sext 32 (fget s (.pkg 2) PB2.FREQ_ADJ)

/-- Hold FREQ_ADJ. -/
def setFreqAdj (s : State) (a : Int) : State := fset s (.pkg 2) PB2.FREQ_ADJ (wrap 32 a)

/-- A change of discipline state (R47, R732); TIME_HOLD holds the mean of the last 64 samples' FREQ_ADJ (R48). -/
def setDisc (s : State) (new : Nat) : State :=
  let old := discState s
  if old = new then s
  else
    let s := raiseInt (fset s (.pkg 2) PB2.TIME_STATUS_STATE new) (.pkg 2) 0
    let s := recordState s (.pkg 2) 0 new old
    let n := s.tb.adjs.length
    if new = 3 ∧ n ≠ 0 then setFreqAdj s ((s.tb.adjs.foldl (· + ·) 0).tdiv n) else s

/-- A step of device time to `to` (R50, R53, R380, R688). PPS_OUT rises at the step only where it leads to a whole second
(R54). -/
def stepTime (s : State) (upTo : Nat) : State :=
  let old := s.tb.dev
  let sec := if upTo % oneSec = 0 then devSec upTo + 1 else devSec upTo
  let s := raiseInt { s with tb.dev := upTo, tb.ppsSec := sec } (.pkg 2) 2
  let s := if upTo > old then stepWaits (fireStepped s upTo) else s
  stepAngle s old

/-- The servo slews (R49): FREQ_ADJ by the proportional-integral correction, limited to 200 ppm either way. -/
def slew (s : State) (offset : Int) : State :=
  let i := s.tb.integral + offset
  let a := Config.servo offset i (fget s (.pkg 2) PB2.SERVO_GAIN_KP) (fget s (.pkg 2) PB2.SERVO_GAIN_KI)
  setFreqAdj { s with tb.integral := i } (clampI (-204800000) 204800000 a)

/-- A valid offset sample in 2^-16 ns (R47 to R49), judged in the state in which it arrives. -/
def offsetSample (s : State) (offset : Int) : State :=
  let p := Page.pkg 2
  let st := discState s
  let mag := offset.natAbs
  let lock := fget s p PB2.LOCK_THRESH * 65536
  let s := fset s p PB2.OFFSET (wrap 32 (satS 32 (offset.tdiv 65536)))
  let s := { s with tb.lastSample := some s.now }
  let steps := st = 1 && decide (mag > fget s p PB2.STEP_THRESH * 65536)
  let s := if steps then stepTime s ((s.tb.dev : Int) - offset * 65536).toNat else slew s offset
  let s := { s with tb.adjs := (freqAdj s :: s.tb.adjs).take 64 }
  if st = 1 then
    let n := if mag ≤ lock then s.tb.inLock + 1 else 0
    if n ≥ 16 then setDisc { s with tb.inLock := 0 } 2 else { s with tb.inLock := n }
  else if st = 2 then
    if mag > 4 * lock then setDisc { s with tb.inLock := 0 } 1 else s
  else setDisc { s with tb.inLock := 0 } 1

/-- R53: TIME_CMD SET. -/
def timeSet (s : State) : State :=
  let p := Page.pkg 2
  let ns := fget s p PB2.SET_NS
  if discState s = 2 ∨ ns ≥ 1000000000 then viol s p
  else stepTime s ((fget s p PB2.SET_SEC_HI * 2 ^ 32 + fget s p PB2.SET_SEC_LO) * oneSec + ns * 2 ^ 32)

/-- R51: TIME_CMD ARM_PPS. -/
def armPps (s : State) : State :=
  { s with tb.armed := some (fget s (.pkg 2) PB2.SET_SEC_HI * 2 ^ 32 + fget s (.pkg 2) PB2.SET_SEC_LO) }

/-- A write of TIME_CMD (R90). -/
def timeCmd (s : State) (v : Nat) : State :=
  match v % 4 with
  | 1 => timeSet s
  | 2 => armPps s
  | _ => s

/-- R51, R52: a rising edge on PPS_IN. -/
def execPpsInEdge (s : State) : Host.Outcome State Fault Refusal :=
  let p := Page.pkg 2
  if timeSource s ≠ 2 then .next s
  else
    let t : Int := (s.tb.dev / 65536 : Nat)
    let early : Bool := match s.tb.lastPps with
      | some (t0, _) => decide (s.now < t0 + 900000000) || decide (t0 + 1100000000 < s.now)
      | none => false
    if (discState s = 1 ∨ discState s = 2) ∧ early = true then done (raiseInt (finc s p PB2.PPS_REJECT) p 5)
    else
      let sec := match s.tb.armed, s.tb.lastPps with
        | some n, _ => n
        | none, some (_, n) => n + 1
        | none, none => (s.tb.dev + oneSec / 2) / oneSec
      let s := { s with tb.armed := none, tb.lastPps := some (s.now, sec) }
      done (offsetSample s (t - (sec * 1000000000 * 65536 : Nat)))

/-- R54: a whole second of device time pulses PPS_OUT for WIDTH microseconds, in LOCKED or with FREE set. -/
def execPpsOutPulse (s : State) : Host.Outcome State Fault Refusal :=
  let p := Page.pkg 2
  let sec := devSec s.tb.dev
  if sec = s.tb.ppsSec then .next s
  else
    let s := { s with tb.ppsSec := sec }
    let w := fget s p PB2.PPS_OUT_CTRL_WIDTH
    if fbit s p PB2.PPS_OUT_CTRL_EN && (discState s = 2 || fbit s p PB2.PPS_OUT_CTRL_FREE) && w ≠ 0 then
      done { s with tb.ppsUntil := s.now + w * 1000 }
    else .next s

/-- R47: no valid sample for DISC_TIMEOUT. -/
def execDiscTimeoutExpire (s : State) : Host.Outcome State Fault Refusal :=
  match s.tb.lastSample with
  | some t =>
    if (discState s = 1 ∨ discState s = 2) ∧ t + max 1 (fget s (.pkg 2) PB2.DISC_TIMEOUT) * 1000000 ≤ s.now then
      done (setDisc s 3)
    else .next s
  | none => .next s

/-- What one TCLK cycle adds to device time (R43), in 2^-32 ns: 2 ns and the frequency adjustment. -/
def tickDelta (s : State) : Nat := ((2 ^ 33 : Int) + (freqAdj s * 2 ^ 23).fdiv 1000000000).toNat

/-- One TCLK cycle: timers, device time and the newel angle advance (R43, R65). -/
def tick (s : State) : State :=
  let old := s.tb.dev
  angleTo { s with now := s.now + 2, tb.dev := old + tickDelta s } old

end Sys2Proof.Machine
end

