-- ==== Sys2Proof/Machine/Front.lean ====
section
/-!
DEFINITION. The Point Front (R125 to R145, R167 to R169, R731): profiles, parsing, transform, admission, ego motion.
-/

namespace Sys2Proof.Machine

/-- A rise of a B4 port counter of R109: the count, INT_RAW.VIOLATION of the port, and the second's rise (R111, R112). -/
def portViolation (s : State) (n : Nat) (f : Fld) : State :=
  let s := raiseInt (finc s (.pkg 4) f) (.pkg 4) (4 + n)
  { s with ports.rises := SMap.put s.ports.rises f.off (SMap.getD s.ports.rises f.off 0 + 1) }

/-! ### Fields (R126) -/

/-- A number of `bs` in the byte order that a profile gives. -/
def orderNat (big : Bool) (bs : List Nat) : Nat := if big then beNat bs else leNat bs

/-- A field of a record: the raw integer and the scaled FP32 value; both 0 when absent (R126). -/
def fieldOf (s : State) (d prof i : Nat) (rcd : List Nat) : Nat × Nat :=
  let p := Page.die d 1
  let w := match eget s p (DB1.PROF_F_DESC_WIDTH prof i) with | 0 => 0 | 1 => 1 | 2 => 2 | _ => 4
  if w = 0 then (0, 0)
  else
    let raw := orderNat (ebit s p (DB1.PROF_CTRL_BIG_ENDIAN prof))
      ((rcd.drop (eget s p (DB1.PROF_F_DESC_OFFSET prof i))).take w)
    let v : Int := if ebit s p (DB1.PROF_F_DESC_SIGNED prof i) then sext (8 * w) raw else raw
    (raw, f32mul (f32ofInt v) (eget s p (DB1.PROF_F_SCALE prof i)))

/-- A field is present. -/
def fieldPresent (s : State) (d prof i : Nat) : Bool := eget s (.die d 1) (DB1.PROF_F_DESC_WIDTH prof i) ≠ 0

/-! ### Admission (R138 to R146) -/

/-- The limits of a frame by sensor on a die (R144). -/
def quotaLimits (s : State) (d : Nat) : List Nat :=
  (List.range 16).map (fun m =>
    let q := eget s (.die d 1) (DB1.SENS_QUOTA m)
    let mask := pget s (2 * d) (PB4.PFILT_CTRL_PORT_MASK m)
    if bits mask 0 2 ≠ 0 ∧ bits mask 2 2 ≠ 0 then (if d = 0 then (q + 1) / 2 else q / 2) else q)

/-- What a Point Front counts for a frame that opened while it was in service. -/
def frontFrame (s : State) (d f : Nat) : Option FrontFrame :=
  ((frontAt s d).frames.find? (fun e => e.1 = f)).map Prod.snd

/-- Hold it. -/
def setFrontFrame (s : State) (d f : Nat) (x : FrontFrame) : State :=
  let fr := frontAt s d
  setFront s d { fr with frames := fr.frames.map (fun e => if e.1 = f then (f, x) else e) }

/-- The open frame of a number (R140). -/
def openFrameOf (s : State) (f : Nat) : Option StairFrame :=
  match s.stair.frame with
  | none => none
  | some g =>
    if g.no = f then some g
    else match s.stair.ahead with
      | some h => if h.no = f then some h else none
      | none => none

/-- Count a point of front page B1 and set its bit of INT_RAW (R173). -/
def frontCount (s : State) (d : Nat) (f : Fld) (b : Nat) : State := raiseInt (finc s (.die d 1) f) (.die d 1) b

/-- R76: a late point is counted, and the tread that it joins and its frame's header are flagged. -/
def markLate (s : State) (home f tread : Nat) : State :=
  let s := raiseInt (finc s (.pkg 3) PB3.LATE_POINTS) (.pkg 3) 5
  let mark : StairFrame → StairFrame := fun h =>
    if h.no = f ∧ h.late.contains tread = false then { h with late := h.late ++ [tread] } else h
  flagSlot { s with stair.frame := s.stair.frame.map mark, stair.ahead := s.stair.ahead.map mark } home f 5

/-- A point of a known frame that is open, at vehicle-frame position `p`: the region check, the home-die check, the quota,
and then the probe input of its home Hall (R138, R141 to R145). -/
def admitPoint (s : State) (d : Nat) (g : StairFrame) (sensor time inten : Nat) (p : List Nat) (stale : Bool) : State :=
  let s := if stale then frontCount s d DB1.EGO_STALE 1 else s
  match frontFrame s d g.no with
  | none => frontCount s d DB1.NO_FRAME 6
  | some ff =>
    match (slotFor s d g.no).orElse (fun _ => slotFor s (1 - d) g.no) with
    | none => frontCount s d DB1.HALL_DOWN 3
    | some grid =>
      match voxelKey grid.voxel p with
      | none => finc s (.die d 1) DB1.OUT_OF_ROI
      | some key =>
        if !inRoi grid key then finc s (.die d 1) DB1.OUT_OF_ROI
        else
          let centre := voxelCentre grid.voxel key
          let tread := treadOf g.b g.code centre
          let home := homeDie g.code tread
          if hallStopped s home || !hallTakes s home g.no then flagSlot (frontCount s d DB1.HALL_DOWN 3) d g.no 7
          else if SMap.getD ff.admitted sensor 0 ≥ ff.limits.getD sensor 0 then
            let s := setFrontFrame s d g.no { ff with refused := SMap.put ff.refused sensor (SMap.getD ff.refused sensor 0 + 1) }
            let s := frontCount s d DB1.QUOTA_REFUSED 0
            let s := finc s (.die d 1) (DB1.SENS_REFUSED sensor)
            flagSlot (flagSlot s 0 g.no 1) 1 g.no 1
          else
            let n := SMap.getD ff.admitted sensor 0 + 1
            let s := setFrontFrame s d g.no { ff with admitted := SMap.put ff.admitted sensor n }
            let s := finc s (.die d 1) DB1.ADMITTED
            let newest : Bool := match s.stair.ahead with | some h => decide (h.no = g.no) | none => true
            let s := if newest then fset s (.die d 1) (DB1.SENS_ADMITTED sensor) n else s
            -- R76: earlier than the close of the same tread in the preceding frame
            let late : Bool := match SMap.find s.stair.prevClose ((g.no + 3) % 4 * 256 + tread) with
              | some t => decide (time * 2 ^ 32 < t)
              | none => false
            let s := match late with | true => markLate s home g.no tread | false => s
            let off := fun i => offsetMm (p.getD i 0) (centre.getD i 0)
            let c : Cell := ⟨key.getD 0 0, key.getD 1 0, key.getD 2 0, off 0, off 1, off 2, inten, sensor, g.no % 256,
              satS 32 ((time : Int) - g.ref), 1, 8 * b2n stale + 16 * b2n late, tread, 0xFFFFFFFF⟩
            let s := if stale then flagSlot (flagSlot s d g.no 3) home g.no 3 else s
            match slotFor s home g.no with
            | none => s
            | some y =>
              let s := setSlot s home { y with admitted := y.admitted + 1 }
              let h := hallAt s home
              setHall s home { h with queue := h.queue ++ [(g.no, c)] }

/-- The position at a frame's reference time: deskewed, or p_v with stale set when a pose is stale (R136). -/
def deskewTo (s : State) (d time ref : Nat) (pv : List Nat) : List Nat × Bool :=
  if !ebit s (.die d 1) DB1.PF_CTRL_DESKEW_EN then (pv, false)
  else match poseAt s d time, poseAt s d ref with
    | some a, some b => (movePose a b pv, false)
    | _, _ => (pv, true)

/-- Tread `k` of frame `f` has been cut (R73). -/
def cutTaken (s : State) (f k : Nat) : Bool :=
  match s.stair.frame with
  | none => false
  | some g =>
    if g.no = f then s.stair.cutAhead || decide (k < s.stair.nextCut)
    else decide (f = (g.no + 1) % 2 ^ 32) && s.stair.cutAhead && decide (k < s.stair.nextCut)

/-- The oldest frame in which the tread of a position had not been cut (R76, R78); its open record, or its number when it has
yet to open. -/
def frameOf (s : State) (g : StairFrame) (p : List Nat) : Sum StairFrame Nat :=
  if !cutTaken s g.no (treadOf g.b g.code p) then .inl g
  else match s.stair.ahead with
    | none => .inr ((g.no + 1) % 2 ^ 32)
    | some h =>
      if !cutTaken s h.no (treadOf h.b h.code p) then .inl h else .inr ((h.no + 1) % 2 ^ 32)

/-- Hold a point for a frame that has not opened (R76). -/
def holdPoint (s : State) (d f sensor time inten : Nat) (pv : List Nat) : State :=
  let fr := frontAt s d
  setFront s d { fr with held := fr.held ++ [⟨f, sensor, pv, inten, time, false⟩] }

/-- R731: a point with position `pv` at point time joins its frame. -/
def joinFrame (s : State) (d sensor time inten : Nat) (pv : List Nat) : State :=
  let enabled := ebit s (.pkg 3) PB3.STAIR_CTRL_EN
  match s.stair.frame with
  | none => frontCount s d DB1.NO_FRAME 6
  | some g0 =>
    if !enabled then frontCount s d DB1.NO_FRAME 6
    else match frameOf s g0 pv with
      | .inr f => holdPoint s d f sensor time inten pv
      | .inl g =>
        let (p, stale) := deskewTo s d time g.ref pv
        let vox := match (slotFor s d g.no).orElse (fun _ => slotFor s (1 - d) g.no) with
          | some x => x.voxel
          | none => [32, 32, 64]
        let cut := match voxelKey vox p with
          | some key => cutTaken s g.no (treadOf g.b g.code (voxelCentre vox key))
          | none => false
        if !cut then admitPoint s d g sensor time inten p stale
        else match openFrameOf s ((g.no + 1) % 2 ^ 32) with
          | some h =>
            let (p, stale) := deskewTo s d time h.ref pv
            admitPoint s d h sensor time inten p stale
          | none => holdPoint s d ((g.no + 1) % 2 ^ 32) sensor time inten pv

/-- The points held for a frame that has now opened are deskewed to its reference time and admitted (R76, R731). -/
def releaseHeld (s : State) (d : Nat) (g : StairFrame) : State :=
  let fr := frontAt s d
  let mine := fr.held.filter (fun h => h.frame = g.no)
  let s := setFront s d { fr with held := fr.held.filter (fun h => h.frame ≠ g.no) }
  mine.foldl (fun s h =>
    let (p, stale) := deskewTo s d h.time g.ref h.pv
    admitPoint s d g h.sensor h.time h.inten p stale) s

/-! ### Packets (R127 to R132) -/

/-- The position in the vehicle frame of a record's fields (R131, R132). -/
def recordPosition (s : State) (d sensor prof : Nat) (rcd : List Nat) : List Nat :=
  let f := fun i => (fieldOf s d prof i rcd).2
  let v := if ebit s (.die d 1) (DB1.PROF_CTRL_COORD prof) then [f 0, f 1, f 2]
    else
      let rc := f32mul (f 0) (cosT (f 2))
      [f32mul rc (cosT (f 1)), f32mul rc (sinT (f 1)), f32mul (f 0) (sinT (f 2))]
  applyExtrinsic ((List.range 12).map (fun i => eget s (.die d 1) (DB1.SENS_EXT sensor i))) v

/-- The azimuth of a record in turns, where it has one (R129). -/
def recordAzimuth (s : State) (d prof : Nat) (rcd : List Nat) : Option Nat :=
  if ebit s (.die d 1) (DB1.PROF_CTRL_COORD prof) then
    (if fieldPresent s d prof 5 then some (fieldOf s d prof 5 rcd).2 else none)
  else some (fieldOf s d prof 1 rcd).2

/-- The azimuth lies in a full turn (R109, R129). -/
def azOk (a : Nat) : Bool := f32le 0 a && f32lt a 0x3F800000

/-- A record is a no-return (R130). -/
def noReturn (s : State) (d prof : Nat) (rcd : List Nat) : Bool :=
  let raw := fun i => (fieldOf s d prof i rcd).1
  if ebit s (.die d 1) (DB1.PROF_CTRL_COORD prof) then raw 0 = 0 && raw 1 = 0 && raw 2 = 0 else raw 0 = 0

/-- A point time: packet time (2^-16 ns) plus F4, to the nearest nanosecond; none outside device time (R128). -/
def pointTime (packet : Nat) (f4 : Nat) : Option Nat :=
  match (Fv.fin packet (-16)).add (f32v f4) with
  | .fin m e =>
    let t := Fv.toInt .nearest m e
    if 0 ≤ t ∧ t < (2 ^ 48 * 1000000000 : Nat) then some t.toNat else none
  | _ => none

/-- One record of an accepted packet (R128, R130 to R132, R731). -/
def parseRecord (s : State) (d sensor prof packet : Nat) (rcd : List Nat) : State :=
  if noReturn s d prof rcd then finc s (.die d 1) DB1.NO_RETURN
  else match pointTime packet (fieldOf s d prof 4 rcd).2 with
    | none => finc s (.die d 1) DB1.OUT_OF_ROI
    | some t =>
      let inten := (Fv.toIntSat .nearest 0 65535 (f32v (fieldOf s d prof 3 rcd).2)).toNat
      joinFrame s d sensor t inten (recordPosition s d sensor prof rcd)

/-- The packet time in 2^-16 ns; none when the field reaches beyond the payload (R127, R128). -/
def packetTime (s : State) (d prof ingress : Nat) (shift : Int) (payload : List Nat) : Option Nat :=
  let p := Page.die d 1
  if !ebit s p (DB1.PROF_CTRL_TIME_SRC prof) then some ingress
  else
    let off := eget s p (DB1.PROF_TS_TS_OFF prof)
    let big := ebit s p (DB1.PROF_CTRL_BIG_ENDIAN prof)
    let b := payload.drop off
    if ebit s p (DB1.PROF_TS_TS_FMT prof) then
      (if b.length < 8 then none else some ((((orderNat big (b.take 8) : Nat) : Int) + shift) * 65536).toNat)
    else if b.length < 10 then none
    else
      let ns := orderNat big (b.take 6) * 1000000000 + orderNat big ((b.drop 6).take 4)
      some (((ns : Int) + shift) * 65536).toNat

/-- The complete records of a payload. -/
def recordsOf (stride n : Nat) (bs : List Nat) : List (List Nat) :=
  ((List.range n).map (fun i => (bs.drop (stride * i)).take stride)).filter (fun r => r.length = stride)

/-- R127: a point packet of sensor `m` on port `n`, taken at `ingress` (2^-16 ns) by the Point Front of die `d`; `shift` is
added to times read from the packet (R168). -/
def parsePacket (s : State) (d n m ingress : Nat) (shift : Int) (payload : List Nat) : State :=
  let p := Page.die d 1
  let prof := eget s p (DB1.SENS_CTRL_PROFILE m)
  let hdr := eget s p (DB1.PROF_LAYOUT_HDR_LEN prof)
  let stride := eget s p (DB1.PROF_LAYOUT_STRIDE prof)
  let count := eget s p (DB1.PROF_CTRL_POINTS prof)
  if payload.length ≤ hdr then frontCount s d DB1.PKT_TRUNC 4
  else match packetTime s d prof ingress shift payload with
    | none => frontCount s d DB1.PKT_TRUNC 4
    | some pt =>
      let rs := recordsOf stride count (payload.drop hdr)
      let azs := rs.filterMap (recordAzimuth s d prof)
      if azs.any (fun a => !azOk a) then portViolation s n (PB4.AZ_RANGE n)
      else
        let back : Bool := match SMap.find (frontAt s d).lastTs m with
          | some t => decide (pt + 1000 * 65536 < t)
          | none => false
        if back then portViolation s n (PB4.TS_BACK n)
        else
          let fr := frontAt s d
          let s := setFront s d { fr with lastTs := SMap.put fr.lastTs m pt }
          let s := if rs.length < count then frontCount s d DB1.PKT_TRUNC 4 else s
          -- R66, R129: the first record's azimuth is a newel sample
          let s := match azs with
            | a :: _ =>
              if newelSrc s = 0 ∧ eget s (.pkg 3) PB3.STAIR_CTRL_NEWEL_SENSOR = m then
                match (f32v a) with
                | .fin k e =>
                  let u := (Fv.floorFin (k * 65536) e).toNat + 65536 - eget s (.pkg 3) (PB3.SENSOR_LAG_PHASE_OFFSET m)
                  newelSample s (u % 65536) (ingress * 65536)
                | _ => s
              else s
            | [] => s
          rs.foldl (fun s r => parseRecord s d m prof pt r) s

/-- The Point Front of a die takes points: enabled, in service, not asked to quiesce (R102, R170, R677). -/
def frontTakes (s : State) (d : Nat) : Bool :=
  ebit s (.die d 1) DB1.PF_CTRL_EN && !outOfService s (.point d) && !quiescing s (.die d 1)

/-- A frame for sensor `m` reaches its Point Front, or counts in PF_DROP (R102). -/
def deliverPoints (s : State) (d n m ingress : Nat) (shift : Int) (payload : List Nat) : State :=
  if frontTakes s d then parsePacket s d n m ingress shift payload
  else raiseInt (finc s (.pkg 4) (PB4.PF_DROP n)) (.pkg 4) 14

end Sys2Proof.Machine
end

