-- ==== Sys2Proof/Machine/Commit.lean ====
section
/-!
DEFINITION. Commits of RWS fields (R10 to R13): capturing a page's shadow, the consistency check of each page, its safe
point, and what a set does when it takes effect.
-/

namespace Sys2Proof.Machine

/-! ### Captured sets -/

/-- The register at page offset `off` has an RWS field. -/
def isShadow (p : Page) (off : Nat) : Bool := (rowsAt p off).any (fun r => r.acc = .rws)

/-- The RWS shadow contents of a page, by page offset (R11). -/
def shadowSet (s : State) (p : Page) : List (Nat × Word) :=
  let b := pageBase p
  s.reg.regs.filterMap (fun e =>
    if b ≤ e.1 ∧ e.1 < b + 0x1000 ∧ isShadow p (e.1 - b) then some (e.1 - b, e.2) else none)

/-- A word of a captured set. -/
def setWord (s : State) (p : Page) (ws : List (Nat × Word)) (off : Nat) : Nat :=
  match SMap.find ws off with
  | some w => w.toNat
  | none => resetWord s.fuse p off

/-- A field of a captured set. -/
def cget (s : State) (p : Page) (ws : List (Nat × Word)) (f : Fld) : Nat := bits (setWord s p ws f.off) f.lo f.w

/-- Put a captured set into effect. -/
def setEffect (s : State) (p : Page) (ws : List (Nat × Word)) : State :=
  let b := pageBase p
  let rest := s.reg.eff.filter (fun e => e.1 < b || b + 0x1000 ≤ e.1)
  { s with reg.eff := ws.foldl (fun m w => SMap.put m (b + w.1) w.2) rest }

/-- The captured set of a page. -/
def capturedOf (s : State) (p : Page) : Option Captured := SMap.find s.reg.captured (pageBase p)

/-- Commit pending ends. -/
def dropCaptured (s : State) (p : Page) : State :=
  { s with reg.captured := SMap.del s.reg.captured (pageBase p) }

/-- R12: a refused set: COMMIT_ERR. -/
def refuseSet (s : State) (p : Page) : State := fsetb (dropCaptured s p) p HDR.PAGE_STATUS_COMMIT_ERR true

/-! ### Consistency checks -/

/-- The close lag (R71) of a set whose fields `g` reads. -/
def closeLag (g : Fld → Nat) : Nat :=
  let d := (bitList 16 (g PB3.CONTRIB)).map (fun m =>
    sext 16 (wrap 16 ((g (PB3.SENSOR_LAG_COVER_LAG m) : Int) - g (PB3.SENSOR_LAG_PHASE_OFFSET m))))
  (d.foldl max 0).toNat + g PB3.MARGIN

/-- R119: a point-filter entry is VALID in a set in effect on some port. -/
def filterValid (s : State) (m : Nat) : Bool :=
  (List.range 4).any (fun n => pget s n (PB4.PFILT_CTRL_VALID m) = 1)

/-- R72, R697, and the refused codes of R92. -/
def stairSetOk (s : State) (g : Fld → Nat) : Bool :=
  decide (closeLag g < 32768) && decide (g PB3.STAIR_CTRL_TREADS < 5) && decide (5000 ≤ g PB3.SYNTH_RATE) &&
  decide (g PB3.SYNTH_RATE ≤ 40000) && g PB3.ENC_CPR_CPR ≠ 0 && g PB3.NEWEL_TIMEOUT ≠ 0 &&
  g PB3.STAIR_CTRL_NEWEL_SRC ≠ 3 &&
  (g PB3.STAIR_CTRL_NEWEL_SRC ≠ 0 || filterValid s (g PB3.STAIR_CTRL_NEWEL_SENSOR))

/-- R691 and the refused codes of R90. -/
def timeSetOk (g : Fld → Nat) : Bool :=
  g PB2.TIME_CTRL_SOURCE ≠ 3 && g PB2.TIME_CTRL_PROFILE ≠ 3 &&
  !(g PB2.TIME_CTRL_SOURCE = 1 && g PB2.TIME_CTRL_TRANSPORT = 0) &&
  !(g PB2.TIME_CTRL_PROFILE = 2 && g PB2.TIME_CTRL_TRANSPORT ≠ 1)

/-- R120: two VALID entries overlap. -/
def filtersClash (g : Fld → Nat) (a b : Nat) : Bool :=
  g (PB4.PFILT_CTRL_VALID a) = 1 && g (PB4.PFILT_CTRL_VALID b) = 1 &&
  g (PB4.PFILT_CTRL_IPV6 a) = g (PB4.PFILT_CTRL_IPV6 b) &&
  (List.range 4).all (fun i => g (PB4.PFILT_SRC_IP a i) = g (PB4.PFILT_SRC_IP b i)) &&
  g (PB4.PFILT_UDP a) = g (PB4.PFILT_UDP b) &&
  Nat.land (g (PB4.PFILT_CTRL_PORT_MASK a)) (g (PB4.PFILT_CTRL_PORT_MASK b)) ≠ 0 &&
  (g (PB4.PFILT_CTRL_VID a) = g (PB4.PFILT_CTRL_VID b) || g (PB4.PFILT_CTRL_VID a) = 0 || g (PB4.PFILT_CTRL_VID b) = 0)

/-- R107, R120 and the refused codes of R118. -/
def portsSetOk (g : Fld → Nat) : Bool :=
  (List.range 4).all (fun n =>
    g (PB4.PORT_CTRL_MODE n) ≠ 3 && decide (64 ≤ g (PB4.PORT_CTRL_MAX_FRAME n)) &&
    decide (g (PB4.PORT_CTRL_MAX_FRAME n) ≤ 9216) &&
    !(g (PB4.PORT_CTRL_FEC n) = 1 && g (PB4.PORT_CTRL_MODE n) = 1)) &&
  (g PB4.PORTS_CTRL ≠ 1 ||
    (g (PB4.PORT_CTRL_MODE 0) = g (PB4.PORT_CTRL_MODE 1) && g (PB4.PORT_CTRL_FEC 0) = g (PB4.PORT_CTRL_FEC 1) &&
     g (PB4.PORT_CTRL_MODE 0) ≠ 0)) &&
  (List.range 16).all (fun m => g (PB4.PFILT_CTRL_VALID m) = 0 ||
    (g (PB4.PFILT_CTRL_PORT_MASK m) ≠ 0 &&
     (g (PB4.PFILT_CTRL_IPV6 m) = 1 || [1, 2, 3].all (fun i => g (PB4.PFILT_SRC_IP m i) = 0)))) &&
  (List.range 16).all (fun b => (List.range b).all (fun a => !filtersClash g a b))

/-- R87. -/
def trigSetOk (g : Fld → Nat) : Bool :=
  (List.range 8).all (fun n => g (PB5.TRIG_CTRL_MODE n) ≠ 3 &&
    (g (PB5.TRIG_PERIOD_NS n) = 0 || decide (g (PB5.TRIG_WIDTH_NS n) < g (PB5.TRIG_PERIOD_NS n))))

/-- R523. -/
def ledgerSetOk (s : State) (g : Fld → Nat) : Bool :=
  decide (720 ≤ g PB6.POWER_CAP) && decide (g PB6.POWER_CAP ≤ (if s.fuse.grade = 2 then 2800 else 1920)) &&
  !(g PB6.LED_CTRL_BUDGET_EN = 1 && g PB6.FRAME_BUDGET = 0) && decide (g PB6.RESERVE1 ≤ g PB6.RESERVE2) &&
  decide (g PB6.RESERVE2 ≤ g PB6.RESERVE3) && decide (g PB6.RESERVE3 ≤ g PB6.FRAME_BUDGET) && g PB6.PERIOD_US ≠ 0 &&
  g PB6.COEF_COEF_4 ≠ 0 && g PB6.COEF_COEF_8 ≠ 0 && g PB6.COEF_COEF_16 ≠ 0

/-- R38: the bits of OFFSET that a region requires to be zero are zero. -/
def offsetOk (a : Nat) : Bool :=
  match bits a 44 4 with
  | 0 => bits a 35 9 = 0
  | 1 => bits a 28 16 = 0
  | 3 => bits a 24 20 = 0
  | _ => true

/-- R682. -/
def pcieSetOk (g : Fld → Nat) : Bool :=
  let a := g PB7.WIN_BASE_LO * 2 ^ 16 + g PB7.WIN_BASE_HI * 2 ^ 32
  decide (bits a 44 4 < 8) && offsetOk a &&
  (List.range 8).all (fun w => g (PB7.OUTWIN_ATTR_VALID w) = 0 ||
    decide (g (PB7.OUTWIN_BASE_LO w) * 4096 + g (PB7.OUTWIN_BASE_HI w) * 2 ^ 32 +
      (g (PB7.OUTWIN_SIZE_M1 w) + 1) * 4096 ≤ 2 ^ 64))

/-- R508. -/
def gallerySetOk (g : Fld → Nat) : Bool :=
  let n := (g PB8.GAL_TOPO_XM1 + 1) * (g PB8.GAL_TOPO_YM1 + 1) * (g PB8.GAL_TOPO_ZM1 + 1)
  decide (g PB8.GAL_NODE_NODE_ID < n) && decide (g PB8.GAL_NODE_HOST_NODE < n) && g PB8.GAL_TIMEOUT ≠ 0 &&
  g PB8.GAL_RETRAIN_MS ≠ 0 && decide (g PB8.RRESET_SRC_MIN ≤ g PB8.RRESET_SRC_MAX) &&
  (List.range 6).all (fun p => g (PB8.GP_CTRL p) = 0 ||
    (if p < 2 then g PB8.GAL_TOPO_XM1 else if p < 4 then g PB8.GAL_TOPO_YM1 else g PB8.GAL_TOPO_ZM1) ≠ 0)

/-- R634: every valid window of a table is in order and within its target. -/
def windowsOk (g : Fld → Nat) (w : WinFields) (n top : Nat) : Bool :=
  (List.range n).all (fun i => !bit (g (w.hi i)) 31 ||
    (decide (g (w.base i) ≤ g (w.limit i)) && decide (g (w.limit i) ≤ top)))

/-- The template windows of die page B7. -/
def tplWin : WinFields := ⟨DB7.TPL_WIN_BASE, DB7.TPL_WIN_LIMIT, DB7.TPL_WIN_GRANT_LO, DB7.TPL_WIN_GRANT_HI⟩

/-- R668. -/
def mailboxSetOk (s : State) (g : Fld → Nat) : Bool :=
  g PB11.MBX_CTRL ≠ 0 && decide (g PB11.MBX_CTRL ≤ 16) &&
  decide ((g PB11.MBX_BASE + g PB11.MBX_CTRL) * 4096 ≤ fget s (.die 0 5) DB5.CARVE_BASE * 65536)

/-- R698 and the range of R545. -/
def thermSetOk (s : State) (g : Fld → Nat) : Bool :=
  decide (60 ≤ g PB12.THERM_CFG_WARN_C) && decide (g PB12.THERM_CFG_WARN_C ≤ 125) &&
  decide (g PB12.THERM_CFG_WARN_C < fget s (.pkg 12) PB12.THERM_CFG_TRIP_C)

/-- R146, R166: a Point Front's set. -/
def frontSetOk (g : Fld → Nat) : Bool :=
  let budget := g DB1.FRAME_BUDGET
  budget ≠ 0 && decide (budget ≤ 0x200000) && (List.range 16).all (fun m => g (DB1.SENS_QUOTA m) ≠ 0) &&
  decide (((List.range 16).map (fun m => g (DB1.SENS_QUOTA m))).sum + g DB1.CARRY_QUOTA ≤ budget) &&
  (List.range 8).all (fun q =>
    g (DB1.PROF_CTRL_POINTS q) ≠ 0 && decide (16 ≤ g (DB1.PROF_LAYOUT_STRIDE q)) &&
    decide (g (DB1.PROF_LAYOUT_STRIDE q) ≤ 1024) &&
    (List.range 6).all (fun i =>
      let w := match g (DB1.PROF_F_DESC_WIDTH q i) with | 0 => 0 | 1 => 1 | 2 => 2 | _ => 4
      w = 0 || decide (g (DB1.PROF_F_DESC_OFFSET q i) + w ≤ g (DB1.PROF_LAYOUT_STRIDE q)))) &&
  (g DB1.PF_CTRL_DESKEW_EN = 0 || (decide (2 ≤ g DB1.EGO_SIZE) && g DB1.EGO_BASE_LO % 16 = 0)) &&
  (g DB1.PF_CTRL_REPLAY_EN = 0 ||
    (decide (0x2480 ≤ g DB1.REPLAY_SIZE) && g DB1.REPLAY_SIZE % 64 = 0 && g DB1.REPLAY_BASE_LO % 64 = 0))

/-- R166: a Voxel Hall's set. -/
def hallSetOk (g : Fld → Nat) : Bool :=
  [DB2.VOXEL_XY_X, DB2.VOXEL_XY_Y, DB2.VOXEL_Z].all (fun f => decide (13 ≤ g f) && decide (g f ≤ 409)) &&
  [(DB2.ROI_MIN_XY_X, DB2.ROI_MAX_XY_X), (DB2.ROI_MIN_XY_Y, DB2.ROI_MAX_XY_Y), (DB2.ROI_MIN_Z, DB2.ROI_MAX_Z)].all
    (fun f => decide (sext 16 (g f.1) ≤ sext 16 (g f.2)))

/-- R24: a CORE_MAP set. -/
def coreMapOk (s : State) (d c : Nat) (g : Fld → Nat) : Bool :=
  let ls := [CB0.CORE_MAP_SLOT_L0, CB0.CORE_MAP_SLOT_L1, CB0.CORE_MAP_SLOT_L2, CB0.CORE_MAP_SLOT_L3].map g
  let sp := g CB0.CORE_MAP_SPARE_SLOT
  let named := (ls ++ [sp]).filter (fun k => k ≠ 7)
  named.all (fun k => decide (k ≤ 4)) && decide (named.eraseDups.length = named.length) &&
  ls.all (fun k => k = 7 || decide (slotState s (slotOf d c k) < 2)) &&
  (sp = 7 || slotState s (slotOf d c sp) = 1)

/-- R12: the consistency check of a page's captured set. -/
def setOk (s : State) (p : Page) (ws : List (Nat × Word)) : Bool :=
  let g := cget s p ws
  match p with
  | .pkg 2 => timeSetOk g
  | .pkg 3 => stairSetOk s g
  | .pkg 4 => portsSetOk g
  | .pkg 5 => trigSetOk g
  | .pkg 6 => ledgerSetOk s g
  | .pkg 7 => pcieSetOk g
  | .pkg 8 => gallerySetOk g
  | .pkg 9 => windowsOk g nodeWin 8 1023
  | .pkg 11 => mailboxSetOk s g
  | .pkg 12 => thermSetOk s g
  | .pkg _ => true
  | .die _ 1 => frontSetOk g
  | .die _ 2 => hallSetOk g
  | .die _ 7 => windowsOk g dramWin 16 262143 && windowsOk g tplWin 8 1535
  | .die _ _ => true
  | .cl d c 0 => coreMapOk s d c g
  | .cl _ _ _ => true
  | .core _ 11 => windowsOk g spmWin 8 1535
  | .core _ _ => true

/-! ### Safe points -/

/-- The Gallery holds no packet and no outstanding request. -/
def galleryIdle (s : State) : Bool :=
  s.gal.tags.isEmpty && s.gal.local_.isEmpty &&
    s.gal.ports.all (fun e => e.2.rxQ.isEmpty && e.2.txQ.isEmpty && e.2.cur.isEmpty && e.2.asm.isEmpty &&
      e.2.retry.isEmpty)

/-- A slot is idle: nothing entered, no write held, and no thread. -/
def slotIdle (s : State) (n : Nat) : Bool :=
  (coreAt s n).tis.isEmpty && (coreAt s n).inbound.isEmpty && (grpAt s n).flight.isEmpty &&
    s.ctx.all (fun e => e.1 / 2048 ≠ n)

/-- The stair schedule has begun frame 0 and EN is set. -/
def stairRunning (s : State) : Bool :=
  ebit s (.pkg 3) PB3.STAIR_CTRL_EN && fbit s (.pkg 3) PB3.STAIR_STATUS_RUNNING

/-- A captured B3 set changes TREADS or TREAD0_ANGLE (R78). -/
def stairReshapes (s : State) (ws : List (Nat × Word)) : Bool :=
  let p := Page.pkg 3
  cget s p ws PB3.STAIR_CTRL_TREADS ≠ eget s p PB3.STAIR_CTRL_TREADS ||
    cget s p ws PB3.TREAD0_ANGLE ≠ eget s p PB3.TREAD0_ANGLE

/-- A captured B3 set changes NEWEL_SRC (R690). -/
def stairResources (s : State) (ws : List (Nat × Word)) : Bool :=
  cget s (.pkg 3) ws PB3.STAIR_CTRL_NEWEL_SRC ≠ eget s (.pkg 3) PB3.STAIR_CTRL_NEWEL_SRC

/-- R11, R24, R77, R165, R508, R523, R634: the page is at the safe point of its captured set. A B3 set that waits for a
tread 0 or a landing takes effect at that event, a B2 set of a Voxel Hall at a frame's opening, and a B4 set port by
port. -/
def atSafePoint (s : State) (p : Page) (c : Captured) : Bool :=
  match p with
  | .pkg 3 => !stairRunning s || (c.cutSeen && !stairReshapes s c.words && !stairResources s c.words)
  | .pkg 4 => false
  | .pkg 6 => c.cutSeen || !stairRunning s
  | .pkg 8 =>
    galleryIdle s || (c.cutSeen && cget s p c.words PB8.GAL_NODE_NODE_ID = ownNode s &&
      [PB8.GAL_TOPO_XM1, PB8.GAL_TOPO_YM1, PB8.GAL_TOPO_ZM1].all (fun f => cget s p c.words f = eget s p f))
  | .pkg _ => true
  | .die d 1 => c.cutSeen || !stairRunning s || outOfService s (.point d)
  | .die _ 2 => !ebit s (.pkg 3) PB3.STAIR_CTRL_EN
  | .die d 3 => c.cutSeen || (SMap.getD s.bld.ready d []).isEmpty
  | .die d 4 => c.cutSeen || s.nbr.all (fun q => q.die ≠ d)
  | .die _ _ => true
  | .cl d c' 0 =>
    ((List.range 5).filter (fun k => [CB0.CORE_MAP_SLOT_L0, CB0.CORE_MAP_SLOT_L1, CB0.CORE_MAP_SLOT_L2,
      CB0.CORE_MAP_SLOT_L3, CB0.CORE_MAP_SPARE_SLOT].any (fun f => cget s p c.words f = k))).all
        (fun k => slotIdle s (slotOf d c' k))
  | .cl _ _ _ => true
  | .core _ _ => true

/-! ### Taking effect -/

/-- The next unwrapped angle above `a` that lies at `b` units of a revolution. -/
def nextCrossing (a b : Nat) : Nat :=
  let x := a / 2 ^ 32 * 2 ^ 32 + b * 2 ^ 16
  if a < x then x else x + 2 ^ 32

/-- The source of the newel angle has changed (R690): to SYNTH the angle converges at once; away from SYNTH, or to another
source, HOLDOVER stays set until 8 samples have been accepted. -/
def newelChanged (s : State) (old : Nat) : State :=
  let p := Page.pkg 3
  let src := newelSrc s
  let s := { s with stair.rate := none, stair.revFrom := none, stair.sample := none, stair.sampleAt := some s.now,
                    stair.agreed := 0 }
  if src = old then s
  else if src = 2 then fsetb s p PB3.STAIR_STATUS_CATCHUP true
  else fsetb (fsetb s p PB3.STAIR_STATUS_HOLDOVER true) p PB3.STAIR_STATUS_CATCHUP false

/-- R77 to R79, R690, R733: a B3 set takes effect. Setting EN awaits the next crossing of B; clearing it stops the events.
A new SYNTH line is approached by catch-up. -/
def takeStairSet (s : State) (ws : List (Nat × Word)) : State :=
  let p := Page.pkg 3
  let wasEn := ebit s p PB3.STAIR_CTRL_EN
  let old := newelSrc s
  let line := fun (s : State) => (eget s p PB3.SYNTH_RATE, eget s p PB3.TREAD0_ANGLE)
  let was := line s
  let s := setEffect s p ws
  let en := ebit s p PB3.STAIR_CTRL_EN
  let b := eget s p PB3.TREAD0_ANGLE
  let s := if newelSrc s = old then (if old = 2 ∧ line s ≠ was then fsetb s p PB3.STAIR_STATUS_CATCHUP true else s)
    else newelChanged s old
  let lag := closeLag (eget s p)
  if !en then
    fsetb { s with stair.first := none } p PB3.STAIR_STATUS_RUNNING false
  else if !wasEn then
    fsetb { s with stair.first := some (nextCrossing s.stair.angle b), stair.frame := none, stair.ahead := none,
                   stair.nextCut := 0, stair.cutAhead := false, stair.closing := [] } p PB3.STAIR_STATUS_CLOSED_ANY false
  else if s.stair.first.isSome then { s with stair.first := some (nextCrossing s.stair.angle b) }
  else { s with stair.frame := s.stair.frame.map (fun f => { f with lag := lag }),
                stair.ahead := s.stair.ahead.map (fun f => { f with lag := lag }) }

/-- R393, R447, R602, R636: a slot that a CORE_MAP set puts into a committed position begins with a cleared scratchpad, its
contexts FREE, its arrival counters zero and its access table loaded from the die's template. -/
def promoteSlot (s : State) (n : Nat) : State :=
  let s := { freeContexts s n with core := SMap.del s.core n, grp := SMap.del s.grp n }
  let s := loadTemplate (clearSpm s n) n
  (List.range 64).foldl (fun s i => fset s (.core n 1) (KB1.CTR i) 0) s

/-- The slots that hold a committed position of a cluster. -/
def committedSlots (s : State) (d c : Nat) : List Nat :=
  ((List.range 4).map (mapField s d c)).filter (fun k => k < 5)

/-- R19, R20: a CORE_MAP set takes effect. -/
def takeCoreMap (s : State) (d c : Nat) (ws : List (Nat × Word)) : State :=
  let was := committedSlots s d c
  let s := setEffect s (.cl d c 0) ws
  latchVacant (((committedSlots s d c).filter (fun k => !was.contains k)).foldl (fun s k => promoteSlot s (slotOf d c k)) s)

/-- What a consistent set does when it takes effect. -/
def takeSet (s : State) (p : Page) (ws : List (Nat × Word)) : State :=
  match p with
  | .pkg 2 =>
    let s := setEffect s p ws
    if timeSource s = 0 && discState s ≠ 0 then setDisc s 0 else s
  | .pkg 3 => takeStairSet s ws
  | .pkg 5 => (List.range 8).foldl armTrigger (setEffect s p ws)
  | .pkg 8 =>
    let shape := fun (s : State) => (ownNode s, galSize s 0, galSize s 1, galSize s 2)
    let was := shape s
    let s := galEnables (setEffect s p ws)
    if shape s = was then s else galRetrainAll s
  | .die d 7 =>
    let s := setEffect s p ws
    let kept := s.reg.regs.filter (fun e => decide (pageBase p ≤ e.1) && decide (e.1 < pageBase p + 0x1000) &&
      isShadow p (e.1 - pageBase p))
    { s with att.b7copy := SMap.put s.att.b7copy d (kept, fbit s p DB7.ACC_CTRL_LOCK) }
  | .cl d c 0 => takeCoreMap s d c ws
  | _ => setEffect s p ws

/-- R12: the captured set is checked and put into effect, or refused. -/
def takeCaptured (s : State) (p : Page) (c : Captured) : State :=
  if setOk s p c.words then takeSet (dropCaptured s p) p c.words else refuseSet s p

/-! ### PAGE_COMMIT (R11, R13) -/

/-- R635: the page is locked. -/
def pageLocked (s : State) (p : Page) : Bool :=
  match p with
  | .pkg 9 => fbit s p PB9.ACC_CTRL_LOCK
  | .die _ 7 => fbit s p DB7.ACC_CTRL_LOCK
  | .core _ 11 => fbit s p KB11.ACC_CTRL
  | _ => false

/-- A write of PAGE_COMMIT. 0xC0 captures the shadow; a page without RWS fields has nothing to capture. The B4 set is
checked here and then taken port by port (R730); WIN_BASE is used by every later TLP (R659), so that a B7 set is taken
here; so is an access table's (R634). A commit on a locked page counts (R635). -/
def commitPage (s : State) (p : Page) (key : Nat) : State :=
  if key % 256 ≠ 0xC0 || !pageShadows p then s
  else if pageLocked s p then viol s p
  else
    let c : Captured := ⟨shadowSet s p, false⟩
    let s := { s with reg.captured := SMap.put s.reg.captured (pageBase p) c }
    match p with
    | .pkg 4 =>
      if setOk s p c.words then { s with ports.portPend := (List.range 4).map (fun n => (n, c.words)) }
      else { refuseSet s p with ports.portPend := [] }
    | .pkg 7 => takeCaptured s p c
    | .pkg 9 => takeCaptured s p c
    | .die _ 7 => takeCaptured s p c
    | .core _ 11 => takeCaptured s p c
    | _ => s

/-- R12, R13: the safe point: a captured set is checked and takes effect, or is refused. -/
def execCommitTakeEffect (p : Page) (s : State) : Host.Outcome State Fault Refusal :=
  match capturedOf s p with
  | none => .next s
  | some c => if atSafePoint s p c then done (takeCaptured s p c) else .next s

/-- A tread's cut is a safe point (R11): every captured set has seen it. -/
def noteCut (s : State) : State :=
  { s with reg.captured := s.reg.captured.map (fun e => (e.1, { e.2 with cutSeen := true })) }

end Sys2Proof.Machine
end

