-- ==== Sys2Proof/Machine/Layout.lean ====
section
/-!
DEFINITION. Vectors and their layouts (R217, R218, R223 to R226, R254 to R256, R277): elements of a vector, lanes, stair and
paired stair layout; and the conversions of R263 to R271.
-/

namespace Sys2Proof.Machine

/-! ### Formats (R218) -/

/-- The format code is not reserved. -/
def fmtValid (f : Nat) : Bool := f ≤ 6 || f = 8

/-- An integer format. -/
def fmtInt (f : Nat) : Bool := f ≤ 1

/-- Bits of one element (R451); BS6 counts its exponent byte and its share of the zero bytes. -/
def fmtBits (f : Nat) : Nat :=
  if f = 0 then 4 else if f ≤ 3 then 8 else if f = 4 then 16 else if f ≤ 6 then 16 else 32

/-- Bytes of a vector (R223); ACC32 in 4-bit and 8-bit modes. -/
def fmtVec (f : Nat) : Nat := if f = 4 then 64 else if f = 8 then 128 else 32

/-- The float format of a code. -/
def fmtFloat (f : Nat) : Fmt := if f = 2 then fp8e4m3 else if f = 3 then fp8e5m2 else if f = 5 then bf16 else fp16

/-- The FORMAT is one that a stored byte shows zero or not (R286): every one but BS6 and ACC32. -/
def fmtBitmap (f : Nat) : Bool := f ≤ 3 || f = 5 || f = 6

/-- Cut a list into pieces of `n`, at most `k` of them. -/
def chunks (n : Nat) : Nat → List Nat → List (List Nat)
  | 0, _ => []
  | k + 1, xs => if xs.isEmpty then [] else xs.take n :: chunks n k (xs.drop n)

/-- Significand of lane `i` of a BS6 vector. -/
def bs6Lane (v : List Nat) (i : Nat) : Nat := bits (leNat (v.take 24)) (6 * i) 6

/-- A BS6 vector of significands and exponents. -/
def bs6Pack (sigs exs : List Nat) : List Nat :=
  toLe 24 (sigs.zipIdx.foldl (fun a e => a + e.1 % 64 * 2 ^ (6 * e.2)) 0) ++ List.replicate 8 0 ++ exs

/-- The values of the elements of some bytes. Integers are signed when `sg` holds; ACC32 is FP32 when `fp` holds. -/
def elements (f : Nat) (sg fp : Bool) (bs : List Nat) : List Fv :=
  let int := fun (w n : Nat) => Fv.fin (if sg then sext w n else (n : Int)) 0
  if f = 0 then bs.flatMap (fun b => [int 4 (b % 16), int 4 (b / 16)])
  else if f = 1 then bs.map (int 8)
  else if f = 4 then
    (chunks 64 bs.length bs).flatMap (fun v => (List.range 32).map (fun i => bs6Value (bs6Lane v i) (v.getD (32 + i) 0)))
  else if f = 8 then
    (chunks 4 bs.length bs).map (fun v => if fp then f32v (leNat v) else .fin (sext 32 (leNat v)) 0)
  else
    let n := fmtBits f / 8
    (chunks n bs.length bs).map (fun v => (fmtFloat f).decode (leNat v))

/-! ### Conversion (R263 to R268) -/

/-- The value after steps 1 and 2 of R263. -/
def scaled (v : Fv) (scale : Nat) : Nat := f32mul (f32r v) scale

/-- The value is zero. -/
def Fv.isZero : Fv → Bool
  | .fin m _ => m = 0
  | _ => false

/-- An integer destination: its code and whether the element saturated or a NaN became zero. -/
def intCode (md : RoundMode) (w : Nat) (p : Fv) : Nat × Bool :=
  match p with
  | .nan => (0, true)
  | .inf neg => (wrap w (if neg then -2 ^ (w - 1) else 2 ^ (w - 1) - 1), true)
  | .fin m e =>
    let i := Fv.toInt md m e
    (wrap w (satS w i), satS w i ≠ i)

/-- Convert one value to a format other than BS6 (R263): the code, and whether R268 marks the element. `fp` selects FP32
for an ACC32 destination. -/
def convertTo (f : Nat) (fp : Bool) (md : RoundMode) (scale : Nat) (v : Fv) : Nat × Bool :=
  let p := f32v (scaled v scale)
  let lost := fun (n : Nat) => decide (n = 0) && !v.isZero
  if f = 0 ∨ f = 1 ∨ (f = 8 ∧ fp = false) then
    let r := intCode md (if f = 0 then 4 else if f = 1 then 8 else 32) p
    (r.1, r.2 || lost r.1)
  else
    let F := if f = 8 then fp32 else fmtFloat f
    let c := F.encode md .saturate p
    let excess := match p with | .fin _ _ => F.encode md .toInf p ≠ c | _ => false
    (c, excess || lost c || (c = F.nan && v ≠ .nan))

/-- Convert a block of 32 values to BS6 (R267): the vector's bytes and the number of elements R268 marks. -/
def convertBs6 (rs : List RoundMode) (scale : Nat) (vs : List Fv) : List Nat × Nat :=
  let ps := vs.map (fun v => f32v (scaled v scale))
  let b := bs6Block ps rs
  let excess := fun (p : Fv) (md : RoundMode) => match p with
    | .fin m e => decide (bs6Q md b.1 m e > 31)
    | .inf _ => true
    | .nan => false
  let marks := ((vs.zip (ps.zip rs)).zip b.2).filter (fun z =>
    excess z.1.2.1 z.1.2.2 || (z.2 % 32 = 0 && !z.1.1.isZero))
  (bs6Pack b.2 (List.replicate 32 b.1), marks.length)

/-- The rounding of the next `n` elements: to nearest, or stochastic with a free 16 bits each (R265). -/
def roundings (s : State) (stoch : Bool) (n : Nat) : List RoundMode × State :=
  if stoch then
    ((List.range n).map (fun i => .stoch ((Config.freeWord (s.free + i)).toNat % 65536)), { s with free := s.free + n })
  else (List.replicate n .nearest, s)

/-- Two nibbles a byte, the first low. -/
def packNibbles : List Nat → List Nat
  | a :: b :: rest => (a % 16 + 16 * (b % 16)) :: packNibbles rest
  | [a] => [a % 16]
  | [] => []

/-- Convert values to the bytes of a format: bytes, marked elements. -/
def convertRow (f : Nat) (fp : Bool) (rs : List RoundMode) (scale : Nat) (vs : List Fv) : List Nat × Nat :=
  if f = 4 then
    (List.range (vs.length / 32)).foldl (fun acc i =>
      let r := convertBs6 ((rs.drop (32 * i)).take 32) scale ((vs.drop (32 * i)).take 32)
      (acc.1 ++ r.1, acc.2 + r.2)) ([], 0)
  else
    let cs := (vs.zip rs).map (fun z => convertTo f fp z.2 scale z.1)
    let codes := cs.map Prod.fst
    (if f = 0 then packNibbles codes else codes.flatMap (toLe (fmtBits f / 8)), (cs.filter Prod.snd).length)

/-! ### Lanes and stair layout -/

/-- Lane `i` of a vector with lanes of `lw` bytes; of a BS6 vector, significand and exponent. -/
def laneOf (f lw : Nat) (v : List Nat) (i : Nat) : Nat :=
  if f = 4 then bs6Lane v i + 64 * v.getD (32 + i) 0 else leNat ((v.drop (lw * i)).take lw)

/-- The vector of some lanes. -/
def vecOf (f lw : Nat) (ls : List Nat) : List Nat :=
  if f = 4 then bs6Pack (ls.map (· % 64)) (ls.map (· / 64)) else ls.flatMap (toLe lw)

/-- Stair layout (R224): the stored vectors of some logical vectors, lanes out of range zero. -/
def stairOf (f lw : Nat) (vs : List (List Nat)) : List (List Nat) :=
  let lanes := vs.map (fun v => (List.range 32).map (laneOf f lw v))
  (List.range (vs.length + 31)).map (fun t => vecOf f lw ((List.range 32).map (fun i =>
    if i ≤ t then (lanes.getD (t - i) []).getD i 0 else 0)))

/-- Logical vector `j` of stored vectors in stair layout. -/
def unstairAt (f lw : Nat) (ss : List (List Nat)) (j : Nat) : List Nat :=
  vecOf f lw ((List.range 32).map (fun i => laneOf f lw (ss.getD (j + i) []) i))

/-- Paired stair layout (R277): stored vectors of 64 bytes. -/
def pairOf (vs : List (List Nat)) : List (List Nat) :=
  (List.range (vs.length + 30)).map (fun t => (List.range 16).flatMap (fun g =>
    if 2 * g ≤ t then
      let v := vs.getD (t - 2 * g) []
      (List.range 4).map (fun i => v.getD (4 * g + i) 0)
    else [0, 0, 0, 0]))

/-- Round up to a multiple of 128. -/
def up128 (n : Nat) : Nat := (n + 127) / 128 * 128

/-- Bytes padded with zeros to a multiple of 128. -/
def pad128 (bs : List Nat) : List Nat := bs ++ List.replicate (up128 bs.length - bs.length) 0

/-- Split an FP32 value into two BF16 codes (R270). -/
def splitBf16 (x : Nat) : Nat × Nat :=
  let v := f32v x
  let hi := bf16.encode .nearest .saturate v
  match v with
  | .fin _ _ => (hi, bf16.encode .nearest .saturate (v.add (bf16.decode hi).neg))
  | _ => (hi, 0)

end Sys2Proof.Machine
end

