-- ==== Sys2Proof/Machine/Energy.lean ====
section
/-!
DEFINITION. The energy ledger, throttling and frequency steps (R514 to R527), the thermal monitors (R528 to R530, R562),
SUPPLY_WARN_N (R531, R532), margin and ageing (R533 to R538), watchdogs (R514) and the AVSBus (R527).
-/

namespace Sys2Proof.Machine

/-! ### Ledger -/

/-- The mean of the last 64 sample powers, in µW (R517); of those taken while there are fewer. -/
def pAvg (s : State) : Nat := s.led.samples.foldl (· + ·) 0 / max 1 s.led.samples.length

/-- The latest sample power in µW. -/
def pLast (s : State) : Nat := s.led.samples.headD 0

/-- CAP in µW: the register counts 1/16 W. -/
def capUw (s : State) : Nat := eget s (.pkg 6) PB6.POWER_CAP * 62500

/-- The lower threshold CAP × (1 − HYST/256), times 256. -/
def capLow256 (s : State) : Nat := capUw s * (256 - eget s (.pkg 6) PB6.THROTTLE_CFG_HYST)

/-- THERM_WARN of LED_STATUS. -/
def thermWarn (s : State) : Bool := fbit s (.pkg 6) PB6.LED_STATUS_THERM_WARN

/-- The stretch level s. -/
def stretchLevel (s : State) : Nat := fget s (.pkg 6) PB6.LED_STATUS_STRETCH

/-- The current voltage and frequency point of a die. -/
def clkPoint (s : State) (d : Nat) : Nat := fget s (.die d 10) DB10.ACLK_STATE_POINT

/-- Put the deepest throttle step in force into LED_STATUS.STEP; a change sets STEP_CHANGE (R539, R540). -/
def noteStep (s : State) : State :=
  let st := if s.led.hold2 then 4 else if s.led.hold3 then 3
    else if clkPoint s 0 ≠ 0 ∨ clkPoint s 1 ≠ 0 then 2 else if stretchLevel s ≠ 0 then 1 else 0
  if fget s (.pkg 6) PB6.LED_STATUS_STEP = st then s
  else raiseInt (fset s (.pkg 6) PB6.LED_STATUS_STEP st) (.pkg 6) 7

/-- R524: the stretch level after a sample. -/
def nextStretch (s : State) : Nat :=
  let l := stretchLevel s
  if pLast s > capUw s ∨ thermWarn s then min 8 (l + 1)
  else if pLast s * 256 < capLow256 s then l - 1
  else l

/-- Hold the stretch level on the ledger page and on both dies' clock pages, with the pulses suppressed in the
microsecond just ended (s of every 16 ACLK periods). -/
def applyStretch (s : State) (l : Nat) : State :=
  let old := stretchLevel s
  let s := [0, 1].foldl (fun s d =>
    let mhz := fget s (.die d 10) (DB10.VF_POINT_MHZ (clkPoint s d))
    let acc := s.led.stretch16 + mhz * old
    let s := if d = 0 then { s with led.stretch16 := acc % 16 } else s
    let s := fadd64 s (.die d 10) DB10.STRETCHED_LO DB10.STRETCHED_HI (acc / 16)
    fset s (.die d 10) DB10.ACLK_STATE_STRETCH l) s
  let s := fset s (.pkg 6) PB6.LED_STATUS_STRETCH l
  { s with led.s8since := if l = 8 then (match s.led.s8since with | some t => some t | none => some s.now) else none }

/-- The slots whose next pass waits for the ledger. -/
def waitingPasses (s : State) : List Nat :=
  (s.grp.filter (fun g => match g.2.next with | some n => n.asked && !n.admitted | none => false)).map (fun g => g.1)

/-- R516, R517, R524: one sample. `rails` holds the current (mA) and the voltage (mV) of each measured rail. -/
def execLedgerSample (rails : List (Nat × Nat)) (s : State) : Host.Outcome State Fault Refusal :=
  let uw := rails.foldl (fun a r => a + r.1 * r.2) 0
  -- one microsecond of x µW is x pJ; SPENT counts 2^-10 µJ
  let e := uw * 1024 / 1000000
  let s := { s with led.samples := (uw :: s.led.samples).take 64, led.spent := s.led.spent + e,
                    led.sinceTread := s.led.sinceTread + e }
  let s := fset s (.pkg 6) PB6.POWER_P_LAST (min 65535 (pLast s * 16 / 1000000))
  let s := fset s (.pkg 6) PB6.POWER_P_AVG (min 65535 (pAvg s * 16 / 1000000))
  let excess := decide (pAvg s > capUw s)
  let s := if excess && !fbit s (.pkg 6) PB6.LED_STATUS_OVER_CAP then
      raiseInt (finc s (.pkg 6) PB6.CAP_EVENTS) (.pkg 6) 0 else s
  let s := fsetb s (.pkg 6) PB6.LED_STATUS_OVER_CAP excess
  let s := noteStep (applyStretch s (nextStretch s))
  done { s with led.toTest := waitingPasses s }

/-- R518: a ledger period ends. -/
def endPeriod (s : State) : State :=
  let s := fset s (.pkg 6) PB6.LAST_PERIOD_UJ (s.led.spent / 1024)
  let s := { s with led.spent := 0, led.periodFrom := s.tb.dev }
  let s := raiseInt (fsetb s (.pkg 6) PB6.LED_STATUS_OVERDRAW false) (.pkg 6) 3
  { s with led.toTest := waitingPasses s }

/-- PERIOD_SRC 0 with the stair schedule enabled: periods end at landings (R518). -/
def periodByLanding (s : State) : Bool :=
  !ebit s (.pkg 6) PB6.LED_CTRL_PERIOD_SRC && ebit s (.pkg 3) PB3.STAIR_CTRL_EN

/-- R518: the timer's end of a period, PERIOD_US of device time after the previous end. (A landing's end is part of
TREAD_EVENT.) -/
def execLedgerPeriodEnd (s : State) : Host.Outcome State Fault Refusal :=
  if !periodByLanding s && decide (s.led.periodFrom + eget s (.pkg 6) PB6.PERIOD_US * 1000 * 2 ^ 32 ≤ s.tb.dev) then
    done (endPeriod s)
  else .next s

/-- R517: TREAD_UJ of the closed tread takes the energy since the previous tread event. -/
def ledgerTread (s : State) (k : Nat) : State :=
  let s := fset s (.pkg 6) (PB6.TREAD_UJ k) (s.led.sinceTread / 1024)
  { s with led.sinceTread := 0 }

/-- Firmware sets or clears one CLASS_HOLD bit on every core (R525). -/
def holdClass (s : State) (c : Nat) (on : Bool) : State :=
  (List.range 40).foldl (fun s n =>
    fset s (.core n 1) KB1.TE_CTRL_CLASS_HOLD
      (setBits (fget s (.core n 1) KB1.TE_CTRL_CLASS_HOLD) c 1 (b2n on))) s

/-- Begin a frequency step of one die to `pt` (R526): an upward step first raises the voltage over the AVSBus. -/
def beginStep (s : State) (d pt : Nat) : State :=
  let s := fsetb s (.die d 10) DB10.ACLK_STATE_STEP_PENDING true
  if pt < clkPoint s d then
    fsetb { s with led.steps := SMap.put s.led.steps d (pt, StepPhase.raise) } (.die d 10) DB10.AVS_STATUS_AVS_BUSY true
  else { s with led.steps := SMap.put s.led.steps d (pt, StepPhase.lock s.now) }

/-- A frequency step of the die is in progress. -/
def stepping (s : State) (d : Nat) : Bool := (SMap.find s.led.steps d).isSome

/-- R525: firmware's throttle decision, every 64 µs. A die none of whose control cores runs takes no step (R515). -/
def execThrottleTick (s : State) : Host.Outcome State Fault Refusal :=
  if !(ccRunning s 0 || ccRunning s 1) then .next s
  else
    let cap := capUw s
    let excess := decide (pAvg s > cap) || thermWarn s
    let under := decide (pAvg s * 256 < capLow256 s) && !thermWarn s
    let held := match s.led.s8since with
      | some t => decide (t + eget s (.pkg 6) PB6.THROTTLE_CFG_STRETCH_HOLD_US * 1000 ≤ s.now)
      | none => false
    let busy := stepping s 0 || stepping s 1
    let s :=
      if excess && held then
        if clkPoint s 0 < eget s (.die 0 10) DB10.VF_LIMIT ∧ clkPoint s 1 < eget s (.die 1 10) DB10.VF_LIMIT then
          if busy then s
          else [0, 1].foldl (fun s d => if ccRunning s d then beginStep s d (clkPoint s d + 1) else s) s
        else if !s.led.hold3 then { holdClass s 3 true with led.hold3 := true }
        else if !s.led.hold2 then { holdClass s 2 true with led.hold2 := true }
        else raiseInt (fsetb s (.pkg 6) PB6.LED_STATUS_CAP_UNMET true) (.pkg 6) 1
      else s
    let s :=
      if under && stretchLevel s = 0 then
        let s :=
          if s.led.hold2 then { holdClass s 2 false with led.hold2 := false }
          else if s.led.hold3 then { holdClass s 3 false with led.hold3 := false }
          else if busy then s
          else [0, 1].foldl (fun s d =>
            if ccRunning s d && decide (clkPoint s d > 0) then beginStep s d (clkPoint s d - 1) else s) s
        fsetb s (.pkg 6) PB6.LED_STATUS_CAP_UNMET false
      else s
    done (noteStep s)

/-- R526: the idle PLL has locked at the new frequency; issue on the die is held from here until the switch. -/
def execFrequencyStepLock (d : Fin 2) (s : State) : Host.Outcome State Fault Refusal :=
  match SMap.find s.led.steps d.val with
  | some (pt, .lock _) =>
    let pll := 1 - fget s (.die d.val 10) DB10.ACLK_STATE_PLL_SEL
    let s := fset s (.die d.val 10) DB10.CLK_STATUS_LOCK
      (setBits (fget s (.die d.val 10) DB10.CLK_STATUS_LOCK) pll 1 1)
    done { s with led.steps := SMap.put s.led.steps d.val (pt, StepPhase.hold) }
  | _ => .next s

/-- Every engine group of the die is idle: no pass in flight (R248). -/
def dieIdle (s : State) (d : Nat) : Bool :=
  s.grp.all (fun g => slotDie g.1 ≠ d || g.2.flight.isEmpty)

/-- Issue on the die is held by a frequency step (R526). -/
def stepHolds (s : State) (d : Nat) : Bool :=
  match SMap.find s.led.steps d with
  | some (_, .hold) => true
  | _ => false

/-- A step is over: STEP_PENDING falls. -/
def endStep (s : State) (d : Nat) : State :=
  fsetb { s with led.steps := SMap.del s.led.steps d } (.die d 10) DB10.ACLK_STATE_STEP_PENDING false

/-- R526: once every engine group of the die is idle the clock switches to the other PLL and issue resumes; a downward
step then lowers the voltage with work running. The stretch level is kept. -/
def execFrequencyStepSwitch (d : Fin 2) (s : State) : Host.Outcome State Fault Refusal :=
  match SMap.find s.led.steps d.val with
  | some (pt, .hold) =>
    if dieIdle s d.val then
      let p := Page.die d.val 10
      let down := decide (pt > clkPoint s d.val)
      let s := fset s p DB10.ACLK_STATE_PLL_SEL (1 - fget s p DB10.ACLK_STATE_PLL_SEL)
      let s := raiseInt (finc (fset s p DB10.ACLK_STATE_POINT pt) p DB10.CLK_SWITCHES) p 0
      let s := if down then
          fsetb { s with led.steps := SMap.put s.led.steps d.val (pt, StepPhase.lower) } p DB10.AVS_STATUS_AVS_BUSY true
        else endStep s d.val
      done (noteStep s)
    else .next s
  | _ => .next s

/-- R526: an idle PLL that has not locked within 50 µs abandons the step, counted and recorded. -/
def execFrequencyStepAbandon (d : Fin 2) (s : State) : Host.Outcome State Fault Refusal :=
  match SMap.find s.led.steps d.val with
  | some (pt, .lock t) =>
    if t + 50000 ≤ s.now then
      let s := endStep s d.val
      let s := raiseInt (finc s (.pkg 6) PB6.STEP_FAIL) (.die d.val 10) 1
      done (record s (.die d.val 10) 0x08 0 (clkPoint s d.val) pt 0)
    else .next s
  | _ => .next s

/-- R527: an AVSBus voltage write of a die's rail ends. On success VDD_MV takes the measured voltage and a step that waited
for it goes on; a failure sets AVS_ERR and ends the step. -/
def execAvsbusTransactionDone (d : Fin 2) (ok : Bool) (mv : BitVec 16) (s : State) :
    Host.Outcome State Fault Refusal :=
  let p := Page.die d.val 10
  if !fbit s p DB10.AVS_STATUS_AVS_BUSY then .next s
  else
    let s := fsetb (fsetb s p DB10.AVS_STATUS_AVS_BUSY false) p DB10.AVS_STATUS_AVS_ERR (!ok)
    let s := if ok then fset s p DB10.AVS_STATUS_VDD_MV mv.toNat else raiseInt s p 2
    let s := match SMap.find s.led.steps d.val with
      | some (pt, .raise) =>
        if ok then { s with led.steps := SMap.put s.led.steps d.val (pt, StepPhase.lock s.now) } else endStep s d.val
      | some (_, .lower) => endStep s d.val
      | _ => s
    done s

/-! ### Thermal monitors -/

/-- The junction temperature of a cluster as its sensor read it last. -/
def clusterTemp (s : State) (m : Nat) : Int := SMap.getD s.mon.temps m 0

/-- A temperature in a signed field of 8 bits (R545). The spec states no reading beyond that range, which TRIP_C may lie in
(R528): the field is then a free value. -/
def degField (s : State) (t : Int) : Nat := if -128 ≤ t ∧ t ≤ 127 then wrap 8 t else (Config.freeWord s.free).toNat % 256

/-- The hottest DRAM layer, signed. -/
def dramHot (s : State) : Int := sext 8 (fget s (.pkg 12) PB12.TEMP_MAX_DRAM_C)

/-- R529: recompute THERM_WARN; a rise counts in THERM_EVENTS and sets INT_RAW.THERM_WARN on page B12. -/
def noteTherm (s : State) : State :=
  let warn : Int := eget s (.pkg 12) PB12.THERM_CFG_WARN_C
  let w := (List.range 8).any (fun m => decide (clusterTemp s m ≥ warn)) || decide (dramHot s ≥ 95)
  let s := if w && !thermWarn s then raiseInt (finc s (.pkg 6) PB6.THERM_EVENTS) (.pkg 12) 3 else s
  fsetb s (.pkg 6) PB6.LED_STATUS_THERM_WARN w

/-- R528 to R530, R562: one reading of a cluster's junction sensor. -/
def execClusterTempSample (m : Fin 8) (t : Int) (s : State) : Host.Outcome State Fault Refusal :=
  let s := { s with mon.temps := SMap.setD s.mon.temps m.val t 0 }
  let s := tickFree (fset s (.pkg 12) (PB12.CL_TEMP m.val) (degField s t))
  let hot := (List.range 8).foldl (fun a i => max a (clusterTemp s i)) (clusterTemp s 0)
  let s := noteTherm (tickFree (fset s (.pkg 12) PB12.TEMP_MAX_TJ_C (degField s hot)))
  let trip : Int := fget s (.pkg 12) PB12.THERM_CFG_TRIP_C
  let cool := decide (hot < trip - 15)
  let s := { s with mon.coolSince :=
    if cool then (match s.mon.coolSince with | some x => some x | none => some s.now) else none }
  if t ≥ trip ∧ !s.mon.tripped then
    let s := reportErr { s with mon.tripped := true } (.pkg 12) 0x30 m.val 0 false
    done (assertFused s 8 .package none)
  else done s

/-- R562: every sensor below TRIP_C − 15 °C for 1 s releases the trip source. -/
def execThermalTripRelease (s : State) : Host.Outcome State Fault Refusal :=
  match s.mon.tripped, s.mon.coolSince with
  | true, some t =>
    if t + 1000000000 ≤ s.now then done (releaseSource { s with mon.tripped := false } 8) else .next s
  | _, _ => .next s

/-! ### SUPPLY_WARN_N -/

/-- The hold of R531 is in force. -/
def supplyHeld (s : State) : Bool := fbit s (.pkg 6) PB6.LED_STATUS_SUPPLY_HOLD

/-- R531 step 1, R532: the pin has been low for 100 ns. A fall during the hold leaves the hold unchanged. -/
def execSupplyWarnFall (s : State) : Host.Outcome State Fault Refusal :=
  let s := pauseBoot { s with sup.pinLow := true, sup.risen := none }
  if supplyHeld s || s.sup.stopped then done s else done (supplyStep1 s)

/-- R531 step 2, R532: at the next tread event or at the deadline. With the pin high the hold is not entered. -/
def supplyStep2 (s : State) : State :=
  if s.sup.step1.isSome && s.sup.due then { s with sup.due := false, sup.stopped := s.sup.pinLow } else s

/-- R531: HOLD_DEADLINE_US after step 1. -/
def execHoldDeadlineExpire (s : State) : Host.Outcome State Fault Refusal :=
  match s.sup.step1 with
  | some t =>
    if s.sup.due && decide (t + eget s (.pkg 6) PB6.SUPPLY_CFG_HOLD_DEADLINE_US * 1000 ≤ s.now) then
      done (supplyStep2 s)
    else .next s
  | none => .next s

/-- R531 step 2: at the first point with no pass in flight the hold is entered and the bypass closes. -/
def execSupplyHoldEnter (s : State) : Host.Outcome State Fault Refusal :=
  if s.sup.stopped && !supplyHeld s && dieIdle s 0 && dieIdle s 1 then
    let s := fsetb s (.pkg 6) PB6.LED_STATUS_SUPPLY_HOLD true
    let s := bypassUpdate s
    done (raiseInt (record s (.pkg 6) 0x09 0 2 0 0) (.pkg 6) 5)
  else .next s

/-- R532: a rise of the pin starts the RELEASE_MS count. -/
def execSupplyWarnRise (s : State) : Host.Outcome State Fault Refusal :=
  done (resumeBoot { s with sup.pinLow := false, sup.risen := some s.now })

/-- R531 step 3, R532: the pin high for RELEASE_MS ends the hold and the class holds. -/
def execSupplyRelease (s : State) : Host.Outcome State Fault Refusal :=
  match s.sup.risen with
  | some t =>
    if !s.sup.pinLow && s.sup.step1.isSome &&
        decide (t + eget s (.pkg 6) PB6.SUPPLY_CFG_RELEASE_MS * 1000000 ≤ s.now) then
      let held := supplyHeld s
      let s := { s with sup.step1 := none, sup.due := false, sup.stopped := false, sup.risen := none }
      let s := fsetb (fsetb s (.pkg 6) PB6.LED_STATUS_SUPPLY_PENDING false) (.pkg 6) PB6.LED_STATUS_SUPPLY_HOLD false
      let s := if held then raiseInt (record s (.pkg 6) 0x09 0 3 0 0) (.pkg 6) 6 else s
      done (bypassUpdate s)
    else .next s
  | none => .next s

/-! ### Margin and ageing -/

/-- R533: a cluster's replica slacks (ps) and oscillator drifts (ppm) are read; the registers hold the worst. Of the
drifts the worst is the one of greatest size. -/
def execMarginSample (m : Fin 8) (slacks drifts : List Int) (s : State) : Host.Outcome State Fault Refusal :=
  if ccRunning s (m.val / 4) && clkPoint s (m.val / 4) = 0 then
    match slacks, drifts with
    | x :: xs, y :: ys =>
      let worst := xs.foldl min x
      let ro := ys.foldl (fun a b => if b.natAbs > a.natAbs then b else a) y
      done (fset (fset s (.pkg 12) (PB12.CL_SLACK m.val) (wrap 16 (satS 16 worst))) (.pkg 12) (PB12.CL_RO m.val)
        (wrap 32 ro))
    | _, _ => .next s
  else .next s

/-- The worst slack over a die's clusters. -/
def dieSlack (s : State) (d : Nat) : Int :=
  let f := fun c => sext 16 (fget s (.pkg 12) (PB12.CL_SLACK (d * 4 + c)))
  min (min (f 0) (f 1)) (min (f 2) (f 3))

/-- R535, R536: the re-plan of one die. `derate` is how many 25 MHz steps firmware takes before the worst slack it
measures is at least GUARD_PS. -/
def replanDie (s : State) (d derate : Nat) : State :=
  let now := dieSlack s d
  let before := SMap.getD s.mon.planSlack d now
  let s := { s with mon.planSlack := SMap.put s.mon.planSlack d now }
  let ds := before - now
  if ds ≤ 0 then s
  else
    let up := (ds.toNat * fget s (.pkg 12) PB12.GUARD_MV_PER_PS + 256 * 5 - 1) / (256 * 5) * 5
    let p := Page.die d 10
    let need := fget s p (DB10.VF_POINT_MV 0) + up
    let s := (List.range 8).foldl (fun s n =>
      fset s p (DB10.VF_POINT_MV n) (min 850 (fget s p (DB10.VF_POINT_MV n) + up))) s
    let s := fsetb s p DB10.AVS_STATUS_AVS_BUSY true
    if need > 850 then
      let s := fset s p (DB10.VF_POINT_MHZ 0) (fget s p (DB10.VF_POINT_MHZ 0) - 25 * derate)
      raiseInt (fsetb s (.pkg 12) PB12.AGE_STATUS_DERATED true) (.pkg 12) 1
    else s

/-- R538: the margin report after a re-plan. DRIFT over an interval of no whole hour is not stated: a free value. -/
def reportMargin (s : State) : State :=
  let p := Page.pkg 12
  let mps := min (dieSlack s 0) (dieSlack s 1) - (fget s p PB12.GUARD_GUARD_PS : Int)
  let mv := max (fget s (.die 0 10) (DB10.VF_POINT_MV 0)) (fget s (.die 1 10) (DB10.VF_POINT_MV 0))
  let room := 850 - mv
  let hours := fget s p PB12.POWERED_HOURS
  let dh := hours - fget s p PB12.LAST_REPLAN
  let drift := if dh = 0 then (Config.freeWord s.free).toNat % 65536 else min 65535 ((mv - s.mon.planMv) * 16000 / dh)
  let s := if dh = 0 then tickFree s else s
  let s := fset (fset s p PB12.DRIFT_DRIFT drift) p PB12.DRIFT_REMAIN_KH
    (if drift = 0 then 0xFFFF else min 0xFFFF (room * 16 / drift))
  let s := fset (fset s p PB12.MARGIN_HEADROOM_MV room) p PB12.MARGIN_MARGIN_PS (wrap 16 (satS 16 mps))
  let low := decide (room < 20) || decide (mps < 0)
  let s := if low && !fbit s p PB12.AGE_STATUS_MARGIN_LOW then raiseInt s p 2 else s
  let s := fset (fsetb s p PB12.AGE_STATUS_MARGIN_LOW low) p PB12.LAST_REPLAN hours
  let s := { s with mon.planMv := mv, mon.replanReq := false, boot.flashHours := hours }
  let s := fsetb s p PB12.AGE_STATUS_REPLANNING false
  record (raiseInt (finc s p PB12.REPLANS) p 0) p 0x0A 0 mv (wrap 32 mps) hours

/-- R535 to R538: a re-plan, due every 100 powered hours, at a start after L0 (before the first plan) or on AGE_CMD. A die
none of whose control cores runs takes no re-plan (R515). -/
def execReplan (derate0 derate1 : Nat) (s : State) : Host.Outcome State Fault Refusal :=
  let due := s.mon.replanReq || s.mon.planSlack.isEmpty ||
    decide (fget s (.pkg 12) PB12.LAST_REPLAN + 100 ≤ fget s (.pkg 12) PB12.POWERED_HOURS)
  if due && (ccRunning s 0 || ccRunning s 1) then
    let s := if ccRunning s 0 then replanDie s 0 derate0 else s
    let s := if ccRunning s 1 then replanDie s 1 derate1 else s
    done (reportMargin s)
  else .next s

/-- R535: AGE_CMD.REPLAN asks for an immediate re-plan. -/
def ageCmd (s : State) : State :=
  fsetb { s with mon.replanReq := true } (.pkg 12) PB12.AGE_STATUS_REPLANNING true

/-- R537: a whole hour with VDD_CORE0 present. -/
def execPoweredHour (s : State) : Host.Outcome State Fault Refusal :=
  if s.rst.lowRails.contains .core0 then .next s else done (finc s (.pkg 12) PB12.POWERED_HOURS)

/-- R514: control core `n` of a die, one halted by its memory included (R587), has not restarted its watchdog within WDT_MS: it halts, and the WDT source is
asserted for 1 µs with the reach its fuse gives. -/
def execWatchdogExpire (d : Fin 2) (n : Fin 4) (s : State) : Host.Outcome State Fault Refusal :=
  let p := Page.die d.val 9
  let stuck := s.err.ccHalt.contains (d.val * 4 + n.val)
  if bit (fget s p DB9.CC_STATUS_RUNNING) n.val || stuck then
    let s := { s with err.ccHalt := s.err.ccHalt.filter (· ≠ d.val * 4 + n.val) }
    let s := fset s p DB9.CC_STATUS_RUNNING (setBits (fget s p DB9.CC_STATUS_RUNNING) n.val 1 0)
    let s := fset s p DB9.CC_STATUS_HALTED (setBits (fget s p DB9.CC_STATUS_HALTED) n.val 1 1)
    let s := reportErr (raiseInt (finc s p DB9.WDT_EXPIRIES) p n.val) p 0x2D n.val 0 false
    done (assertFused s 5 (.die d.val) (some (s.now + 1000)))
  else .next s

end Sys2Proof.Machine
end

