-- ==== Sys2Proof/Machine/Units.lean ====
section
/-!
DEFINITION. Entered tensor instructions and their queues (R375, R398 to R405, R432, R433): finding and changing them, and
the units that serve each opcode.
-/

namespace Sys2Proof.Machine

/-- The queue of an opcode (R436). -/
def queueOf (op : Nat) : Queue :=
  if op = 0xC0 then .engine
  else if op = 0xC1 ∨ 0xC5 ≤ op ∧ op ≤ 0xC7 then .mover
  else if 0xCB ≤ op ∧ op ≤ 0xCE then .embedding
  else .sparse

/-- R432: the opcodes that the sparse queue forwards to the die-common blocks. -/
def forwarded (op : Nat) : Bool := op = 0xC8 || op = 0xC9 || op = 0xCA

/-- Set the phase of an entered instruction. -/
def tiPhase (s : State) (slot id : Nat) (ph : TiPhase) : State :=
  match tiAt s slot id with
  | some t => putTi s slot { t with phase := ph }
  | none => s

/-- The instruction is with its unit. -/
def Ti.runs (t : Ti) : Bool := t.phase = .running || t.phase = .ending

/-- The instruction waits in its queue. -/
def Ti.isQueued (t : Ti) : Bool := match t.phase with | .queued _ => true | _ => false

/-- The order in which a queued instruction was admitted. -/
def Ti.order (t : Ti) : Nat := match t.phase with | .queued n => n | _ => 0

/-- The instructions of a core in a queue and not yet with their unit. -/
def queued (s : State) (slot : Nat) (q : Queue) : List Ti :=
  (coreAt s slot).tis.filter (fun t => queueOf t.op = q && t.isQueued)

/-- The instructions of a core that a unit of a queue is running. -/
def runningOn (s : State) (slot : Nat) (q : Queue) : List Ti :=
  (coreAt s slot).tis.filter (fun t => queueOf t.op = q && t.runs && !forwarded t.op)

/-- Range entries in use: one for each range of an entered instruction and each held set (R398, R402). -/
def entriesUsed (s : State) (slot : Nat) : Nat := (entries s slot).length

/-- The slots of a cluster. -/
def clusterSlots (d c : Nat) : List Nat := (List.range 5).map (slotOf d c)

/-- The cluster of a slot, numbered die × 4 + cluster. -/
def slotCl (slot : Nat) : Nat := slotDie slot * 4 + slotCluster slot

end Sys2Proof.Machine
end

