-- ==== Sys2Proof/Machine/RegRead.lean ====
section
/-!
DEFINITION. Reads of registers (R6 to R10, R582, R676): the fields that show the state of a block, the registers whose read
has an effect, and the halves of 64-bit counters.
-/

namespace Sys2Proof.Machine

/-! ### Status of the blocks -/

/-- What the block of a page has taken is in flight (R677), shown as BUSY. -/
def pageBusy (s : State) : Page → Bool
  | .core n 1 => s.ctx.any (fun e => e.1 / 2048 = n && (!e.2.loads.isEmpty || e.2.stores ≠ 0))
  | .core n 2 => !(coreAt s n).tis.isEmpty
  | .core n 3 => !(grpAt s n).flight.isEmpty || (grpAt s n).chain.isSome
  | .core n 8 => fbit s (.core n 8) KB8.SPM_STATUS_CLEARING
  | .core n 9 => !(runningOn s n .mover).isEmpty
  | .core n 10 => !(runningOn s n .sparse).isEmpty
  | .core n b => decide (4 ≤ b ∧ b ≤ 7) && (grpAt s n).flight.any (fun f => bit f.engines (b - 4))
  | .cl d c 2 => !(embAt s (d * 4 + c)).misses.isEmpty || (clusterSlots d c).any (fun n => !(runningOn s n .embedding).isEmpty)
  | .die d 1 => !(frontAt s d).held.isEmpty
  | .die d 2 => !(hallAt s d).queue.isEmpty || !(hallAt s d).alcove.isEmpty || !(hallAt s d).ovf.isEmpty ||
      !(hallAt s d).carries.isEmpty
  | .die d 3 => s.bld.rbs.any (fun r => !(unbuiltOn r d).isEmpty)
  | .die d 4 => s.nbr.any (fun r => r.die = d)
  | .pkg 8 => !s.gal.tags.isEmpty
  | .pkg 9 => s.att.quote.isSome
  | .pkg 10 => !s.hist.queue.isEmpty
  | .pkg 11 => fbit s (.pkg 11) PB11.MBX_STATUS_SCANNING
  | .pkg 12 => fbit s (.pkg 12) PB12.AGE_STATUS_REPLANNING
  | .pkg 13 => s.boot.starting
  | _ => false

/-- The slot of a page is held out of service by SLOT_FENCE (R676). -/
def pageFenced (s : State) : Page → Bool
  | .core n _ => slotFenced s n
  | _ => false

/-- PAGE_STATUS (R12, R13, R676, R677). -/
def pageStatus (s : State) (p : Page) : Nat :=
  fget s p HDR.PAGE_STATUS_COMMIT_ERR * 16 + b2n (pageFenced s p) * 8 + b2n (commitPending s p) * 4 +
    b2n (quiescing s p && !pageBusy s p) * 2 + b2n (pageBusy s p)

/-- CLK_RST_STATE (R582). -/
def clkRstState (s : State) (p : Page) : Nat :=
  let b := pageBlock p
  let st := blockState s b
  min 255 st.episodes * 256 + b2n st.clkLost * 128 + b2n (blockClocksGood s b) * 64 +
    b2n (pageStubbed s p || pageFenced s p) * 32 + b2n st.inReset * 16 + st.level % 8

/-! ### Error summaries (R592) -/

/-- Bits of the pages of `ps` with ERR_FIRST.VALID set. -/
def errBits (s : State) (ps : List Page) : Nat :=
  ps.reverse.foldl (fun acc p => acc * 2 + fget s p HDR.ERR_FIRST_VALID) 0

/-- CORE_ERR_SUMMARY. -/
def coreSummary (s : State) (n : Nat) : Nat := errBits s ((List.range 13).map (Page.core n))

/-- CL_ERR_SUMMARY. -/
def clSummary (s : State) (d c : Nat) : Nat :=
  errBits s ((List.range 4).map (Page.cl d c)) * 32 +
    (clusterSlots d c).reverse.foldl (fun acc n => acc * 2 + b2n (coreSummary s n ≠ 0)) 0

/-- DIE_ERR_SUMMARY. -/
def dieSummary (s : State) (d : Nat) : Nat :=
  errBits s ((List.range 11).map (Page.die d)) * 16 +
    [3, 2, 1, 0].foldl (fun acc c => acc * 2 + b2n (clSummary s d c ≠ 0)) 0

/-- PKG_ERR_SUMMARY. -/
def pkgSummary (s : State) : Nat :=
  errBits s ((List.range 14).map Page.pkg) * 4 + b2n (dieSummary s 1 ≠ 0) * 2 + b2n (dieSummary s 0 ≠ 0)

/-! ### Package pages -/

/-- CORES_IN_SERVICE and SPARES_LEFT (R26, R729). -/
def unitCount (s : State) : Nat :=
  let serving := (List.range 32).filter (fun n =>
    match logicalSlot s n with | some k => !slotFenced s k && !(s.fuse.fusedOff.contains k) | none => false)
  let spares := (List.range 40).filter (fun n => slotState s n = 1)
  serving.length * 2 ^ 24 + spares.length * 2 ^ 16

/-- FUSE_DATA: the fuse word selected; the words that hold secrets read zero (R638). -/
def fuseData (s : State) : Nat :=
  let i := fget s (.pkg 0) PB0.FUSE_SEL
  if s.fuse.secret.contains i then 0 else (SMap.getD s.fuse.words i 0#32).toNat

/-- The reset pins as PIN_STATE shows them. -/
def pinState (s : State) : Nat :=
  fget s (.pkg 1) PB1.PIN_STATE_BOOTSEL * 16 + b2n s.rst.trstN * 8 + b2n s.rst.perstN * 4 + b2n s.rst.resetN * 2 +
    b2n s.rst.porN

/-- The tread that holds the newel angle (R72). -/
def currentTread (s : State) : Nat :=
  match s.stair.frame with
  | none => 0
  | some f =>
    let a := s.stair.angle / 65536
    (a + 65536 - f.b % 65536) % 65536 / (65536 / (16 * 2 ^ f.code))

/-- SPENT, COMMIT and HEADROOM in microjoules (R517, R520). -/
def ledgerWord (s : State) (off : Nat) : Nat :=
  let spent := s.led.spent / 1024
  let commit := s.led.commit / 1000000
  if off = 0x6C then spent % 2 ^ 32
  else if off = 0x70 then commit % 2 ^ 32
  else wrap 32 ((eget s (.pkg 6) PB6.FRAME_BUDGET : Int) - spent - commit)

/-- GAL_STATUS (R504). -/
def galStatus (s : State) : Nat :=
  let up := (List.range 6).filter (linkUp s)
  up.foldl (fun acc p => acc + 2 ^ (24 + p)) 0 + b2n (pcieUp s) * 65536 + s.gal.tags.length

/-- The message at the head of the queue (R508): MSG_STATUS, MSG_SRC, MSG_DATA. -/
def msgWord (s : State) (off : Nat) : Nat :=
  match s.gal.msgs with
  | [] => 0
  | (src, data) :: _ =>
    if off = 0x84 then 2 ^ 31 + s.gal.msgs.length
    else if off = 0x88 then src % 1024
    else leNat ((data.drop (off - 0xC0)).take 4)

/-! ### Die, cluster and core pages -/

/-- PF_STATUS: a frame is open; the replay ring is not empty; two samples are held and the newest is recent. -/
def pfStatus (s : State) (d : Nat) : Nat :=
  let p := Page.die d 1
  let x := frontAt s d
  let near := match x.ego with
    | e :: _ :: _ => decide (devNsCount s ≤ e.t + eget s p DB1.EGO_MAX_EXTRAP * 1000000)
    | _ => false
  b2n near * 4 + b2n (fget s p DB1.REPLAY_WR ≠ fget s p DB1.REPLAY_RD) * 2 + b2n (!x.frames.isEmpty)

/-- HALL_STATUS. -/
def hallStatus (s : State) (d : Nat) : Nat :=
  let h := hallAt s d
  let merging := s.stair.closing.any (fun c => c.home = d && c.barrier && c.merged.isNone)
  b2n h.emptying.isSome * 2 ^ 20 + b2n (!h.carries.isEmpty) * 2 ^ 19 + b2n merging * 2 ^ 18 +
    b2n (!h.ovf.isEmpty) * 2 ^ 17 + min 65536 h.alcove.length

/-- RB_STATUS: the head of the die's ready queue is the segment being built. -/
def rbStatus (s : State) (d : Nat) : Nat :=
  let r := SMap.getD s.bld.ready d []
  min 1023 (r.length - 1) * 65536 + b2n (!r.isEmpty) * 256 +
    (s.bld.rbs.filter (fun r => !(unbuiltOn r d).isEmpty)).length

/-- Entries of each slot area in eight bits: rulebooks, or derived grids. -/
def areaFill (n : Nat → Nat) : Nat := n 0 + n 1 * 2 ^ 8 + n 2 * 2 ^ 16 + n 3 * 2 ^ 24

/-- CLK_STATUS of a die: CLK_GOOD, and LOCK of FCLK, PCLK and KCLK beside the stored lock of ACLK's PLLs. -/
def clkStatus (s : State) (d : Fin 2) : Nat :=
  let g := fun c => b2n (s.rst.clkGood.contains c)
  let f := g (.fclk d); let p := g (.pclk d); let k := g (.kclk d)
  g .xclk * 4096 + k * 2048 + p * 1024 + f * 512 + g (.aclk d) * 256 + k * 16 + p * 8 + f * 4 +
    bits (rawWord s (.die d.val 10) 0x40) 0 2

/-- SLOT_STATE of a cluster (R24). -/
def slotStates (s : State) (d c : Nat) : Nat :=
  [4, 3, 2, 1, 0].foldl (fun acc k => acc * 4 + slotState s (slotOf d c k)) 0

/-- CORE_INFO (R679). -/
def coreInfo (s : State) (n : Nat) : Nat :=
  let l := slotLogical s n
  pageInstance (.core n 0) * 65536 + l.getD 0 * 256 + b2n l.isSome * 4 + slotState s n

/-- TE_STATUS. -/
def teStatus (s : State) (n : Nat) : Nat :=
  let mine := s.ctx.filter (fun e => e.1 / 2048 = n)
  (mine.filter (fun e => e.2.st = .ready)).length * 65536 + (mine.filter (fun e => e.2.st ≠ .free)).length

/-- The code of a context's state (R369). -/
def ctxCode : CtxSt → Nat
  | .free => 0 | .ready => 1 | .waiting => 2 | .blocked => 3 | .exiting => 4 | .faulted => 5

/-- CTX_STATE and CTX_PC of the context that CTX_SEL names. -/
def ctxWord (s : State) (n off : Nat) : Nat :=
  let x := ctxAt s n (fget s (.core n 1) KB1.CTX_SEL)
  if off = 0x70 then x.cls % 4 * 256 + x.domain % 16 * 16 + ctxCode x.st
  else if off = 0x74 then x.pc % 2 ^ 32
  else x.pc / 2 ^ 32 % 2 ^ 26

/-- The scoreboard's entries in order with their owner's context and whether it is admitted (R398, R402). -/
def sbEntries (s : State) (n : Nat) : List (Range × Nat × Bool) :=
  (coreAt s n).tis.flatMap (fun t => t.ranges.map (fun r => (r, t.ctx, decide (t.phase ≠ .entered)))) ++
    (coreAt s n).kept.map (fun k => (k.range, k.ctx, true))

/-- SB_STATUS. -/
def sbStatus (s : State) (n : Nat) : Nat :=
  min 1023 ((coreAt s n).tis.filter (fun t => t.phase = .entered)).length * 65536 + entriesUsed s n

/-- SB_ENT_INFO, SB_ENT_START and SB_ENT_LINES of the entry that SB_SEL names. -/
def sbEntWord (s : State) (n off : Nat) : Nat :=
  match (sbEntries s n)[fget s (.core n 2) KB2.SB_SEL]? with
  | none => 0
  | some (r, c, adm) =>
    if off = 0x70 then
      2 ^ 31 + (b2n r.rd + 2 * b2n r.wr) * 2 ^ 29 + b2n r.held * 2 ^ 28 + b2n adm * 2 ^ 27 + c % 2048
    else if off = 0x74 then r.start % 65536
    else r.lines % 65536

/-- GRP_STATUS; PASS_SEQ is stored as each pass is taken from the queue. -/
def grpStatus (s : State) (n : Nat) : Nat :=
  let g := grpAt s n
  let run := match g.flight with | f :: _ => f.mode * 64 + f.stat * 16 + 1 | [] => 0
  fget s (.core n 3) KB3.GRP_STATUS_PASS_SEQ * 65536 + (match g.chain with | some c => c.ids.length * 256 | none => 0) +
    b2n g.held.isSome * 8 + b2n g.chain.isSome * 4 + b2n g.next.isSome * 2 + run

/-- SP_STATUS: a gather or a compression is running. -/
def spStatus (s : State) (n : Nat) : Nat :=
  let r := runningOn s n .sparse
  b2n (r.any (fun t => t.op ≠ 0xC3)) * 2 + b2n (r.any (fun t => t.op = 0xC3))

/-! ### The word that a read sees -/

/-- The word held at an offset; fields that only accept writes read zero. -/
def storedWord (s : State) (p : Page) (off : Nat) : Nat :=
  (rowsAt p off).foldl (fun a r =>
    if r.acc = .wo then a else a + bits (rawWord s p off) r.fld.lo r.fld.w * 2 ^ r.fld.lo) 0

/-- Package registers that show a block's state. -/
def pkgView (s : State) (b off : Nat) : Option Nat :=
  match b with
  | 0 => if off = 0x48 then some (unitCount s) else if off = 0x50 then some (fuseData s) else none
  | 1 =>
    if off = 0x40 then
      some (bits (rawWord s (.pkg 1) 0x40) 0 8 + s.rst.held.foldl (fun a h => a + 2 ^ (8 + h.1)) 0)
    else if off = 0x44 then
      some ((List.range 13).foldl (fun a c => a + b2n (s.rst.sources.any (fun x => x.code = c)) * 2 ^ c) 0)
    else if off = 0x4C then some (pinState s) else none
  | 3 =>
    if off = 0xA0 then some (s.stair.angle % 2 ^ 32)
    else if off = 0xA4 then some (measuredRate s % 65536)
    else if off = 0xA8 then some (setBits (rawWord s (.pkg 3) 0xA8) 8 8 (currentTread s))
    else if off = 0xAC then some (frameNo s) else none
  | 6 => if off = 0x6C ∨ off = 0x70 ∨ off = 0x74 then some (ledgerWord s off) else none
  | 8 =>
    if off = 0x58 then some (galStatus s)
    else if off = 0x84 ∨ off = 0x88 ∨ (0xC0 ≤ off ∧ off < 0x100) then some (msgWord s off) else none
  | 10 => if off = 0x50 then some (pkgSummary s) else none
  | _ => none

/-- Die registers that show a block's state. -/
def dieView (s : State) (d b off : Nat) : Option Nat :=
  match b with
  | 1 => if off = 0x44 then some (pfStatus s d) else none
  | 2 =>
    if off = 0x74 then some (hallStatus s d) else if off = 0x78 then some (hallAt s d).index.length else none
  | 3 =>
    if off = 0x44 then some (rbStatus s d)
    else if off = 0x54 then some (areaFill (fun a => (s.bld.rbs.filter (fun r => r.frame % 4 = a)).length))
    else if off = 0x58 then some (areaFill (fun a => (s.bld.grids.filter (fun g => g.frame % 4 = a)).length))
    else none
  | 4 => if off = 0x44 then some (min 1023 (s.nbr.filter (fun r => r.die = d)).length * 65536) else none
  | 8 => if off = 0x40 then some (dieSummary s d) else none
  | 10 => if off = 0x40 then some (clkStatus s (if d = 0 then 0 else 1)) else none
  | _ => none

/-- Cluster registers that show a block's state. The cycles in which a fabric input waited (R680) are open. -/
def clView (s : State) (d c b off : Nat) : Option Nat :=
  match b with
  | 0 => if off = 0x48 then some (slotStates s d c) else none
  | 2 =>
    if off = 0x44 then
      some (min 1024 (embAt s (d * 4 + c)).misses.length * 65536 + min 1024 (embAt s (d * 4 + c)).upd.length)
    else none
  | 1 => if off = 0x48 then some (Config.freeWord s.free).toNat else none
  | 3 => if off = 0x40 then some (clSummary s d c) else none
  | _ => none

/-- Core registers that show a block's state. -/
def coreView (s : State) (n b off : Nat) : Option Nat :=
  match b with
  | 0 => if off = 0x40 then some (coreInfo s n) else none
  | 1 =>
    if off = 0x44 then some (teStatus s n)
    else if off = 0x70 ∨ off = 0x74 ∨ off = 0x78 then some (ctxWord s n off) else none
  | 2 =>
    if off = 0x40 then some (sbStatus s n)
    else if off = 0x70 ∨ off = 0x74 ∨ off = 0x78 then some (sbEntWord s n off) else none
  | 3 => if off = 0x44 then some (grpStatus s n) else none
  | 9 =>
    if off = 0x44 then
      some ((queued s n .mover).length * 65536 + b2n (!(runningOn s n .mover).isEmpty))
    else none
  | 10 => if off = 0x44 then some (spStatus s n) else none
  | 12 => if off = 0x40 then some (coreSummary s n) else none
  | _ =>
    if 4 ≤ b ∧ b ≤ 7 ∧ off = 0x44 then
      some (if (grpAt s n).flight.any (fun f => bit f.engines (b - 4)) then 1 else 2)
    else none

/-- The word of a register as a read sees it (R8, R10). -/
def viewWord (s : State) (p : Page) (off : Nat) : Nat :=
  if off = 0x0C then pageStatus s p
  else if off = 0x1C then intStat s p
  else if off = 0x20 then storedWord s p off % 2 ^ 31 + b2n (fget s p HDR.INJECT_COUNT ≠ 0) * 2 ^ 31
  else if off = 0x38 then clkRstState s p
  else
    let v := match p with
      | .pkg b => pkgView s b off
      | .die d b => dieView s d b off
      | .cl d c b => clView s d c b off
      | .core n b => coreView s n b off
    v.getD (storedWord s p off)

/-! ### Reads with an effect -/

/-- The LO registers of 64-bit counters of a page (R9); HI follows at the next offset. -/
def loOffsets : Page → List Nat
  | .core _ 1 => [0x48]
  | .core _ 2 => [0x48]
  | .core _ 3 => [0x48, 0x50]
  | .core _ 9 => [0x4C]
  | .core _ b => if 4 ≤ b ∧ b ≤ 7 then [0x48, 0x50] else []
  | .cl _ _ 1 => [0x40]
  | .cl _ _ 2 => [0x48, 0x50]
  | .die _ 10 => [0x50]
  | _ => []

/-- A read clears the register's RC fields (R10). -/
def clearOnRead (s : State) (p : Page) (off : Nat) : State :=
  let m := (rowsAt p off).foldl (fun a r => if r.acc = .rc then setBits a r.fld.lo r.fld.w 0 else a) (rawWord s p off)
  if m = rawWord s p off then s else putWord s p off m

/-- A half of a 64-bit counter as it stands. How many lines a cluster's fabric has carried (R680) is open: a free value. -/
def counterWord (s : State) (p : Page) (off : Nat) : Nat :=
  match p with
  | .cl _ _ 1 => (Config.freeWord (s.free + off)).toNat
  | _ => rawWord s p off

/-- R44: the read of TIME_SEC_HI latches device time. -/
def latchTime (s : State) : State :=
  let p := Page.pkg 2
  let t := s.tb.dev
  putWord (putWord (putWord (putWord s p 0x48 (devSec t / 2 ^ 32)) p 0x4C (devSec t % 2 ^ 32)) p 0x50 (devNs t)) p 0x54
    (devFrac t)

/-- Read a register of a page in service: its value and the state after (R9, R10, R44, R89). -/
def regRead (s : State) (p : Page) (off : Nat) : Nat × State :=
  if p = .pkg 2 ∧ off = 0x48 then
    let s := latchTime s
    (rawWord s p off, s)
  else if p = .pkg 5 ∧ off ∈ [0x204, 0x224, 0x244, 0x264] then capPop s ((off - 0x204) / 0x20)
  else if (loOffsets p).contains off then
    let m := SMap.put s.reg.hiLatch (pageBase p + off + 4) (BitVec.ofNat 32 (counterWord s p (off + 4)))
    (counterWord s p off, { s with reg.hiLatch := m })
  else if off ≥ 4 ∧ (loOffsets p).contains (off - 4) then
    ((SMap.getD s.reg.hiLatch (pageBase p + off) 0#32).toNat, s)
  else (viewWord s p off, clearOnRead s p off)

/-- Read as a master, with all checks: what it sees and its answer (R7, R582, R630, R633, R658). -/
def regReadAs (s : State) (rq : Requester) (a width : Nat) : AccRes × Nat × State :=
  match checkReg s rq a width true false with
  | (.ok p, s) =>
    let r := regRead s p (a % 0x1000)
    (.ok, r.1, r.2)
  | (.stub p, s) =>
    let off := a % 0x1000
    (.ok, if off < 0x40 then viewWord s p off else 0, s)
  | (.unmapped, s) => (.ok, 0, s)
  | (.refused, s) => (.refused, 0, s)
  | (.denied, s) => (.denied, 0, s)

end Sys2Proof.Machine
end

