-- ==== Sys2Proof/Machine/RegWrite.lean ====
section
/-!
DEFINITION. Writes of registers (R6 to R13, R630, R635, R658, R703): storing by access code, and the registers whose write
is a command to their block.
-/

namespace Sys2Proof.Machine

/-! ### Storing by access code -/

/-- The fields of the reset template (R649). -/
def isTemplate (p : Page) (off : Nat) : Bool :=
  match p with
  | .die _ 7 => off = 0x80 || off = 0x84 || (decide (0x200 ≤ off) && decide (off < 0x280))
  | _ => false

/-- A field that a lock makes read only (R10, R612, R635, R636). -/
def fieldLocked (s : State) (p : Page) (off : Nat) (r : RegRow) : Bool :=
  match r.acc with
  | .rwl =>
    if off = 0x20 then fbit s (.pkg 10) PB10.HIST_CTRL_INJ_LOCK
    else
      match p with
      | .pkg 10 => fbit s p PB10.HIST_CTRL_INJ_LOCK
      | .pkg 9 => fbit s p PB9.ACC_CTRL_LOCK
      | .die _ 7 => if r.fld.lo = 1 then fbit s p DB7.ACC_CTRL_TPL_LOCK else fbit s p DB7.ACC_CTRL_LOCK
      | .core _ 11 => fbit s p KB11.ACC_CTRL
      | _ => false
  | .rws => pageLocked s p ||
      (match p with | .die _ 7 => isTemplate p off && fbit s p DB7.ACC_CTRL_TPL_LOCK | _ => false)
  | _ => false

/-- The word that a write of `v` leaves (R8, R10). -/
def writtenWord (s : State) (p : Page) (off v : Nat) : Nat :=
  (rowsAt p off).foldl (fun w r =>
    let x := bits v r.fld.lo r.fld.w
    match r.acc with
    | .rw => setBits w r.fld.lo r.fld.w x
    | .rws => if fieldLocked s p off r then w else setBits w r.fld.lo r.fld.w x
    | .rwl => if fieldLocked s p off r then w else setBits w r.fld.lo r.fld.w x
    | .w1c => setBits w r.fld.lo r.fld.w (Nat.land (bits w r.fld.lo r.fld.w) (2 ^ r.fld.w - 1 - x))
    | _ => w) (rawWord s p off)

/-- A plain write: every field by its code; a write that meets a locked field counts (R10). -/
def storeReg (s : State) (p : Page) (off v : Nat) : State :=
  let w := writtenWord s p off v
  let locked := (rowsAt p off).any (fieldLocked s p off)
  let s := if w = rawWord s p off then s else putWord s p off w
  if locked then viol s p else s

/-! ### Commands -/

/-- The detectors that CORRUPT mode does not take (R608). -/
def noCorrupt (d : Nat) : Bool := [0x2D, 0x30, 0x31, 0x32, 0x33, 0x36, 0x3A].contains d

/-- R608, R612: a write of INJECT. A COUNT of zero disarms. -/
def injectGo (s : State) (p : Page) (v : Nat) : State :=
  let mode := bits v 24 2; let det := bits v 16 8; let n := bits v 0 16
  if fbit s (.pkg 10) PB10.HIST_CTRL_INJ_LOCK then viol s p
  else if n ≠ 0 ∧ (!((pageDetectors p).contains det) ∨ 2 ≤ mode ∨ (mode = 1 ∧ noCorrupt det)) then viol s p
  else putWord s p 0x20 (mode * 2 ^ 24 + det * 2 ^ 16 + n)

/-- R406: KILL: the context issues nothing further and exits without notification. -/
def killCtx (s : State) (slot c : Nat) : State :=
  setCtx s slot c { ctxAt s slot c with st := .exiting, hold := .none, ir := [], spawnCtr := none, promoted := false }

/-- R406: FREE of a FAULTED context. What it left running goes on and reports to no thread. -/
def freeCtx (s : State) (slot c : Nat) : State :=
  let k := coreAt s slot
  let s := setCore s slot { k with tis := k.tis.map (fun t => if t.ctx = c then { t with owned := false } else t) }
  disown (setCtx s slot c Ctx.idle) slot (some c)

/-- R406: CTX_CMD for the context that CTX_SEL names; a command that does not apply counts. -/
def ctxCommand (s : State) (slot cmd : Nat) : State :=
  let c := fget s (.core slot 1) KB1.CTX_SEL
  let st := (ctxAt s slot c).st
  if cmd = 1 then (if st = .faulted then freeCtx s slot c else viol s (.core slot 1))
  else if cmd = 2 then (if st = .free then viol s (.core slot 1) else killCtx s slot c)
  else s

/-- R471: SPARE_CMD.GO, refused while the spare is taken. The channel being copied stays in the register's CH; a second
command while a switch runs has no effect. -/
def spareGo (s : State) (d ch : Nat) : State :=
  let p := Page.die d 5
  if fget s p DB5.DRAM_STATUS_SPARED_CH ≠ 0x1F then viol s p
  else if fbit s p DB5.DRAM_STATUS_SPARING then s
  else fset (fsetb s p DB5.DRAM_STATUS_SPARING true) p DB5.SPARE_CMD_CH ch

/-- R602: a slot goes out of service: its passes are discarded and its held writes answered; its contexts keep their
state. -/
def fenceSlot (s : State) (n : Nat) : State := dropInbound (dropGroup s n) n

/-- A write of SLOT_FENCE. -/
def slotFenceGo (s : State) (d c v : Nat) : State :=
  let fresh := (List.range 5).filter (fun k => bit v k && !slotFenced s (slotOf d c k))
  let s := fset s (.cl d c 3) CB3.SLOT_FENCE v
  fresh.foldl (fun s k => fenceSlot s (slotOf d c k)) s

/-- R600: a write of HIST_SEL latches the record; one not held reads zero. -/
def histLatch (s : State) (i : Nat) : State :=
  let p := Page.pkg 10
  let s := fset s p PB10.HIST_SEL i
  let ws := match SMap.find s.hist.recs i with
    | some (seq, r) => [seq, r.ns, r.sec % 2 ^ 32, r.sec / 2 ^ 32 % 65536 + r.kind % 256 * 65536 + r.flags % 256 * 2 ^ 24,
        r.source, r.arg0, r.arg1, r.arg2]
    | none => List.replicate 8 0
  (List.range 8).foldl (fun s j => putWord s p (0x60 + 4 * j) (ws.getD j 0)) s

/-- A trigger of a mailbox scan (R670). -/
def mbxTrigger (s : State) : State := fsetb s (.pkg 11) PB11.MBX_STATUS_TRIGGERED true

/-- R508: MSG_POP drops the message at the head of the queue. -/
def msgPopGo (s : State) : State := { s with gal.msgs := s.gal.msgs.drop 1 }

/-- R674: EGO_WR_BOTH sets EGO_WR of both dies; a die whose block is in reset discards it. -/
def egoBoth (s : State) (v : Nat) : State :=
  [0, 1].foldl (fun s d => if pageStubbed s (.die d 1) then s else fset s (.die d 1) DB1.EGO_WR v) s

/-- A write of package B9's ACC_CTRL: DEBUG_EN is the host's (R630, R635, R645). -/
def accCtrlGo (s : State) (rq : Requester) (v : Nat) : State :=
  let p := Page.pkg 9
  if fbit s p PB9.ACC_CTRL_LOCK then viol s p
  else
    let s :=
      if bit v 1 = fbit s p PB9.ACC_CTRL_DEBUG_EN then s
      else if bit v 1 then debugEnSet s rq
      else if rq.mid = midHost then fsetb s p PB9.ACC_CTRL_DEBUG_EN false else viol s p
    fsetb s p PB9.ACC_CTRL_LOCK (bit v 0)

/-- BOOT_CMD: GO, and RECOVERY_EXIT from the host and the control cores only (R584, R630). -/
def bootCmd (s : State) (rq : Requester) (v : Nat) : State :=
  let s := if bit v 0 then bootGo s else s
  if bit v 1 then (if rq.mid = midHost ∨ rq.mid = midCC then recoveryExit s else viol s bootPage) else s

/-- Writes of a package register that are more than a store. -/
def pkgWrite (s : State) (rq : Requester) (b off v : Nat) : Option State :=
  match b with
  | 1 => if off = 0x48 then some (swReset s (bits v 30 2) (bits v 24 3) (bits v 16 8)) else none
  | 2 => if off = 0x64 then some (timeCmd s v) else none
  | 5 => if off = 0x40 then some (bypassUpdate (storeReg s (.pkg 5) off v)) else none
  | 7 =>
    if off = 0x4C then
      some (putWord s (.pkg 7) 0x50 (Nat.lor (rawWord s (.pkg 7) 0x50) v))
    else if off = 0x54 then some (egoBoth s v) else none
  | 8 => if off = 0x8C then some (if bit v 0 then msgPopGo s else s) else none
  | 9 =>
    if off = 0x40 then some (accCtrlGo s rq v)
    else if off = 0x64 then some (if bit v 0 then quoteGo s rq else s)
    else if off = 0x7C then some (if bit v 31 then extendGo s (bits v 0 2) else s) else none
  | 10 =>
    if off = 0x4C then some (histLatch s (bits v 0 11))
    else if off = 0x54 then some (latchVacant (storeReg s (.pkg 10) off v)) else none
  | 11 => if off = 0x48 then some (mbxTrigger s) else none
  | 12 => if off = 0x40 then some (if bit v 0 then ageCmd s else s) else none
  | 13 => if off = 0x58 then some (bootCmd s rq v) else none
  | _ => none

/-- Writes of a die, cluster or core register that are more than a store. -/
def unitPageWrite (s : State) (p : Page) (off v : Nat) : Option State :=
  match p with
  | .die d 5 => if off = 0x4C then some (if bit v 31 then spareGo s d (bits v 0 4) else s) else none
  | .die d 7 =>
    if off = 0x40 then
      let s := storeReg s p off v
      let kept := (SMap.getD s.att.b7copy d ([], false)).1
      some { s with att.b7copy := SMap.put s.att.b7copy d (kept, fbit s p DB7.ACC_CTRL_LOCK) }
    else none
  | .cl d c 3 => if off = 0x44 then some (slotFenceGo s d c (bits v 0 5)) else none
  | .core n 1 => if off = 0x7C then some (ctxCommand s n (bits v 0 2)) else none
  | _ => none

/-- Writes of the page header. -/
def headerWrite (s : State) (p : Page) (off v : Nat) : State :=
  if off = 0x10 then commitPage s p v
  else if off = 0x1C then
    let w := rawWord s p 0x14
    putWord s p 0x14 (Nat.land w (2 ^ 32 - 1 - v % 2 ^ 32))
  else if off = 0x20 then injectGo s p v
  else if off = 0x28 then
    if bit v 31 then putWord (putWord (putWord s p 0x28 0) p 0x2C 0) p 0x30 0 else s
  else if off = 0x38 then
    if bit v 7 then setBlock s (pageBlock p) { blockState s (pageBlock p) with clkLost := false } else s
  else storeReg s p off v

/-- Write a register of a page in service. -/
def regWrite (s : State) (rq : Requester) (p : Page) (off v : Nat) : State :=
  if off < 0x40 then headerWrite s p off v
  else
    let special := match p with
      | .pkg b => pkgWrite s rq b off v
      | _ => unitPageWrite s p off v
    special.getD (storeReg s p off v)

/-- R666: the vectors that a write lets send again while their condition still holds. -/
def vectorsAgain (p : Page) (off : Nat) : BitVec 64 :=
  if off = 0x1C then (match pageVector p with | some v => vecBit v | none => 0#64)
  else if off = 0x28 ∨ (p = .pkg 10 ∧ off = 0x54) then vecBit 1
  else if p = .pkg 7 ∧ off = 0x50 then BitVec.ofNat 64 (2 ^ 64 - 2 ^ 32)
  else 0#64

/-- Write as a master, with all checks (R7, R582, R630, R633, R658, R703). -/
def regWriteAs (s : State) (rq : Requester) (a width v : Nat) : AccRes × State :=
  match checkReg s rq a width false true with
  | (.ok p, s) =>
    let off := a % 0x1000
    (.ok, settle (vectorsAgain p off) (regWrite s rq p off v))
  | (.stub _, s) => (.ok, s)
  | (.unmapped, s) => (.ok, s)
  | (.refused, s) => (.refused, s)
  | (.denied, s) => (.denied, s)

/-! ### The rows of the register interface -/

/-- The outcome of a register access as its sender sees it; the host's refusals count on page B7 (R660). -/
def regAnswer (s : State) (rq : Requester) (wr : Bool) (r : AccRes) (v : Nat) : State :=
  let s := match r with
    | .refused | .denied =>
      if rq.mid = midHost then raiseInt (finc s (.pkg 7) PB7.HOST_REFUSED) (.pkg 7) 2 else s
    | _ => s
  match r with
  | .ok => { s with ans := if wr then .none else .data v }
  | .denied => { s with ans := if wr then .denied else .data 0 }
  | _ => { s with ans := if wr then .refused else .data 0 }

/-- A register write by a master. -/
def doWrite (s : State) (rq : Requester) (a width v : Nat) : Host.Outcome State Fault Refusal :=
  let r := regWriteAs s rq a width v
  done (regAnswer r.2 rq true r.1 0)

/-- A register read by a master. -/
def doRead (s : State) (rq : Requester) (a width : Nat) : Host.Outcome State Fault Refusal :=
  let r := regReadAs s rq a width
  done (regAnswer r.2.2 rq false r.1 r.2.1)

/-- R7, R10: a write of `width` bytes at a BAR0 offset. -/
def execRegisterWrite (rq : Requester) (addr : BitVec 24) (width : Nat) (v : Word) (s : State) :
    Host.Outcome State Fault Refusal := doWrite s rq addr.toNat width v.toNat

/-- R10: a read, which clears the RC fields of the register. -/
def execRcRegisterRead (rq : Requester) (addr : BitVec 24) (width : Nat) (s : State) : Host.Outcome State Fault Refusal :=
  doRead s rq addr.toNat width

/-- R9: a read, which latches the HI half where the register is the LO half of a counter. -/
def execLoRegisterRead (rq : Requester) (addr : BitVec 24) (width : Nat) (s : State) : Host.Outcome State Fault Refusal :=
  doRead s rq addr.toNat width

/-- R44: a read of TIME_SEC_HI. -/
def execTimeSecHiRead (rq : Requester) (s : State) : Host.Outcome State Fault Refusal := doRead s rq (0x7F2000 + 0x48) 4

/-- R89: a read of CAPn_HEAD_HI. -/
def execCapHeadHiRead (rq : Requester) (n : Fin 4) (s : State) : Host.Outcome State Fault Refusal :=
  doRead s rq (0x7F5204 + 0x20 * n.val) 4

/-- R600: a write of HIST_SEL. -/
def execHistSelWrite (rq : Requester) (v : Word) (s : State) : Host.Outcome State Fault Refusal :=
  doWrite s rq 0x7FA04C 4 v.toNat

/-- R11, R13: a write of PAGE_COMMIT. -/
def execPageCommit (rq : Requester) (p : Page) (v : Word) (s : State) : Host.Outcome State Fault Refusal :=
  doWrite s rq (pageBase p + 0x10) 4 v.toNat

/-- R45: TIME_CMD SET. -/
def execSet (rq : Requester) (s : State) : Host.Outcome State Fault Refusal := doWrite s rq 0x7F2064 4 1

/-- R45: TIME_CMD ARM_PPS. -/
def execArmPps (rq : Requester) (s : State) : Host.Outcome State Fault Refusal := doWrite s rq 0x7F2064 4 2

/-- R134: a write of EGO_WR; the samples it passes are read by EGO_SAMPLE_READ. -/
def execEgoWrWrite (rq : Requester) (d : Fin 2) (v : Word) (s : State) : Host.Outcome State Fault Refusal :=
  doWrite s rq (pageBase (.die d.val 1) + 0x5C) 4 v.toNat

/-- R674: a write of EGO_WR_BOTH. -/
def execEgoWrBothWrite (rq : Requester) (v : Word) (s : State) : Host.Outcome State Fault Refusal :=
  doWrite s rq 0x7F7054 4 v.toNat

/-- R168: a write of REPLAY_WR; the entries it passes are released by REPLAY_RELEASE. -/
def execReplayWrWrite (rq : Requester) (d : Fin 2) (v : Word) (s : State) : Host.Outcome State Fault Refusal :=
  doWrite s rq (pageBase (.die d.val 1) + 0x70) 4 v.toNat

/-- R471: SPARE_CMD.GO. -/
def execSpareCmdGo (rq : Requester) (d : Fin 2) (ch : Fin 16) (s : State) : Host.Outcome State Fault Refusal :=
  doWrite s rq (pageBase (.die d.val 5) + 0x4C) 4 (2 ^ 31 + ch.val)

/-- R508: MSG_POP. -/
def execMsgPop (rq : Requester) (s : State) : Host.Outcome State Fault Refusal := doWrite s rq 0x7F808C 4 1

/-- R535: AGE_CMD.REPLAN. -/
def execAgeCmdReplan (rq : Requester) (s : State) : Host.Outcome State Fault Refusal := doWrite s rq 0x7FC040 4 1

/-- The word of SW_RESET (R581). -/
def swWord (cmd level scope : Nat) : Nat := cmd * 2 ^ 30 + level * 2 ^ 24 + scope * 2 ^ 16

/-- R555: SW_RESET PULSE. -/
def execSwResetPulse (rq : Requester) (level : Fin 8) (scope : Byte) (s : State) : Host.Outcome State Fault Refusal :=
  doWrite s rq 0x7F1048 4 (swWord 1 level.val scope.toNat)

/-- R555: SW_RESET ASSERT. -/
def execSwResetAssert (rq : Requester) (level : Fin 8) (scope : Byte) (s : State) : Host.Outcome State Fault Refusal :=
  doWrite s rq 0x7F1048 4 (swWord 2 level.val scope.toNat)

/-- R555: SW_RESET RELEASE. -/
def execSwResetRelease (rq : Requester) (level : Fin 8) (scope : Byte) (s : State) : Host.Outcome State Fault Refusal :=
  doWrite s rq 0x7F1048 4 (swWord 3 level.val scope.toNat)

/-- R570, R579: BOOT_CMD.GO. -/
def execBootCmdGo (rq : Requester) (s : State) : Host.Outcome State Fault Refusal := doWrite s rq 0x7FD058 4 1

/-- R580: BOOT_CMD.RECOVERY_EXIT. -/
def execBootCmdRecoveryExit (rq : Requester) (s : State) : Host.Outcome State Fault Refusal := doWrite s rq 0x7FD058 4 2

/-- R602, R616: a write of SLOT_FENCE. -/
def execSlotFenceWrite (rq : Requester) (d : Fin 2) (c : Fin 4) (v : Word) (s : State) : Host.Outcome State Fault Refusal :=
  doWrite s rq (pageBase (.cl d.val c.val 3) + 0x44) 4 v.toNat

/-- R608: a write of INJECT. -/
def execInjectWrite (rq : Requester) (p : Page) (v : Word) (s : State) : Host.Outcome State Fault Refusal :=
  doWrite s rq (pageBase p + 0x20) 4 v.toNat

/-- R406: CTX_CMD FREE. -/
def execCtxCmdFree (rq : Requester) (slot : Fin 40) (s : State) : Host.Outcome State Fault Refusal :=
  doWrite s rq (pageBase (.core slot.val 1) + 0x7C) 4 1

/-- R406: CTX_CMD KILL. -/
def execCtxCmdKill (rq : Requester) (slot : Fin 40) (s : State) : Host.Outcome State Fault Refusal :=
  doWrite s rq (pageBase (.core slot.val 1) + 0x7C) 4 2

/-- R406: a write of an arrival counter. -/
def execCtrWrite (rq : Requester) (slot : Fin 40) (n : Fin 64) (v : Word) (s : State) : Host.Outcome State Fault Refusal :=
  doWrite s rq (pageBase (.core slot.val 1) + 0x100 + 4 * n.val) 4 v.toNat

/-- R677: a write of PAGE_CTRL that leaves EN as it is. -/
def execQuiesceReqWrite (rq : Requester) (p : Page) (on : Bool) (s : State) : Host.Outcome State Fault Refusal :=
  doWrite s rq (pageBase p + 0x08) 4 (fget s p HDR.PAGE_CTRL_EN + 2 * b2n on)

/-- R641: QUOTE_CMD.GO. -/
def execQuoteCmdGo (rq : Requester) (s : State) : Host.Outcome State Fault Refusal := doWrite s rq 0x7F9064 4 1

/-- R640: EXTEND_CMD.GO. -/
def execExtendCmdGo (rq : Requester) (slot : Fin 4) (s : State) : Host.Outcome State Fault Refusal :=
  doWrite s rq 0x7F907C 4 (2 ^ 31 + slot.val)

/-- R645: a write that sets DEBUG_EN and leaves LOCK as it is. -/
def execDebugEnSet (rq : Requester) (s : State) : Host.Outcome State Fault Refusal :=
  doWrite s rq 0x7F9040 4 (2 + fget s (.pkg 9) PB9.ACC_CTRL_LOCK)

/-- R667: a write of HOST_IRQ_SET. -/
def execHostIrqSetWrite (rq : Requester) (v : Word) (s : State) : Host.Outcome State Fault Refusal :=
  doWrite s rq 0x7F704C 4 v.toNat

/-- R670: a write of MBX_NUDGE. -/
def execMbxNudge (rq : Requester) (v : Word) (s : State) : Host.Outcome State Fault Refusal :=
  doWrite s rq 0x7FB048 4 v.toNat

end Sys2Proof.Machine
end

