-- ==== Sys2Proof/Machine/MemAccess.lean ====
section
/-!
DEFINITION. Accesses of every master to every region (R36 to R40, R383, R404, R495, R658 to R660), and the requests of other
nodes (R493 to R499).
-/

namespace Sys2Proof.Machine

/-! ### Register alias -/

/-- Successive 32-bit reads of `n` registers (R658). -/
def readRegs (s : State) (rq : Requester) (a : Nat) : Nat → AccRes × List Nat × State
  | 0 => (.ok, [], s)
  | n + 1 =>
    let r := regReadAs s rq a 4
    match r.1 with
    | .ok =>
      let q := readRegs r.2.2 rq (a + 4) n
      (q.1, toLe 4 r.2.1 ++ q.2.1, q.2.2)
    | e => (e, [], r.2.2)

/-- Successive 32-bit writes (R658). -/
def writeRegs (s : State) (rq : Requester) (a : Nat) (bs : List Nat) : Nat → AccRes × State
  | 0 => (.ok, s)
  | n + 1 =>
    let r := regWriteAs s rq a 4 (leNat (bs.take 4))
    match r.1 with
    | .ok => writeRegs r.2 rq (a + 4) (bs.drop 4) n
    | e => (e, r.2)

/-! ### Any region -/

/-- Read `len` bytes at `g` as a master; `own` is the slot whose thread or unit reads. -/
def busRead (s : State) (rq : Requester) (own : Own) (g len : Nat) : AccRes × List Nat × State :=
  match locate s g len with
  | .reg a =>
    if len % 4 = 0 ∧ a % 4 = 0 then readRegs s rq a (len / 4)
    else
      let r := regReadAs s rq a len
      (.refused, [], r.2.2)
  | _ => coreRead s rq own g len

/-- Write bytes at `g` as a master. -/
def busWrite (s : State) (rq : Requester) (own : Own) (g : Nat) (bs : List Nat) : AccRes × State :=
  match locate s g bs.length with
  | .reg a =>
    if bs.length % 4 = 0 ∧ a % 4 = 0 then writeRegs s rq a bs (bs.length / 4)
    else
      let r := regWriteAs s rq a bs.length 0
      (.refused, r.2)
  | _ => coreWrite s rq own g bs

/-! ### Held writes (R404) -/

/-- A write joins those held at a scratchpad. Behind 64 of them the inbound path stalls, which page B2 flags (R409). -/
def holdWrite (s : State) (slot : Nat) (w : Inbound) : State :=
  let c := coreAt s slot
  let s := if c.inbound.length ≥ 64 then raiseInt s (.core slot 2) 2 else s
  finc (setCore s slot { c with inbound := c.inbound ++ [w] }) (.core slot 2) KB2.SB_REMOTE_WAIT

/-- The slot and offset of a scratchpad address of the package. -/
def spmPlace (s : State) (g len : Nat) : Option (Nat × Nat) :=
  match locate s g len with
  | .spm k off => some (k, off)
  | _ => none

/-! ### Masters of the package other than threads and units -/

/-- A read by the host, a control core, the Point Front or the debug access. -/
def masterRead (s : State) (rq : Requester) (g len : Nat) : AccRes × List Nat × State :=
  match busRead s rq none g len with
  | (.need _ _, _, s) => (.refused, [], s)
  | r => r

/-- A write by one of these masters; one held at a scratchpad is performed later. -/
def masterWrite (s : State) (rq : Requester) (g : Nat) (bs : List Nat) : AccRes × State :=
  match busWrite s rq none g bs with
  | (.need _ _, s) => (.refused, s)
  | (.wait, s) =>
    match spmPlace s g bs.length with
    | some (k, off) => (.ok, holdWrite s k ⟨off, bs, none, none, none, none⟩)
    | none => (.ok, s)
  | r => r

/-! ### The host's accesses to other nodes (R505, R659) -/

/-- Pieces of `len` bytes from `g` that do not cross a 256-byte block (R493): address, offset in the transfer, length. -/
def blocksOf (g len : Nat) : List (Nat × Nat × Nat) :=
  (List.range ((g + len + 255) / 256 - g / 256)).filterMap (fun i =>
    let lo := max g ((g / 256 + i) * 256)
    let hi := min (g + len) ((g / 256 + i + 1) * 256)
    if lo < hi then some (lo, lo - g, hi - lo) else none)

/-- A host access to another node of the gateway's block enters the Gallery in pieces; one for a node outside the block, or
denied by the node windows, is refused. -/
def hostRemote (s : State) (wr : Bool) (g len : Nat) (bs : List Nat) : State :=
  let node := g / 2 ^ 48 % 1024
  let n := if wr then bs.length else len
  let ps := blocksOf g n
  if g ≥ 2 ^ 58 ∨ node / 64 ≠ ownNode s / 64 then hostAnswer s wr .refused [] n
  else if !nodeAllows s node rqHost (!wr) wr then hostAnswer (deny s (.pkg 9) rqHost wr g) wr .denied [] n
  else if galHolds s || decide (4096 < s.gal.tags.length + ps.length) then s
  else
    ps.foldl (fun s p =>
      match freeTag s with
      | none => s
      | some t =>
        let data := if wr then (bs.drop p.2.1).take p.2.2 else []
        sendRequest s t (.host wr p.2.2) p.2.2 (galRequest 3 0 p.1 (if wr then 2 else 1) (p.2.2 - 1) data)) s

/-! ### Requests of other nodes -/

/-- The master that a request's head names (R622). -/
def requesterOf (k : Pkt) : Requester :=
  let mid := if k.kind = 2 then midCC else if k.kind = 3 then midHost else k.dom
  ⟨mid, k.kind = 1 || k.kind = 4 || k.kind = 5, some k.src⟩

/-- The address of a request as a global address of this node. -/
def servedAt (s : State) (k : Pkt) : Nat := ownNode s * 2 ^ 48 + k.addr

/-- R493 RD. -/
def execRd (s : State) : Host.Outcome State Fault Refusal :=
  match nextLocal s 0x01 with
  | none => .next s
  | some k =>
    let r := busRead s (requesterOf k) none (servedAt s k) (k.arg + 1)
    let data := if r.1 = .ok then some (r.2.1) else none
    done (answerPkt r.2.2 k r.1.status data)

/-- Serve a write at an address, with the counter it names; one that must wait at a scratchpad is held. -/
def serveWrite (s : State) (k : Pkt) (g : Nat) (ctr : Option Nat) : State :=
  let bs := k.bytes (k.arg + 1)
  match busWrite s (requesterOf k) none g bs with
  | (.ok, s) =>
    let s := match ctr, spmPlace s g 1 with
      | some n, some (c, _) => ctrAdd s c n 1
      | _, _ => s
    answerPkt s k 0 none
  | (.wait, s) =>
    match spmPlace s g bs.length with
    | some (c, off) => holdWrite (finc (takeLocal s k) (.pkg 8) PB8.REQ_SERVED) c ⟨off, bs, ctr, none, none, some (k.src, k.tag)⟩
    | none => s
  | (e, s) => answerPkt s k e.status none

/-- R493 WR. -/
def execWr (s : State) : Host.Outcome State Fault Refusal :=
  match nextLocal s 0x02 with
  | none => .next s
  | some k => done (serveWrite s k (servedAt s k) none)

/-- The address of a counted request without the counter in [43:38]. -/
def uncounted (g : Nat) : Nat := setBits g 38 6 0

/-- R394, R493 WRC: a write to a scratchpad, then its arrival counter. -/
def execWrc (s : State) : Host.Outcome State Fault Refusal :=
  match nextLocal s 0x03 with
  | none => .next s
  | some k =>
    let g := servedAt s k
    if bits g 44 4 ≠ 1 then done (answerPkt s k 2 none)
    else done (serveWrite s k (uncounted g) (some (bits g 38 6)))

/-- R391, R493 AMO. One that must wait for a scoreboard stays in the queue. -/
def execAmo (s : State) : Host.Outcome State Fault Refusal :=
  match nextLocal s 0x04 with
  | none => .next s
  | some k =>
    let size := if bit k.arg 4 then 8 else 4
    let g := servedAt s k
    let opnd := leNat (k.data.take 8)
    let cmp := leNat ((k.data.drop 8).take 8)
    if g % size ≠ 0 then done (answerPkt s k 2 none)
    else
      match coreAmo s (requesterOf k) none (bits k.arg 0 4) size g opnd cmp with
      | (.ok, old, s) => done (answerPkt s k 0 (some (toLe size old)))
      | (.wait, _, _) => .next s
      | (e, _, s) => done (answerPkt s k e.status none)

/-- R394, R396: an arrival counter of a logical core is incremented; none while the core is fenced, vacant or in reset. -/
def arriveAt (s : State) (core n : Nat) (k : Int) : Option State :=
  (coreInService s core).map (fun slot => ctrAdd s slot n k)

/-- R394, R493 ARRIVE. -/
def execGalleryArrive (s : State) : Host.Outcome State Fault Refusal :=
  match nextLocal s 0x05 with
  | none => .next s
  | some k =>
    if bits k.addr 44 4 ≠ 1 ∨ !inboundOk s (requesterOf k) then done (answerPkt s k 2 none)
    else
      match arriveAt s (bits k.addr 23 5) (bits k.addr 38 6) (sext 32 (leNat (k.data.take 4))) with
      | some s' => done (answerPkt s' k 0 none)
      | none => done (answerPkt (stubAnswered s) k 1 none)

/-- R498, R493 RESET: accepted under four conditions; the reset is asserted after the CPL is sent. -/
def execReset (s : State) : Host.Outcome State Fault Refusal :=
  match nextLocal s 0x07 with
  | none => .next s
  | some k =>
    let p := Page.pkg 8
    let level := k.arg % 8
    let reach := reachCode s 6
    let ok := ebit s p PB8.GAL_CTRL_RRESET_EN && decide (eget s p PB8.RRESET_SRC_MIN ≤ k.src) &&
      decide (k.src ≤ eget s p PB8.RRESET_SRC_MAX) && (k.kind = 2 || k.kind = 3) && decide (reach ≤ level)
    match swTarget level (bits k.addr 16 8) with
    | some t =>
      if ok then
        let s := answerPkt (raiseInt (finc s p PB8.RRESET_RECV) p 9) k 0 none
        done (assertSource s ⟨6, level, t, some (s.now + 1000), 0⟩)
      else done (answerPkt (finc s p PB8.RRESET_REFUSED) k 2 none)
    | none => done (answerPkt (finc s p PB8.RRESET_REFUSED) k 2 none)

/-- R560, R703: a request to a block that is out of service is answered TARGET_RESET and counts; a read of its page is
served by RC_REGISTER_READ (R582). -/
def execStubAnswer (rq : Requester) (wr : Bool) (addr : BitVec 58) (s : State) : Host.Outcome State Fault Refusal :=
  match locate s addr.toNat 1 with
  | .down => done { stubAnswered s with ans := .targetReset }
  | .dram d _ =>
    if outOfService s (.die d) then done { stubAnswered s with ans := .targetReset } else .next s
  | .reg a =>
    match wr, checkReg s rq a 4 (!wr) wr with
    | true, (.stub _, s) => done { s with ans := .targetReset }
    | _, _ => .next s
  | _ => .next s

end Sys2Proof.Machine
end

