-- ==== Sys2Proof/Machine/Unit.lean ====
section
/-!
DEFINITION. How the unit of a tensor instruction reads and writes (R397, R404, R452 to R456, R494 to R496): accesses of the
package are made at once; those of other nodes go through the Gallery, reads block by block before the unit computes, writes
after it; a write held by another core's scoreboard waits.
-/

namespace Sys2Proof.Machine

/-- A unit at work: the slot and number of its instruction, and the instruction's domain. -/
structure Who where
  slot : Nat
  id : Nat
  domain : Nat
  kind : Nat
  deriving DecidableEq, Repr

/-- The unit's instruction as the requester of R622. -/
def Who.rq (w : Who) : Requester := ⟨w.domain, true, none⟩

/-- Why a unit cannot go on: a fault with what has been done, a block of another node that it has not read yet, or an atomic
that waits for another core's scoreboard. -/
inductive Stop where
  | fault (code : Nat) (s : State)
  | need (g len : Nat)
  | wait
  deriving DecidableEq, Repr

/-- What a step of a unit gives. -/
abbrev Run (α : Type) := Except Stop α

/-- The MASTER KIND of a unit in a Gallery packet (R492), by opcode. -/
def unitKind (op : Nat) : Nat :=
  match queueOf op with
  | .mover => 1
  | .embedding => 4
  | _ => 5

/-- The unit of an instruction. -/
def whoOf (slot : Nat) (t : Ti) : Who := ⟨slot, t.id, t.domain, unitKind t.op⟩

/-- Read `len` bytes at `g`. -/
def uRead (w : Who) (s : State) (g len : Nat) : Run (List Nat × State) :=
  if len = 0 then .ok ([], s)
  else
    match busRead s w.rq (some w.slot) g len with
    | (.ok, bs, s) => .ok (bs, s)
    | (.need _ _, _, s) =>
      if !nodeAllows s (g / 2 ^ 48 % 1024) w.rq true false then .error (.fault fAccess (deny s (.pkg 9) w.rq false g))
      else
        let far := ((tiAt s w.slot w.id).map Ti.far).getD []
        match (blocksOf g len).find? (fun p => (SMap.find far p.1).isNone) with
        | some p => .error (.need p.1 p.2.2)
        | none => .ok ((blocksOf g len).flatMap (fun p => SMap.getD far p.1 []), s)
    | (e, _, s) => .error (.fault e.fault s)

/-- Put an access at the end of those still to be made. -/
def uQueue (w : Who) (s : State) (o : UnitOut) : State :=
  match tiAt s w.slot w.id with
  | some t => putTi s w.slot { t with out := t.out ++ [o] }
  | none => s

/-- Put a write at the end of the accesses still to be made, block by block (R493). -/
def uQueueWrite (w : Who) (s : State) (g : Nat) (bs : List Nat) : State :=
  (blocksOf g bs.length).foldl (fun s p => uQueue w s (.write p.1 ((bs.drop p.2.1).take p.2.2))) s

/-- The accesses of a unit still to be made. -/
def uOut (w : Who) (s : State) : List UnitOut := ((tiAt s w.slot w.id).map Ti.out).getD []

/-- The address lies in the unit's own scratchpad. -/
def ownSpm (w : Who) (s : State) (g len : Nat) : Bool :=
  match spmPlace s g len with
  | some (k, _) => k = w.slot
  | none => false

/-- A fresh access, behind those still to be made where it could meet one of them. -/
def uWrite (w : Who) (s : State) (g : Nat) (bs : List Nat) : Run State :=
  if bs.isEmpty then .ok s
  else if !(uOut w s).isEmpty && !ownSpm w s g bs.length then .ok (uQueueWrite w s g bs)
  else
    match busWrite s w.rq (some w.slot) g bs with
    | (.ok, s) => .ok s
    | (.wait, _) => .ok (uQueueWrite w s g bs)
    | (.need _ _, s) =>
      if !nodeAllows s (g / 2 ^ 48 % 1024) w.rq false true then .error (.fault fAccess (deny s (.pkg 9) w.rq true g))
      else .ok (uQueueWrite w s g bs)
    | (e, s) => .error (.fault e.fault s)

/-- The global address of an offset in the unit's own scratchpad. -/
def ownAt (w : Who) (s : State) (off : Nat) : Nat := spmGlobal s w.slot off

/-- Read the own scratchpad; an offset beyond it is refused under R40. -/
def ownRead (w : Who) (s : State) (off len : Nat) : Run (List Nat × State) :=
  if off + len > 0x600000 then .error (.fault fAccess (viol s (.core w.slot 8))) else uRead w s (ownAt w s off) len

/-- Write the own scratchpad. -/
def ownWrite (w : Who) (s : State) (off : Nat) (bs : List Nat) : Run State :=
  if off + bs.length > 0x600000 then .error (.fault fAccess (viol s (.core w.slot 8))) else uWrite w s (ownAt w s off) bs

/-- An atomic update of a 32-bit word (R318). -/
def uLane (w : Who) (s : State) (op g v : Nat) : Run State :=
  if !(uOut w s).isEmpty && !ownSpm w s g 4 then .ok (uQueue w s (.lane op g v none))
  else
    match coreAmo s w.rq (some w.slot) op 4 g v 0 with
    | (.ok, _, s) => .ok s
    | (.wait, _, _) => .ok (uQueue w s (.lane op g v none))
    | (.need _ _, _, s) =>
      if !nodeAllows s (g / 2 ^ 48 % 1024) w.rq true true then .error (.fault fAccess (deny s (.pkg 9) w.rq true g))
      else .ok (uQueue w s (.lane op g v none))
    | (e, _, s) => .error (.fault e.fault s)

/-- Bytes that the spec calls undefined after a fault (R311, R440, R456) take free values where this package holds them. -/
def uScramble (w : Who) (s : State) (ps : List (Nat × Nat)) : State :=
  ps.foldl (fun s p =>
    let bs := (List.range p.2).map (fun i => (Config.freeByte (s.free + i)).toNat)
    match busWrite s w.rq (some w.slot) p.1 bs with
    | (.ok, s) => { s with free := s.free + p.2 }
    | _ => s) s

/-! ### Accesses made after the results are computed -/

/-- What became of the first access of a list: made (or sent), to be tried again later, changed, or faulted. -/
inductive Sent where
  | made (s : State)
  | later
  | changed (o : UnitOut) (s : State)
  | fault (code : Nat) (s : State)

/-- One more access of the instruction awaits its answer. -/
def uOwe (w : Who) (s : State) : State :=
  match tiAt s w.slot w.id with
  | some t => putTi s w.slot { t with owed := t.owed + 1 }
  | none => s

/-- Send a Gallery request of the unit under the lowest free tag. -/
def uSend (w : Who) (s : State) (owner : TagFor) (len : Nat) (k : Pkt) : Option State :=
  if galHolds s then none
  else (freeTag s).map (fun tag => sendRequest (uOwe w s) tag owner len k)

/-- Make one access. A word of another node under an FP32 maximum is read, then compared and swapped until no other update
came between. -/
def uMake (w : Who) (s : State) : UnitOut → Sent
  | .write g bs =>
    match busWrite s w.rq (some w.slot) g bs with
    | (.ok, s) => .made s
    | (.wait, _) =>
      match spmPlace s g bs.length with
      | some (k, off) =>
        .made (holdWrite (uOwe w s) k ⟨off, bs, none, none, some (w.slot, w.id), none⟩)
      | none => .later
    | (.need _ _, s) =>
      match uSend w s (.unitWrite w.slot w.id) bs.length (galRequest w.kind w.domain g 2 (bs.length - 1) bs) with
      | some s => .made s
      | none => .later
    | (e, s) => .fault e.fault s
  | .arrive g n =>
    if g / 2 ^ 48 % 1024 = ownNode s then
      match arriveAt s (bits g 23 5) n 1 with
      | some s => .made s
      | none => .fault fTargetReset (stubAnswered s)
    else if !nodeAllows s (g / 2 ^ 48 % 1024) w.rq false true then .fault fAccess (deny s (.pkg 9) w.rq true g)
    else
      match uSend w s (.unitWrite w.slot w.id) 4
          (galRequest w.kind w.domain (setBits g 0 23 0 + n * 2 ^ 38) 5 0 (toLe 4 1)) with
      | some s => .made s
      | none => .later
  | .lane op g v tried =>
    match coreAmo s w.rq (some w.slot) op 4 g v 0 with
    | (.ok, _, s) => .made s
    | (.wait, _, _) => .later
    | (.need _ _, _, s) =>
      if op ≠ 7 then
        match uSend w s (.unitWrite w.slot w.id) 4 (galRequest w.kind w.domain g 4 op (toLe 8 v ++ toLe 8 0)) with
        | some s => .made s
        | none => .later
      else
        match tiAt s w.slot w.id with
        | none => .later
        | some t =>
          match SMap.find t.far g with
          | none =>
            if s.gal.tags.any (fun e => e.2.owner = .unitRead w.slot w.id g) then .later
            else
              match freeTag s with
              | some tag =>
                if galHolds s then .later
                else .changed (.lane op g v none) (sendRequest s tag (.unitRead w.slot w.id g) 4
                  (galRequest w.kind w.domain g 1 3 []))
              | none => .later
          | some bs =>
            let old := leNat bs
            if tried = some old ∨ f32max old v = old then .made (putTi s w.slot { t with far := SMap.del t.far g })
            else
              match freeTag s with
              | some tag =>
                if galHolds s then .later
                else
                  .changed (.lane op g v (some old)) (sendRequest (putTi s w.slot { t with far := SMap.del t.far g }) tag
                    (.unitRead w.slot w.id g) 4
                    (galRequest w.kind w.domain g 4 5 (toLe 8 (f32max old v) ++ toLe 8 old)))
              | none => .later
    | (e, _, s) => .fault e.fault s

/-- Set the accesses still to be made. -/
def uSetOut (w : Who) (s : State) (os : List UnitOut) : State :=
  match tiAt s w.slot w.id with
  | some t => putTi s w.slot { t with out := os }
  | none => s

/-- Make accesses in their order as far as they go. -/
def uDrain (w : Who) (s : State) : List UnitOut → State
  | [] => uSetOut w s []
  | o :: os =>
    match uMake w s o with
    | .made s => uDrain w s os
    | .later => uSetOut w s (o :: os)
    | .changed o s => uSetOut w s (o :: os)
    | .fault c s => tiFault s w.slot w.id c

/-- The last accesses of an instruction, one after another, each once everything before it is done; then it is due to
retire. -/
def uFinish (w : Who) (s : State) : Nat → State
  | 0 => s
  | n + 1 =>
    match tiAt s w.slot w.id with
    | none => s
    | some t =>
      match t.phase with
      | .ending =>
        if !t.out.isEmpty || t.owed ≠ 0 then s
        else
          match t.fin with
          | [] => tiPhase s w.slot w.id .retiring
          | o :: os => uFinish w (uDrain w (putTi s w.slot { t with fin := os }) [o]) n
      | _ => s

/-- Go on with an instruction whose results are computed. -/
def uEnd (w : Who) (s : State) : State :=
  match tiAt s w.slot w.id with
  | some t => uFinish w (uDrain w s t.out) (t.fin.length + 1)
  | none => s

/-- The results are computed; `fin` remains once all its accesses are made. -/
def uComputed (w : Who) (s : State) (fin : List UnitOut) : State :=
  match tiAt s w.slot w.id with
  | some t => uEnd w (putTi s w.slot { t with phase := .ending, fin := fin })
  | none => s

/-- Ask another node for a block that a unit needs; nothing while that block has been asked for or no tag is free. -/
def uAsk (w : Who) (s : State) (g len : Nat) : State :=
  if galHolds s || s.gal.tags.any (fun e => e.2.owner = .unitRead w.slot w.id g) then s
  else
    match freeTag s with
    | some tag => sendRequest s tag (.unitRead w.slot w.id g) len (galRequest w.kind w.domain g 1 (len - 1) [])
    | none => s

/-- What a unit's work comes to: its results with the last accesses, a fault, or a block to wait for. -/
def uConclude (w : Who) (s : State) (r : Run (List UnitOut × State)) : State :=
  match r with
  | .ok (fin, s') => uComputed w s' fin
  | .error (.fault c s') => tiFault s' w.slot w.id c
  | .error (.need g len) => uAsk w s g len
  | .error .wait => s

/-- Run an instruction of opcode `op` that its queue has passed to its unit. -/
def unitRun (s : State) (slot id op : Nat) (work : Who → Ti → State → Run (List UnitOut × State)) :
    Host.Outcome State Fault Refusal :=
  match tiAt s slot id with
  | none => .next s
  | some t =>
    if t.op ≠ op ∨ outOfService s (.core slot) then .next s
    else
      match t.phase with
      | .running => done (uConclude (whoOf slot t) s (work (whoOf slot t) t s))
      | .ending => done (uEnd (whoOf slot t) s)
      | _ => .next s

/-! ### Descriptors and ranges -/

/-- A little-endian field of an instruction's descriptor. -/
def Ti.d (t : Ti) (off n : Nat) : Nat := leNat ((t.desc.drop off).take n)

/-- Reserved bytes of the descriptor are zero. -/
def Ti.dZero (t : Ti) (off n : Nat) : Bool := ((t.desc.drop off).take n).all (· = 0)

/-- A range of lines from bytes (R397). -/
def mkRange (rd wr : Bool) (off len : Nat) : List Range :=
  if len = 0 ∨ off ≥ 0x600000 then []
  else
    let hi := min (off + len) 0x600000
    [⟨off / 128, (hi + 127) / 128 - off / 128, rd, wr, false⟩]

/-- The range of the parts of some transfers (global address, length) that lie in the core's own scratchpad (R457): from
the first such byte to the last. -/
def hullRange (s : State) (slot : Nat) (rd wr : Bool) (ps : List (Nat × Nat)) : List Range :=
  let b := spmGlobal s slot 0
  let own := ps.filterMap (fun p =>
    let lo := max p.1 b
    let hi := min (p.1 + p.2) (b + 0x600000)
    if lo < hi then some (lo - b, hi - b) else none)
  match own with
  | [] => []
  | q :: qs =>
    let lo := qs.foldl (fun a r => min a r.1) q.1
    let hi := qs.foldl (fun a r => max a r.2) q.2
    mkRange rd wr lo (hi - lo)

end Sys2Proof.Machine
end

