-- ==== Sys2Proof/Machine/Emb.lean ====
section
/-!
DEFINITION. Embedding tables, the row cache and EMB_GATHER (R339 to R353, R365, R366).
-/

namespace Sys2Proof.Machine

/-- Page B2 of a cluster, numbered die × 4 + cluster. -/
def embPage (cl : Nat) : Page := .cl (cl / 4) (cl % 4) 2

/-! ### Table descriptors (R339 to R341) -/

/-- A table: its descriptor's bytes and its NODE_LIST. -/
structure EmbTable where
  bytes : List Nat
  nodes : List Nat

/-- A little-endian field of a table descriptor. -/
def EmbTable.f (t : EmbTable) (off n : Nat) : Nat := leNat ((t.bytes.drop off).take n)
/-- KIND: 0 HASHED, 1 COMPOSED, 2 DIRECT. -/
def EmbTable.kind (t : EmbTable) : Nat := t.f 0 1
/-- FMT. -/
def EmbTable.fmt (t : EmbTable) : Nat := t.f 1 1
/-- TABLE_ID. -/
def EmbTable.id (t : EmbTable) : Nat := t.f 2 1
/-- BYPASS. -/
def EmbTable.bypass (t : EmbTable) : Bool := bit (t.f 3 1) 0
/-- UPDATABLE. -/
def EmbTable.updatable (t : EmbTable) : Bool := bit (t.f 3 1) 1
/-- ROW_LINES. -/
def EmbTable.rowLines (t : EmbTable) : Nat := t.f 4 1
/-- SHARDS. -/
def EmbTable.shards (t : EmbTable) : Nat := t.f 6 2
/-- PEND_CAP. -/
def EmbTable.pendCap (t : EmbTable) : Nat := t.f 0x3C 4
/-- Bytes of an element. -/
def EmbTable.size (t : EmbTable) : Nat := if t.fmt ≤ 3 then 1 else if t.fmt ≤ 6 then 2 else 4
/-- Elements of a line. -/
def EmbTable.perLine (t : EmbTable) : Nat := 64 / t.size
/-- Lines of a half. -/
def EmbTable.halfLines (t : EmbTable) : Nat := if t.kind = 1 then t.rowLines / 2 else t.rowLines
/-- ROWS, SEED and BASE of a half. -/
def EmbTable.rows (t : EmbTable) (b : Bool) : Nat := t.f (if b then 0xC else 8) 4
/-- SEED of a half. -/
def EmbTable.seed (t : EmbTable) (b : Bool) : Nat := t.f (if b then 0x18 else 0x10) 8
/-- BASE of a half. -/
def EmbTable.base (t : EmbTable) (b : Bool) : Nat := t.f (if b then 0x28 else 0x20) 8

/-- R341: the table is refused, its NODE_LIST aside. -/
def EmbTable.bad (t : EmbTable) : Bool :=
  let comp := t.kind = 1
  let rl := t.rowLines
  let zero := fun (off n : Nat) => t.f off n = 0
  t.kind > 2 || ! [1, 2, 3, 5, 6, 8].contains t.fmt || t.f 3 1 > 7 || rl < 1 || rl > 16 || (comp && rl % 2 ≠ 0) ||
  t.f 5 1 > 1 || t.shards < 1 || t.shards > 1024 || (t.kind = 2 && t.shards ≠ 1) || zero 8 4 ||
  (if comp then zero 0xC 4 else !zero 0xC 4 || !zero 0x18 8 || !zero 0x28 8) ||
  t.base false ≥ 2 ^ 48 || t.base false % 64 ≠ 0 || t.base true ≥ 2 ^ 48 || t.base true % 64 ≠ 0 ||
  (if t.updatable then t.pendCap < 16 || t.pendCap > 0x1000000 || t.pendCap % 16 ≠ 0 || t.f 0x40 8 ≥ 2 ^ 48 ||
    t.f 0x40 8 % 256 ≠ 0 || t.fmt ≤ 3 else !zero 0x3C 4) ||
  (if t.f 5 1 = 1 then comp && zero 0x48 8 else !zero 0x48 8) || !zero 0x50 48

/-- R340: the shard's node, the slot and the global address of a half's line 0; none when out of range. -/
def EmbTable.locate (t : EmbTable) (b : Bool) (index : Nat) : Option (Nat × Nat × Nat) :=
  let lines := t.halfLines
  if t.kind = 2 then
    if index ≥ t.rows false then none
    else
      let n := t.nodes.getD 0 0
      some (n, index, n * 2 ^ 48 + (t.base false + index * 64 * lines))
  else
    let h := (Nat.xor index (t.seed b) * 0xB5A39C17E4D26F8B) % 2 ^ 64
    let h := Nat.xor h (h / 2 ^ 29)
    let shard := h / 2 ^ 32 * t.shards / 2 ^ 32
    let slot := h % 2 ^ 32 * t.rows b / 2 ^ 32
    let n := t.nodes.getD shard 0
    some (n, slot, n * 2 ^ 48 + (t.base b + slot * 64 * lines))

/-- Line `l` of a row: the half it lies in and its place there. -/
def EmbTable.half (t : EmbTable) (l : Nat) : Bool × Nat :=
  if t.kind = 1 ∧ l ≥ t.rowLines / 2 then (true, l - t.rowLines / 2) else (false, l)

/-- The home node, slot and global address of line `l` of the row of an index; none when out of range. -/
def EmbTable.line (t : EmbTable) (index l : Nat) : Option (Nat × Nat × Nat) :=
  let h := t.half l
  (t.locate h.1 index).map (fun r => (r.1, r.2.1, r.2.2 + 64 * h.2))

/-- Read a table descriptor and its NODE_LIST; none when R341 refuses it. -/
def readTable (w : Who) (s : State) (g : Nat) : Run (Option EmbTable × State) := do
  if g % 128 ≠ 0 then .error (.fault fAlign s)
  else
    let r ← uRead w s g 128
    let t : EmbTable := ⟨r.1, []⟩
    if t.bad then pure (none, r.2)
    else
      let n ← uRead w r.2 (t.f 0x30 8) (2 * t.shards)
      let t := { t with nodes := (chunks 2 t.shards n.1).map leNat }
      pure (if t.nodes.any (· > 1023) then none else some t, n.2)

/-- The table that an entering instruction names, as its ranges need it, where it lies on this package. -/
def peekTable (s : State) (g : Nat) : Option EmbTable :=
  match locate s g 128 with
  | .dram d off => some ⟨rdBytes s (dramBase d + off) 128, []⟩
  | .spm k off => some ⟨rdBytes s (spmBase k + off) 128, []⟩
  | _ => none

/-! ### The row cache (R347 to R350) -/

/-- The set of a line. -/
def rcSet (table addr : Nat) : Nat := (Nat.xor (addr / 64 % 2 ^ 52) (table * 0x10001) * 0x9D2C5681) % 2 ^ 64 / 2 ^ 13 % 8192

/-- The key from which the admission filter's columns come. -/
def rcKey (table addr : Nat) : Nat := (Nat.xor (addr / 64 % 2 ^ 52) (table * 2 ^ 52 % 2 ^ 64) * 0xE35B7D41A69C2F03) % 2 ^ 64

/-- Column of filter row `i`. -/
def rcCol (k i : Nat) : Nat := 4096 * i + bits k (12 * i + 16) 12

/-- The way that holds a line. -/
def rcWay (e : EmbUnit) (table addr : Nat) : Option Nat :=
  (List.range 16).find? (fun w => match SMap.find e.cache (16 * rcSet table addr + w) with
    | some l => l.table = table && l.addr = addr
    | none => false)

/-- A resident line. -/
def rcFind (e : EmbUnit) (table addr : Nat) : Option RcLine :=
  (rcWay e table addr).bind (fun w => SMap.find e.cache (16 * rcSet table addr + w))

/-- The estimate of a line's use. -/
def rcEstimate (e : EmbUnit) (table addr : Nat) : Nat :=
  let k := rcKey table addr
  (List.range 4).foldl (fun m i => min m (SMap.getD e.filter (rcCol k i) 0)) 255

/-- R349: one more request of a line; whether the counters were halved. -/
def rcTouch (e : EmbUnit) (table addr : Nat) : Bool × EmbUnit :=
  let k := rcKey table addr
  let f := (List.range 4).foldl (fun f i => SMap.put f (rcCol k i) (min 255 (SMap.getD f (rcCol k i) 0 + 1))) e.filter
  let c := match rcWay e table addr with
    | some w =>
      let i := 16 * rcSet table addr + w
      match SMap.find e.cache i with
      | some l => SMap.put e.cache i { l with use := min 255 (l.use + 1) }
      | none => e.cache
    | none => e.cache
  let e := { e with filter := f, cache := c, accesses := e.accesses + 1 }
  if e.accesses % 2 ^ 20 = 0 then
    (true, { e with filter := (e.filter.map (fun x => (x.1, x.2 / 2))).filter (fun x => x.2 ≠ 0),
                    cache := e.cache.map (fun x => (x.1, { x.2 with use := x.2.use / 2 })) })
  else (false, e)

/-- R349: what becomes of a line that returns: kept, with whether another was evicted, or rejected. -/
def rcFill (e : EmbUnit) (keep : Bool) (table addr : Nat) (data : List Nat) : Option Bool × EmbUnit :=
  let base := 16 * rcSet table addr
  let put := fun (w : Nat) => { e with cache := SMap.put e.cache (base + w) ⟨table, addr, rcEstimate e table addr, data⟩ }
  match (List.range 16).find? (fun w => (SMap.find e.cache (base + w)).isNone) with
  | some w => (some false, put w)
  | none =>
    let use := fun (w : Nat) => ((SMap.find e.cache (base + w)).map RcLine.use).getD 0
    let w := (List.range 16).foldl (fun b w => if use w < use b then w else b) 0
    if keep && decide (rcEstimate e table addr ≤ use w) then (none, e) else (some true, put w)

/-! ### EMB_GATHER (R342 to R346, R351 to R353) -/

/-- A descriptor that R342 does not allow, its table aside; EMB_UPDATE has the same layout (R354). -/
def embBad (t : Ti) : Bool :=
  t.d 0 1 > 1 || t.d 1 1 > 1 || bit (t.d 2 1) 6 || !t.dZero 3 1 || t.d 4 4 > 65536 || !t.dZero 0x28 24

/-- A misaligned address of an embedding descriptor. -/
def embMisaligned (t : Ti) : Bool :=
  (t.d 0 1 = 0 && t.d 0x10 8 % 8 ≠ 0) || t.d 0x18 8 % 64 ≠ 0 || t.d 0x20 8 % 32 ≠ 0

/-- The indices of an instruction (R342). -/
def embIndices (w : Who) (t : Ti) (s : State) : Run (List Nat × State) := do
  let n := t.d 4 4
  if t.d 0 1 = 1 then pure ((List.range n).map (fun i => (t.d 0x10 8 + i) % 2 ^ 64), s)
  else
    let r ← uRead w s (t.d 0x10 8) (8 * n)
    pure ((chunks 8 n r.1).map leNat, r.2)

/-- A refusal (R341): only STATUS is written. -/
def embRefuse (w : Who) (s : State) (res : Nat) : List UnitOut × State :=
  let p := embPage (slotCl w.slot)
  ([.write res [1]], raiseInt (finc s p CB2.EMB_REFUSED) p 2)

/-- The progress of a gather, held in `Ti.prog`: the next line to request, lines undelivered, HITS, MISSES, COALESCED,
ZERO_ROWS in lines, FLAGS, ROW_LINES, and the rows that a line answered TARGET_RESET has made zero. -/
structure GatherProg where
  next : Nat
  und : Nat
  hits : Nat
  misses : Nat
  coal : Nat
  zero : Nat
  flags : Nat
  lines : Nat
  down : List Nat

/-- The progress that an instruction keeps. -/
def GatherProg.of (t : Ti) : GatherProg :=
  match t.prog with
  | a :: b :: c :: d :: e :: f :: g :: h :: rest => ⟨a, b, c, d, e, f, g, h, rest⟩
  | _ => ⟨0, 0, 0, 0, 0, 0, 0, 0, []⟩

/-- Keep the progress. -/
def GatherProg.put (z : GatherProg) (w : Who) (s : State) : State :=
  match tiAt s w.slot w.id with
  | some t => putTi s w.slot { t with prog := [z.next, z.und, z.hits, z.misses, z.coal, z.zero, z.flags, z.lines] ++ z.down }
  | none => s

/-- The gather is complete once every line is requested and delivered: its record is written. -/
def gatherDone (w : Who) (t : Ti) (s : State) : State :=
  match tiAt s w.slot w.id with
  | none => s
  | some u =>
    let z := GatherProg.of u
    if u.phase ≠ .running ∨ z.lines = 0 ∨ z.und ≠ 0 ∨ z.next < t.d 4 4 * z.lines then s
    else
      uComputed w s [.write (t.d 0x20 8) ([0, z.flags, 0, 0] ++ toLe 4 z.hits ++ toLe 4 z.misses ++ toLe 4 z.coal ++
        toLe 4 z.zero ++ List.replicate 12 0)]

/-- Deliver a line of a gather at `dst`. -/
def deliver (w : Who) (s : State) (dst : Nat) (data : List Nat) : State :=
  match uWrite w s dst data with
  | .ok s => s
  | .error (.fault c s) => tiFault s w.slot w.id c
  | .error _ => s

/-- The home of a table line is this package or another node; addresses outside region 0x0 are no table's (R341). -/
def lineFar (s : State) (addr : Nat) : Bool := addr / 2 ^ 48 % 1024 ≠ ownNode s

/-- Ask for a line that has no fetch pending (R351); none when it must wait. -/
def missNew (s : State) (cl : Nat) (w : Who) (t : EmbTable) (addr dst : Nat) : Option State :=
  let p := embPage cl
  let e := embAt s cl
  let m : Miss := ⟨t.id, addr, w.domain, !t.bypass && fbit s p CB2.RC_CTRL_EN, s.now, [⟨w.slot, w.id, dst⟩], none⟩
  let take := fun (s : State) =>
    let e := embAt s cl
    let s := finc (setEmb s cl { e with misses := e.misses ++ [m] }) p CB2.RC_MISSES
    if t.bypass then finc s p CB2.RC_BYPASS else s
  if e.misses.length ≥ 1024 then none
  else if !lineFar s addr then some (take s)
  else
    match freeTag s with
    | none => none
    | some tag =>
      if galHolds s then none
      else some (sendRequest (take s) tag (.line cl t.id addr) 64 (galRequest 4 w.domain addr 1 63 []))

/-- One line request of a gather (R348 to R352): its progress and the state; none when it must wait. -/
def gatherLine (w : Who) (tb : EmbTable) (z : GatherProg) (s : State) (addr dst : Nat) : Option (GatherProg × State) :=
  let cl := slotCl w.slot
  let p := embPage cl
  let rc := !tb.bypass && fbit s p CB2.RC_CTRL_EN
  let touch := fun (s : State) =>
    if tb.bypass then s
    else
      let r := rcTouch (embAt s cl) tb.id addr
      let s := setEmb s cl r.2
      if r.1 then finc s p CB2.RC_HALVINGS else s
  let look := fun (s : State) => if rc then fadd64 s p CB2.RC_LOOKUPS_LO CB2.RC_LOOKUPS_HI 1 else s
  match (if rc then rcFind (embAt s cl) tb.id addr else none) with
  | some l =>
    let s := fadd64 (touch (look s)) p CB2.RC_HITS_LO CB2.RC_HITS_HI 1
    some ({ z with next := z.next + 1, hits := z.hits + 1 }, deliver w s dst l.data)
  | none =>
    let e := embAt s cl
    if e.misses.any (fun m => m.table = tb.id && m.addr = addr) then
      let s := finc (touch (look s)) p CB2.RC_COALESCED
      let e := embAt s cl
      some ({ z with next := z.next + 1, coal := z.coal + 1, und := z.und + 1 },
        setEmb s cl { e with misses := e.misses.map (fun m =>
          if m.table = tb.id ∧ m.addr = addr then { m with joins := m.joins ++ [⟨w.slot, w.id, dst⟩] } else m) })
    else
      match missNew s cl w tb addr dst with
      | none => none
      | some s => some ({ z with next := z.next + 1, misses := z.misses + 1, und := z.und + 1 }, touch (look s))

/-- Request lines until the gather has requested all, holds 512 undelivered, waits, or has faulted. -/
def gatherLines (w : Who) (t : Ti) (tb : EmbTable) (idx : List Nat) : Nat → GatherProg → State → State
  | 0, z, s => z.put w s
  | n + 1, z, s =>
    let rl := tb.rowLines
    let p := embPage (slotCl w.slot)
    if z.next ≥ idx.length * rl ∨ z.und ≥ 512 then z.put w s
    else
      let i := z.next / rl
      let dst := t.d 0x18 8 + 64 * z.next
      match tb.line (idx.getD i 0) (z.next % rl) with
      | none =>
        let s := deliver w (raiseInt (finc s p CB2.ZERO_ROWS) p 3) dst (List.replicate (64 * rl) 0)
        gatherLines w t tb idx n { z with next := z.next + rl, zero := z.zero + rl, flags := setBits z.flags 0 1 1 } s
      | some (_, _, addr) =>
        if bits addr 44 4 ≠ 0 ∨ addr ≥ 2 ^ 58 then tiFault (z.put w s) w.slot w.id fAccess
        else
          match gatherLine w tb z s addr dst with
          | none => z.put w (if (embAt s (slotCl w.slot)).misses.length ≥ 1024 then raiseInt s p 4 else s)
          | some (z, s) =>
            match (tiAt s w.slot w.id).map Ti.phase with
            | some .running => gatherLines w t tb idx n z s
            | _ => z.put w s

/-- EMB_GATHER goes on: its table and indices are read, and lines requested. -/
def gatherGo (w : Who) (t : Ti) (s : State) : State :=
  if embMisaligned t then tiFault s w.slot w.id fAlign
  else if embBad t then let r := embRefuse w s (t.d 0x20 8); uComputed w r.2 r.1
  else
    match (do
      let tb ← readTable w s (t.d 8 8)
      match tb.1 with
      | none => pure (none, tb.2)
      | some b => do
        let ix ← embIndices w t tb.2
        pure (some (b, ix.1), ix.2) : Run (Option (EmbTable × List Nat) × State)) with
    | .error (.fault c s) => tiFault s w.slot w.id c
    | .error (.need g len) => uAsk w s g len
    | .error .wait => s
    | .ok (none, s) => let r := embRefuse w s (t.d 0x20 8); uComputed w r.2 r.1
    | .ok (some (tb, idx), s) =>
      gatherDone w t (gatherLines w t tb idx (idx.length * tb.rowLines) { GatherProg.of t with lines := tb.rowLines } s)

/-- EMB_GATHER run by the cluster's embedding unit. -/
def embGatherRun (s : State) (slot id : Nat) : Host.Outcome State Fault Refusal :=
  match tiAt s slot id with
  | none => .next s
  | some t =>
    let b := Block.cluster (slotDie slot) (slotCluster slot)
    if t.op ≠ 0xCB ∨ outOfService s (.core slot) ∨ outOfService s b then .next s
    else
      match t.phase with
      | .running => done (gatherGo (whoOf slot t) t s)
      | .ending => done (uEnd (whoOf slot t) s)
      | _ => .next s

/-- Deliver a returned line to one joined request (R352), or what its failure means for it (R344). -/
def joinDeliver (status : Nat) (data : List Nat) (s : State) (j : Join) : State :=
  match tiAt s j.slot j.id with
  | none => s
  | some t =>
    if t.phase ≠ .running ∨ t.op ≠ 0xCB then s
    else
      let w := whoOf j.slot t
      let z := GatherProg.of t
      let z := { z with und := z.und - 1 }
      let row := (j.dst - t.d 0x18 8) / (64 * max 1 z.lines)
      let rowAt := t.d 0x18 8 + row * 64 * z.lines
      if status = 0 then
        gatherDone w t (deliver w (z.put w s) j.dst (if z.down.contains row then List.replicate 64 0 else data))
      else if status = 1 ∨ status = 5 then
        if bit (t.d 1 1) 0 then
          tiFault (uScramble w s [(t.d 0x18 8, t.d 4 4 * 64 * z.lines)]) j.slot j.id fTargetReset
        else
          let z := { z with flags := setBits z.flags 1 1 1, down := if z.down.contains row then z.down else z.down ++ [row] }
          gatherDone w t (deliver w (z.put w s) rowAt (List.replicate (64 * z.lines) 0))
      else tiFault s j.slot j.id (AccRes.ofStatus status).fault

/-- MISS_FILL (R349, R352): the oldest line fetch of a cluster that has returned is delivered to its requests and placed in
the row cache or rejected. -/
def execMissFill (d : Fin 2) (c : Fin 4) (s : State) : Host.Outcome State Fault Refusal :=
  let cl := d.val * 4 + c.val
  let p := embPage cl
  let e := embAt s cl
  if outOfService s (.cluster d.val c.val) then .next s
  else
    match e.misses.find? (fun m => m.back.isSome || !lineFar s m.addr) with
    | none => .next s
    | some m =>
      let r := match m.back with
        | some b => (b.1, b.2, s)
        | none =>
          let r := busRead s ⟨m.domain, true, none⟩ none m.addr 64
          (r.1.status, r.2.1, r.2.2)
      let s := r.2.2
      let e := embAt s cl
      let e := { e with misses := e.misses.filter (fun q => !(q.table = m.table && q.addr = m.addr)) }
      let s := fset (setEmb s cl e) p CB2.MISS_MAX_NS (max (fget s p CB2.MISS_MAX_NS) (s.now - m.since))
      let s := if r.1 = 1 ∨ r.1 = 5 then raiseInt (finc s p CB2.REMOTE_DOWN) p 0 else s
      let s :=
        if r.1 = 0 && m.cached && fbit s p CB2.RC_CTRL_EN then
          match rcFill (embAt s cl) (fbit s p CB2.RC_CTRL_ADMIT_EN) m.table m.addr r.2.1 with
          | (some ev, e) =>
            let s := finc (setEmb s cl e) p CB2.RC_ADMITTED
            if ev then finc s p CB2.RC_EVICTED else s
          | (none, e) => finc (setEmb s cl e) p CB2.RC_REJECTED
        else s
      done (m.joins.foldl (joinDeliver r.1 r.2.1) s)

/-- The declared ranges of EMB_GATHER (R346); rows are the widest where the table cannot be seen at entry. -/
def embGatherRanges (s : State) (slot : Nat) (t : Ti) : List Range :=
  let n := if embBad t then 0 else t.d 4 4
  let rl := ((peekTable s (t.d 8 8)).map EmbTable.rowLines).getD 16
  (if t.d 0 1 = 0 then hullRange s slot true false [(t.d 0x10 8, 8 * n)] else []) ++
  hullRange s slot false true [(t.d 0x18 8, 64 * rl * n)] ++ hullRange s slot false true [(t.d 0x20 8, 32)]

end Sys2Proof.Machine
end

