-- ==== Sys2Proof/Machine/EmbUpd.lean ====
section
/-!
DEFINITION. Embedding updates (R354 to R361): EMB_UPDATE, EMB_FLUSH, contributions at their home, EMB_APPLY.
-/

namespace Sys2Proof.Machine

/-! ### Contributions at their home (R356) -/

/-- The pending entries of every cluster with their clusters. -/
def pendEntries (s : State) : List (Nat × PendEntry) :=
  (List.range 8).flatMap (fun c => (embAt s c).pend.map (fun e => (c, e)))

/-- The same line of a table. -/
def GradLine.same (a b : GradLine) : Bool := a.table = b.table && a.slot = b.slot && a.line = b.line

/-- Add sums lane by lane. -/
def addSums (a b : List Nat) : List Nat := (a.zip b).map (fun p => f32add p.1 p.2)

/-- R356: a contribution reaches its home package: its STATUS and the state. Its entry's bytes in DRAM are not specified, so
they take free values. -/
def contribute (s : State) (rq : Requester) (g : GradLine) : Nat × State :=
  let cl := (g.slot * g.rowLines + g.line) % 8
  let p := embPage cl
  if outOfService s (.cluster (cl / 4) (cl % 4)) then (1, stubAnswered s)
  else if g.pendCap < 16 ∨ g.pendCap % 16 ≠ 0 then (2, s)
  else
    let h := Config.pendHash g.slot g.line
    let window := (List.range 16).map (fun i => (h + i) % g.pendCap)
    let all := pendEntries s
    let mine := all.find? (fun e => e.1 = cl && e.2.line.same g && e.2.line.pendBase = g.pendBase)
    let free := window.find? (fun i => all.all (fun e => !(e.2.line.pendBase = g.pendBase && e.2.place = i)))
    let place := match mine with | some e => some e.2.place | none => free
    match place with
    | none => (6, raiseInt (finc s p CB2.UPD_DROP) p 1)
    | some i =>
      let bs := (List.range 256).map (fun k => (Config.freeByte (s.free + k)).toNat)
      match busWrite s rq none (ownNode s * 2 ^ 48 + g.pendBase + 256 * i) bs with
      | (.ok, s) =>
        let s := { s with free := s.free + 256 }
        let u := embAt s cl
        let pend := match mine with
          | some e => u.pend.map (fun q =>
              if q = e.2 then { q with line := { q.line with sums := addSums q.line.sums g.sums } } else q)
          | none => u.pend ++ [⟨i, g⟩]
        (0, finc (setEmb s cl { u with pend := pend }) p CB2.PEND_ACCEPTED)
      | (.wait, s) => (2, s)
      | (e, s) => (e.status, s)

/-- R493 CONTRIB: the oldest contribution of another node is served. -/
def execContrib (s : State) : Host.Outcome State Fault Refusal :=
  match nextLocal s 0x08 with
  | none => .next s
  | some k =>
    let f := fun (off n : Nat) => leNat ((k.data.drop off).take n)
    let sums := (chunks 4 ((k.len - 1) * 4) (k.data.drop 16)).map leNat
    let g : GradLine := ⟨k.arg, ownNode s, f 8 4, f 6 1, f 7 1, 0, f 0 6, f 0xC 4, k.dom, sums⟩
    let r := contribute s (requesterOf k) g
    done (answerPkt r.2 k r.1 none)

/-! ### Sending (R355, R357) -/

/-- Send a line of a cluster's update buffer to its home; none while it must wait for a tag. -/
def sendLine (s : State) (cl : Nat) (g : GradLine) : Option State :=
  let rq : Requester := ⟨g.domain, true, none⟩
  let f := flowAt s g.table
  let count := fun (s : State) => finc s (embPage cl) CB2.UPD_SENT
  if g.node = ownNode s then
    let r := contribute s rq g
    let f := flowAt r.2 g.table
    some (count (setFlow r.2 g.table { f with sent := f.sent + 1, dropped := f.dropped + b2n (r.1 ≠ 0) }))
  else if !nodeAllows s g.node rq false true then
    some (count (deny (setFlow s g.table { f with sent := f.sent + 1, dropped := f.dropped + 1 }) (.pkg 9) rq true g.addr))
  else
    match freeTag s with
    | none => none
    | some tag =>
      if galHolds s then none
      else
        let s := setFlow s g.table { f with sent := f.sent + 1, out := f.out + 1 }
        let ctxt := toLe 6 g.pendBase ++ [g.line, g.rowLines] ++ toLe 4 g.slot ++ toLe 4 g.pendCap
        some (count (sendRequest s tag (.contrib g.table) 0
          (galRequest 4 g.domain (g.node * 2 ^ 48) 8 g.table (ctxt ++ g.sums.flatMap (toLe 4)))))

/-- Add a gradient line to a cluster's update buffer (R355); none while an early send must wait. -/
def addLine (s : State) (cl : Nat) (g : GradLine) : Option State :=
  let e := embAt s cl
  let same := fun (q : GradLine) => q.table = g.table && q.node = g.node && q.addr = g.addr
  let s := finc s (embPage cl) CB2.UPD_IN
  match e.upd.find? same with
  | some q =>
    some (setEmb s cl { e with upd := e.upd.filter (fun q => !same q) ++ [{ q with sums := addSums q.sums g.sums }] })
  | none =>
    match e.upd with
    | old :: rest =>
      if e.upd.length ≥ 1024 then
        (sendLine (setEmb s cl { e with upd := rest ++ [g] }) cl old).map (fun s => finc s (embPage cl) CB2.UPD_EARLY)
      else some (setEmb s cl { e with upd := e.upd ++ [g] })
    | [] => some (setEmb s cl { e with upd := [g] })

/-! ### EMB_UPDATE (R354, R355) -/

/-- The gradient lines of one row. -/
def rowGrads (w : Who) (t : EmbTable) (index : Nat) (bs : List Nat) : List GradLine :=
  (List.range t.rowLines).filterMap (fun l =>
    (t.line index l).map (fun r =>
      ⟨t.id, r.1, r.2.1, l, t.rowLines, r.2.2, t.f 0x40 8, t.pendCap, w.domain,
        (chunks 4 t.perLine (bs.drop (4 * t.perLine * l))).map leNat⟩))

/-- EMB_UPDATE's work. -/
def embUpdateWork (w : Who) (t : Ti) (s : State) : Run (List UnitOut × State) := do
  let cl := slotCl w.slot
  let p := embPage cl
  let res := t.d 0x20 8
  if outOfService s (.cluster (cl / 4) (cl % 4)) then .error .wait
  else if embMisaligned t then .error (.fault fAlign s)
  else if embBad t then pure (embRefuse w s res)
  else
    let tb ← readTable w s (t.d 8 8)
    match tb.1 with
    | none => pure (embRefuse w tb.2 res)
    | some b =>
      if !b.updatable then pure (embRefuse w tb.2 res)
      else
        let ix ← embIndices w t tb.2
        let e := b.rowLines * b.perLine
        let g ← uRead w ix.2 (t.d 0x18 8) (4 * e * ix.1.length)
        let r ← ix.1.zipIdx.foldlM (fun (z : Nat × State) i =>
          let gs := rowGrads w b i.1 (g.1.drop (4 * e * i.2))
          if gs.isEmpty then pure (z.1, raiseInt (finc z.2 p CB2.ZERO_ROWS) p 3)
          else
            match gs.foldl (fun (s : Option State) q => s.bind (fun s => addLine s cl q)) (some z.2) with
            | some s => pure (z.1 + 1, s)
            | none => .error .wait) (0, g.2)
        pure ([.write res (toLe 4 0 ++ toLe 4 r.1 ++ List.replicate 24 0)], r.2)

/-- EMB_UPDATE run by the cluster's embedding unit. -/
def embUpdateRun (s : State) (slot id : Nat) : Host.Outcome State Fault Refusal := unitRun s slot id 0xCC embUpdateWork

/-! ### EMB_FLUSH (R357) -/

/-- Send the lines of a table from the update buffers of some clusters, as far as tags allow. -/
def flushLines (s : State) (table : Nat) : List Nat → State
  | [] => s
  | cl :: rest =>
    let s := (embAt s cl).upd.foldl (fun s g =>
      if g.table ≠ table then s
      else
        match sendLine s cl g with
        | some s => let e := embAt s cl; setEmb s cl { e with upd := e.upd.filter (· ≠ g) }
        | none => s) s
    flushLines s table rest

/-- A descriptor that R441 does not allow. -/
def flushBad (t : Ti) : Bool := !t.dZero 0x10 16

/-- EMB_FLUSH goes on: its table's lines are sent; once all are answered its record is written. -/
def flushGo (w : Who) (t : Ti) (s : State) : State :=
  let res := t.d 8 8
  if res % 32 ≠ 0 then tiFault s w.slot w.id fAlign
  else if flushBad t then let r := embRefuse w s res; uComputed w r.2 r.1
  else
    match readTable w s (t.d 0 8) with
    | .error (.fault c s) => tiFault s w.slot w.id c
    | .error (.need g len) => uAsk w s g len
    | .error .wait => s
    | .ok (none, s) => let r := embRefuse w s res; uComputed w r.2 r.1
    | .ok (some b, s) =>
      if !b.updatable then let r := embRefuse w s res; uComputed w r.2 r.1
      else
        let s := flushLines s b.id (List.range 8)
        let f := flowAt s b.id
        if f.out ≠ 0 ∨ (List.range 8).any (fun c => (embAt s c).upd.any (fun g => g.table = b.id)) then s
        else
          let lost := ((List.range 8).map (fun c => SMap.getD (embAt s c).lost b.id 0)).sum
          let s := (List.range 8).foldl (fun s c => let e := embAt s c; setEmb s c { e with lost := SMap.del e.lost b.id }) s
          let s := setFlow s b.id { f with sent := 0, dropped := 0 }
          uComputed w s [.write res (toLe 4 0 ++ toLe 4 f.sent ++ toLe 4 (f.dropped + lost) ++ List.replicate 20 0)]

/-- EMB_FLUSH run by the cluster's embedding unit. -/
def embFlushRun (s : State) (slot id : Nat) : Host.Outcome State Fault Refusal :=
  match tiAt s slot id with
  | none => .next s
  | some t =>
    if t.op ≠ 0xCD ∨ outOfService s (.core slot) then .next s
    else
      match t.phase with
      | .running => done (flushGo (whoOf slot t) t s)
      | .ending => done (uEnd (whoOf slot t) s)
      | _ => .next s

/-! ### EMB_APPLY (R358, R359) -/

/-- Apply one pending entry; a table outside region 0x0 is refused (R341). -/
def applyEntry (w : Who) (t : EmbTable) (s : State) (g : GradLine) : Run State := do
  let h := t.half g.line
  let here := ownNode s * 2 ^ 48
  let n := t.perLine
  if t.base h.1 ≥ 2 ^ 44 then .error (.fault fAccess s)
  else if t.f 5 1 = 1 then
    let a := here + t.base h.1 + t.f 0x48 8 + g.slot * 4 * (t.halfLines * n) + 4 * n * h.2
    let r ← uRead w s a (4 * n)
    uWrite w r.2 a ((addSums ((chunks 4 n r.1).map leNat) g.sums).flatMap (toLe 4))
  else
    let a := here + t.base h.1 + g.slot * 64 * t.halfLines + 64 * h.2
    let r ← uRead w s a 64
    let vs := elements t.fmt true true r.1
    let rs := roundings r.2 (bit (t.f 3 1) 2) n
    let codes := ((vs.zip g.sums).zip rs.1).map (fun z =>
      (convertTo t.fmt true z.2 0x3F800000 (f32v (f32add (f32r z.1.1) (f32mul (t.f 0x38 4) z.1.2)))).1)
    uWrite w rs.2 a (codes.flatMap (toLe t.size))

/-- Every line of a table leaves the row caches (R359). -/
def invalidateTable (s : State) (table : Nat) : State :=
  (List.range 8).foldl (fun s c =>
    let e := embAt s c
    let keep := e.cache.filter (fun l => l.2.table ≠ table)
    let n := e.cache.length - keep.length
    if n = 0 then s else fadd (setEmb s c { e with cache := keep }) (embPage c) CB2.RC_INVALIDATED n) s

/-- EMB_APPLY's work. -/
def embApplyWork (w : Who) (t : Ti) (s : State) : Run (List UnitOut × State) := do
  let res := t.d 8 8
  if res % 32 ≠ 0 then .error (.fault fAlign s)
  else if flushBad t then pure (embRefuse w s res)
  else
    let tb ← readTable w s (t.d 0 8)
    match tb.1 with
    | none => pure (embRefuse w tb.2 res)
    | some b =>
      if !b.updatable then pure (embRefuse w tb.2 res)
      else
        let es := (pendEntries tb.2).filter (fun e => e.2.line.table = b.id)
        let s ← es.foldlM (fun s e => do
          let s ← applyEntry w b s e.2.line
          let u := embAt s e.1
          pure (finc (setEmb s e.1 { u with pend := u.pend.filter (· ≠ e.2) }) (embPage e.1) CB2.APPLIED)) tb.2
        pure ([.write res (toLe 4 0 ++ toLe 4 es.length ++ List.replicate 24 0)], invalidateTable s b.id)

/-- EMB_APPLY run by the cluster's embedding unit. -/
def embApplyRun (s : State) (slot id : Nat) : Host.Outcome State Fault Refusal := unitRun s slot id 0xCE embApplyWork

/-- The declared ranges of EMB_UPDATE (R436). -/
def embUpdateRanges (s : State) (slot : Nat) (t : Ti) : List Range :=
  let n := if embBad t then 0 else t.d 4 4
  let tb := peekTable s (t.d 8 8)
  let row := (tb.map (fun b => 4 * b.rowLines * b.perLine)).getD (4 * 16 * 32)
  (if t.d 0 1 = 0 then hullRange s slot true false [(t.d 0x10 8, 8 * n)] else []) ++
  hullRange s slot true false [(t.d 0x18 8, row * n)] ++ hullRange s slot false true [(t.d 0x20 8, 32)]

/-- The declared ranges of EMB_FLUSH and EMB_APPLY (R436). -/
def embFlushRanges (s : State) (slot : Nat) (t : Ti) : List Range := hullRange s slot false true [(t.d 8 8, 32)]

end Sys2Proof.Machine
end

