-- ==== Sys2Proof/Machine/PassMath.lean ====
section
/-!
DEFINITION. A pass (R216 to R243, R254 to R285): its descriptor and sparse header, its ranges, the checks of R220 and R275,
its arithmetic, and the bytes it writes.
-/

namespace Sys2Proof.Machine

/-! ### The descriptor (R217) and the sparse header (R273) -/

/-- A pass with its sparse header (zeros without SPARSE) and index array. -/
structure PassD where
  t : Ti
  h : List Nat
  idx : List Nat

/-- A little-endian field of the sparse header. -/
def PassD.hf (p : PassD) (off n : Nat) : Nat := leNat ((p.h.drop off).take n)
/-- STAT: 0 WS, 1 OS, 2 IS. -/
def PassD.stat (p : PassD) : Nat := p.t.d 0 1
/-- X_FMT. -/
def PassD.xf (p : PassD) : Nat := p.t.d 1 1
/-- W_FMT. -/
def PassD.wf (p : PassD) : Nat := p.t.d 2 1
/-- OUT_FMT. -/
def PassD.outFmt (p : PassD) : Nat := p.t.d 3 1
/-- A bit of FLAGS. -/
def PassD.flag (p : PassD) (i : Nat) : Bool := bit (p.t.d 4 1) i
/-- NEW_STAT. -/
def PassD.newStat (p : PassD) : Bool := p.flag 3
/-- CHAIN_NEXT. -/
def PassD.chainNext (p : PassD) : Bool := p.flag 5
/-- SPARSE. -/
def PassD.sparse (p : PassD) : Bool := p.flag 6
/-- The engines that ENGINES names. -/
def PassD.engines (p : PassD) : List Nat := bitList 4 (p.t.d 6 1)
/-- ACC_SRC: 0 ZERO, 1 C_IN, 2 KEEP. -/
def PassD.acc (p : PassD) : Nat := p.t.d 7 1
/-- STEPS. -/
def PassD.steps (p : PassD) : Nat := p.t.d 8 2
/-- W_KIND: 0 DENSE, 1 W24, 2 BLOCK. -/
def PassD.kind (p : PassD) : Nat := p.hf 0 1
/-- A W24 pass with W_FORM DENSE (R281). -/
def PassD.w24Dense (p : PassD) : Bool := p.kind = 1 && p.hf 1 1 = 1
/-- A W24 pass with W_FORM SPARSE (R276). -/
def PassD.w24 (p : PassD) : Bool := p.kind = 1 && p.hf 1 1 = 0
/-- OUT_ACTION: 0 NORMAL, 1 PREDICT, 2 CHECK. -/
def PassD.action (p : PassD) : Nat := p.hf 2 1
/-- 4-bit mode 0, 8-bit mode 1, 16-bit mode 2 (R216, R218). -/
def PassD.mode (p : PassD) : Nat := if p.xf = 0 then 0 else if p.xf = 5 ∨ p.xf = 6 then 2 else 1
/-- Logical rows and columns. -/
def PassD.dim (p : PassD) : Nat := if p.mode = 2 then 16 else 32
/-- K indices in one lane. -/
def PassD.per (p : PassD) : Nat := if p.mode = 0 then 2 else 1
/-- The accumulator is FP32. -/
def PassD.fp (p : PassD) : Bool := p.xf ≥ 2
/-- Present blocks of a BLOCK pass (R282). -/
def PassD.blocks (p : PassD) : Nat := (bitList 128 (p.hf 0x20 16)).length
/-- The K-steps that run: L, or L′ of a BLOCK pass. -/
def PassD.l (p : PassD) : Nat := if p.kind = 2 then 32 * p.blocks else p.steps
/-- The highest engine named, plus one. -/
def PassD.top (p : PassD) : Nat := p.engines.foldl (fun a e => max a (e + 1)) 0
/-- Bytes of an ACC32 vector (R223). -/
def PassD.accVec (p : PassD) : Nat := if p.mode = 2 then 64 else 128
/-- Bytes of an output vector. -/
def PassD.outVec (p : PassD) : Nat := if p.outFmt = 8 then p.accVec else 32
/-- Vectors of an output (R222). -/
def PassD.outCount (p : PassD) : Nat := if p.stat = 1 then p.dim else p.l
/-- Z of R281. -/
def PassD.spillZ (p : PassD) : Nat := 128 * (p.steps + 31)
/-- Bytes of the bitmap of R284. -/
def PassD.maskBytes (p : PassD) : Nat := up128 ((p.top * p.steps + 7) / 8)
/-- The pass does nothing (R221). -/
def PassD.noop (p : PassD) : Bool := p.steps = 0 || p.engines.isEmpty
/-- The pass uses a held set (R238). -/
def PassD.usesHeld (p : PassD) : Bool := p.stat ≠ 1 && !p.newStat && !p.w24Dense

/-! ### Ranges (R222, R277, R281, R284, R436) -/

/-- Bytes of a streamed operand of format `f`. -/
def PassD.streamed (p : PassD) (f : Nat) : Nat := up128 ((p.l + 31) * fmtVec f)
/-- Bytes of a plain tile of format `f`. -/
def PassD.plain (p : PassD) (f : Nat) : Nat := up128 (p.dim * fmtVec f)

/-- Where W is read, if it is. -/
def PassD.wPart (p : PassD) : List (Nat × Nat) :=
  let a := p.t.d 0x18 4
  if p.stat = 0 then (if p.w24Dense then [(a, 2048)] else if p.newStat then [(a, p.plain p.wf)] else [])
  else [(a, p.streamed p.wf)]

/-- Where X[e] is read, if it is. -/
def PassD.xPart (p : PassD) (e : Nat) : List (Nat × Nat) :=
  let a := p.t.d (0x20 + 4 * e) 4
  if p.stat = 2 then (if p.newStat then [(a, p.plain p.xf)] else [])
  else if p.kind = 1 then [(a, up128 (64 * (p.steps + 30)))]
  else [(a, p.streamed p.xf)]

/-- The operands and metadata that staging reads. -/
def PassD.reads (p : PassD) : List (Nat × Nat) :=
  p.wPart ++ p.engines.flatMap p.xPart ++
  (if p.acc = 1 ∧ p.stat ≠ 1 then p.engines.map (fun e => (p.t.d (0x30 + 4 * e) 4, up128 ((p.l + 31) * p.accVec))) else []) ++
  (if p.sparse then [(p.t.d 0x1C 4, 128)] ++ (if p.kind = 1 then [(p.t.d 0x1C 4 + 128, 256)] else []) else []) ++
  (if p.action = 2 then [(p.hf 0xC 4, p.maskBytes)] else [])

/-- The outputs of the engines and a predictor's bitmap. -/
def PassD.outs (p : PassD) : List (Nat × Nat) :=
  (if (p.stat = 1 ∧ p.chainNext) ∨ p.action = 1 then []
   else p.engines.map (fun e => (p.t.d (0x40 + 4 * e) 4, up128 ((p.outCount + 31) * p.outVec)))) ++
  (if p.action = 1 then [(p.hf 0xC 4, p.maskBytes)] else [])

/-- The spill area of a W24 pass in DENSE form. -/
def PassD.spill (p : PassD) : List (Nat × Nat) := if p.w24Dense then [(p.hf 0x10 4, p.top * p.spillZ)] else []

/-- The declared ranges of a pass beside its descriptor. A pass that does nothing (R221) declares the same. -/
def PassD.ranges (p : PassD) : List Range :=
  p.reads.flatMap (fun r => mkRange true false r.1 r.2) ++ p.outs.flatMap (fun r => mkRange false true r.1 r.2) ++
    p.spill.flatMap (fun r => mkRange true true r.1 r.2)

/-- The pass of an instruction; header and index array as the scratchpad holds them (zeros where they lie beyond it). -/
def passOf (s : State) (slot : Nat) (t : Ti) : PassD :=
  let at_ := fun (off n : Nat) => rdBytes s (spmBase slot + off % 0x800000) n
  let m := t.d 0x1C 4
  if bit (t.d 4 1) 6 && decide (m + 128 ≤ 0x600000) then ⟨t, at_ m 128, at_ (m + 128) 256⟩ else ⟨t, List.replicate 128 0, []⟩

/-! ### Checks (R220, R275) -/

/-- An operand format. -/
def operandFmt (f : Nat) : Bool := f ≤ 6

/-- BAD_FIELD of the descriptor. -/
def PassD.badField (p : PassD) : Bool :=
  let t := p.t
  let pairOk := p.xf = p.wf || ((p.xf = 2 || p.xf = 3) && (p.wf = 2 || p.wf = 3))
  let outOk := if p.mode = 2 then [5, 6, 8].contains p.outFmt else [1, 2, 3, 8].contains p.outFmt
  !t.dZero 0x50 48 || t.d 6 1 > 15 || t.d 0xA 1 > 1 || t.d 0xB 1 > 63 || p.stat > 2 || p.acc > 2 ||
  !operandFmt p.xf || !operandFmt p.wf || !pairOk || !outOk || ! [0, 8, 16].contains (t.d 5 1) ||
  (p.xf ≥ 2 && (t.d 5 1 ≠ 0 || p.flag 0 || p.flag 1)) ||
  (p.mode = 2 && (t.d 0xC 4 ≥ 65536 || t.d 0x10 4 ≥ 65536))

/-- BAD_FIELD of the sparse header. -/
def PassD.badHeader (p : PassD) : Bool :=
  let k := p.kind
  let a := p.action
  let zero := fun (off n : Nat) => p.hf off n = 0
  k > 2 || p.hf 1 1 > 1 || a > 2 || p.hf 3 1 > 1 || !zero 6 2 || !zero 0x14 12 || !zero 0x30 80 ||
  (k ≠ 1 && p.hf 1 1 ≠ 0) || (if k = 1 then p.hf 4 1 < 1 || p.hf 4 1 > 64 else p.hf 4 1 ≠ 0) ||
  (if k = 2 then p.hf 5 1 < 1 || p.hf 5 1 > 128 else p.hf 5 1 ≠ 0) ||
  (k = 0 && ((a = 1 && !(p.stat = 0 && p.xf = 0)) || (a = 2 && p.stat ≠ 0))) ||
  (k = 1 && (p.stat ≠ 0 || p.xf < 1 || p.xf > 3 || a = 1)) ||
  (k = 2 && (p.stat ≠ 1 || a ≠ 0 || !bit (p.hf 3 1) 0)) ||
  p.hf 0x20 16 ≥ 2 ^ p.hf 5 1 || (k = 2 && p.steps ≠ 32 * p.hf 5 1) ||
  (p.w24Dense && p.hf 0x10 4 = 0xFFFFFFFF)

/-- NO_STATIONARY. -/
def PassD.noStationary (p : PassD) (g : Group) : Bool :=
  p.usesHeld &&
    (match g.held with
     | none => true
     | some h =>
       h.stat ≠ p.stat || h.fmt ≠ (if p.stat = 0 then p.wf else p.xf) || h.kind ≠ p.kind ||
       (p.stat = 2 && p.engines.any (fun e => (SMap.find h.xs e).isNone)))

/-- CHAIN; `ctx` is the pass's own context. -/
def PassD.badChain (p : PassD) (g : Group) : Bool :=
  (p.stat ≠ 1 && (p.acc = 2 || p.chainNext)) || (p.stat = 1 && p.acc = 1) ||
  (match g.chain with
   | none => p.acc = 2
   | some c => c.ctx ≠ p.t.ctx || p.acc ≠ 2 || c.engines ≠ p.t.d 6 1 || (c.ids.length ≥ 3 && p.chainNext))

/-- Two ranges share a line. -/
def linesMeet (a b : Nat × Nat) : Bool :=
  a.2 ≠ 0 && b.2 ≠ 0 && decide (a.1 / 128 ≤ (b.1 + b.2 - 1) / 128) && decide (b.1 / 128 ≤ (a.1 + a.2 - 1) / 128)

/-- OVERLAP: an OUT range meets a read range or another OUT range. -/
def PassD.overlap (p : PassD) : Bool :=
  let rd := p.reads ++ p.spill
  let ws := p.outs ++ p.spill
  p.outs.any (fun o => rd.any (linesMeet o)) || p.spill.any (fun o => p.reads.any (linesMeet o)) ||
  (List.range ws.length).any (fun i => (List.range i).any (fun j => linesMeet (ws.getD i (0, 0)) (ws.getD j (0, 0))))

/-- An operand address that is not 128-byte aligned. -/
def PassD.misaligned (p : PassD) : Bool :=
  (p.reads ++ p.outs ++ p.spill).any (fun r => r.1 % 128 ≠ 0)

/-- An operand range beyond the scratchpad. -/
def PassD.beyond (p : PassD) : Bool :=
  (p.reads ++ p.outs ++ p.spill).any (fun r => r.2 ≠ 0 && decide (r.1 + r.2 > 0x600000))

/-- R220, R275: the cause and the fault of a refusal. -/
def PassD.check (p : PassD) (g : Group) : Option (Nat × Nat) :=
  if p.badField || (p.sparse && p.t.d 0x1C 4 % 128 = 0 && p.t.d 0x1C 4 + 128 ≤ 0x600000 && p.badHeader) then some (1, fPassAbort)
  else if p.steps > 4096 then some (2, fPassAbort)
  else if p.noStationary g then some (3, fPassAbort)
  else if p.badChain g then some (4, fPassAbort)
  else if p.overlap then some (8, fScoreboard)
  else if p.misaligned then some (9, fAlign)
  else if p.beyond then some (10, fAccess)
  else none

/-! ### Arithmetic (R257 to R262) -/

/-- The integer of an integer element. -/
def Fv.int : Fv → Int
  | .fin m e => m * 2 ^ e.toNat
  | _ => 0

/-- Add one product to an accumulator. -/
def PassD.mac (p : PassD) (acc : Nat) (x w : Fv) : Nat :=
  if p.fp then
    let q := f32r (x.mul w)
    f32add acc (if p.flag 2 then f32neg q else q)
  else
    let q := x.int * w.int * 2 ^ p.t.d 5 1
    wrap 32 ((acc : Int) + (if p.flag 2 then -q else q))

/-- The elements of a vector of X or of W. -/
def PassD.xs (p : PassD) (bs : List Nat) : List Fv := elements p.xf (p.flag 0) true bs
/-- The elements of a vector of W. -/
def PassD.ws (p : PassD) (bs : List Nat) : List Fv := elements p.wf (p.flag 1) true bs

/-- Logical vectors of a streamed operand of format `f` from its stored bytes. -/
def unstream (f n : Nat) (bs : List Nat) : List (List Nat) :=
  let vb := fmtVec f
  let ss := chunks vb (n + 31) bs
  (List.range n).map (unstairAt f (vb / 32) ss)

/-- Logical vector `j` of 64 bytes of a stream in paired stair layout (R277). -/
def unpairAt (ss : List (List Nat)) (j : Nat) : List Nat :=
  (List.range 64).map (fun k => (ss.getD (j + 2 * (k / 4)) []).getD k 0)

/-- Accumulators from ACC32 vectors in stair layout; a negative zero enters as positive zero (R261). -/
def PassD.accs (p : PassD) (n : Nat) (bs : List Nat) : List (List Nat) :=
  let vb := p.accVec
  let ss := chunks vb (n + 31) bs
  (List.range n).map (fun j => (chunks 4 p.dim (unstairAt 1 (vb / 32) ss j)).map (fun b =>
    let v := leNat b
    if p.fp && v = 0x80000000 then 0 else v))

/-- The rows that take part. -/
def PassD.rows (p : PassD) : List Nat := (List.range p.dim).filter (bit (p.t.d 0xC 4))
/-- The columns that take part. -/
def PassD.cols (p : PassD) : List Nat := (List.range p.dim).filter (bit (p.t.d 0x10 4))

/-- Zero and finite tests of R240. -/
def Fv.finite : Fv → Bool
  | .fin _ _ => true
  | _ => false

/-- A WS or IS product sum: each of the pairs (entering value, held value) in turn; the sum and the gated products. -/
def PassD.sum (p : PassD) (start : Nat) (qs : List (Fv × Fv)) : Nat × Nat :=
  qs.foldl (fun a q => (p.mac a.1 q.1 q.2, a.2 + b2n (q.1.isZero && q.2.finite))) (start, 0)

/-- The results of one engine in WS or IS: by vector, the accumulators of the columns; and the gated products. `ent` gives
the values entering row `k` for a vector, `held` those of cell (k, c), paired. -/
def PassD.runHeld (p : PassD) (n : Nat) (start : Nat → Nat → Nat) (qs : Nat → Nat → List (Fv × Fv)) :
    List (List Nat) × Nat :=
  (List.range n).foldl (fun acc m =>
    let r := (List.range p.dim).map (fun c => if p.cols.contains c then p.sum (start m c) (qs m c) else (0, 0))
    (acc.1 ++ [r.map Prod.fst], acc.2 + (r.map Prod.snd).sum)) ([], 0)

/-- The pairs of a dense WS or IS sum: the entering vector's elements at row k and the plain tile's at (k, c). -/
def PassD.densePairs (p : PassD) (ent : List (List Fv)) (tile : List (List Fv)) (m c : Nat) : List (Fv × Fv) :=
  p.rows.flatMap (fun k => (List.range p.per).map (fun i =>
    ((ent.getD m []).getD (p.per * k + i) (.fin 0 0), (tile.getD k []).getD (p.per * c + i) (.fin 0 0))))

/-- The index of compressed row `r`, column `n` (R276). -/
def w24Index (idx : List Nat) (r n : Nat) : Nat := bits (leNat ((idx.drop (8 * r)).take 8)) (2 * n) 2

/-- Logical K of a compressed row and column. -/
def w24K (idx : List Nat) (r n : Nat) : Nat := 4 * (r / 2) + w24Index idx r n

/-- Out-of-range indices of a W24 pass (R279). -/
def PassD.metaRange (p : PassD) (idx : List Nat) : Nat :=
  (p.rows.map (fun r => ((List.range 32).filter (fun n => w24K idx r n ≥ p.hf 4 1)).length)).sum

/-- The pairs of a W24 sum (R278, R279). -/
def PassD.w24Pairs (p : PassD) (idx : List Nat) (ent tile : List (List Fv)) (m c : Nat) : List (Fv × Fv) :=
  p.rows.map (fun r =>
    let k := w24K idx r c
    (if k ≥ p.hf 4 1 then .fin 0 0 else (ent.getD m []).getD k (.fin 0 0), (tile.getD r []).getD c (.fin 0 0)))

/-- The pairs of sub-pass `h` of a W24 pass in DENSE form (R281). -/
def PassD.subPairs (p : PassD) (h : Nat) (ent tile : List (List Fv)) (m c : Nat) : List (Fv × Fv) :=
  p.rows.map (fun r => ((ent.getD m []).getD (32 * h + r) (.fin 0 0), (tile.getD (32 * h + r) []).getD c (.fin 0 0)))

/-- The results of one engine in OS: by vector m, the accumulators of the columns; and the gated products. -/
def PassD.runOs (p : PassD) (start : Nat → Nat → Nat) (xv wv : List (List Fv)) : List (List Nat) × Nat :=
  let cell := fun (m c : Nat) =>
    if p.rows.contains m && p.cols.contains c then
      (xv.zip wv).foldl (fun a v => (List.range p.per).foldl (fun a i =>
        let x := v.1.getD (p.per * m + i) (.fin 0 0)
        let w := v.2.getD (p.per * c + i) (.fin 0 0)
        (p.mac a.1 x w, a.2 + b2n ((x.isZero && w.finite) || (w.isZero && x.finite)))) a) (start m c, 0)
    else (start m c, 0)
  let rs := (List.range p.dim).map (fun m => (List.range p.dim).map (cell m))
  (rs.map (fun r => r.map Prod.fst), (rs.map (fun r => (r.map Prod.snd).sum)).sum)

/-! ### Outputs -/

/-- The value of an accumulator. -/
def PassD.accValue (p : PassD) (a : Nat) : Fv := if p.fp then f32v a else .fin (sext 32 a) 0

/-- One output vector in OUT_FMT (R263); masked columns hold zeros here and are not written. -/
def PassD.outVector (p : PassD) (rs : List RoundMode) (accs : List Nat) : List Nat :=
  if p.outFmt = 8 then accs.flatMap (toLe 4)
  else (accs.zip rs).flatMap (fun a =>
    toLe (fmtBits p.outFmt / 8) (convertTo p.outFmt true a.2 (p.t.d 0x14 4) (p.accValue a.1)).1)

/-- The bytes of some vectors of `vb` bytes in stair layout at an offset, masked lanes left out (R226, R239). -/
def PassD.stairWrites (p : PassD) (off vb : Nat) (vs : List (List Nat)) : List (Nat × Nat) :=
  let ew := vb / p.dim
  (stairOf 1 (vb / 32) vs).zipIdx.flatMap (fun v =>
    v.1.zipIdx.filterMap (fun b =>
      if bit (p.t.d 0x10 4) (b.2 / ew) then some (off + v.2 * vb + b.2, b.1) else none))

/-- Convert the results of an engine and place them at OUT_ADDR[e]; the state goes on with fresh random values. -/
def PassD.place (p : PassD) (s : State) (e : Nat) (vs : List (List Nat)) : List (Nat × Nat) × State :=
  let rs := roundings s (p.flag 7 && p.outFmt ≠ 8) (vs.length * p.dim)
  let outs := vs.zipIdx.map (fun v => p.outVector ((rs.1.drop (v.2 * p.dim)).take p.dim) v.1)
  (p.stairWrites (p.t.d (0x40 + 4 * e) 4) p.outVec outs, rs.2)

/-- The test of R284 on one output vector: some unmasked lane's y exceeds THRESH. -/
def PassD.exceeds (p : PassD) (accs : List Nat) : Bool :=
  p.cols.any (fun c => f32lt (p.hf 8 4) (scaled (p.accValue (accs.getD c 0)) (p.t.d 0x14 4)))

/-- The bitmap bytes of a predictor (R284): the bits of the named engines from `tests` (engine, by vector), others as they
are. -/
def PassD.predictWrites (p : PassD) (old : List Nat) (tests : List (Nat × List Bool)) : List (Nat × Nat) :=
  let l := p.steps
  (List.range ((p.top * l + 7) / 8)).filterMap (fun b =>
    let hits := (List.range 8).filterMap (fun i =>
      (SMap.find tests ((8 * b + i) / l)).map (fun ts => (i, b2n (ts.getD ((8 * b + i) % l) false))))
    if hits.isEmpty then none
    else some (p.hf 0xC 4 + b, hits.foldl (fun v h => setBits v h.1 1 h.2) (old.getD b 0)))

/-- What a CHECK pass counts (R285): vectors, misses, extras. -/
def PassD.checkCounts (p : PassD) (map_ : List Nat) (tests : List (Nat × List Bool)) : Nat × Nat × Nat :=
  let l := p.steps
  tests.foldl (fun a e => e.2.zipIdx.foldl (fun a t =>
    let i := e.1 * l + t.2
    let set := bit (map_.getD (i / 8) 0) (i % 8)
    (a.1 + 1, a.2.1 + b2n (t.1 && !set), a.2.2 + b2n (!t.1 && set))) a) (0, 0, 0)

end Sys2Proof.Machine
end

