-- ==== Sys2Proof/Machine/Group.lean ====
section
/-!
DEFINITION. The engine group (R227 to R248): the next pass, staging, the energy ledger's admission (R519 to R521), issue, the
held stationary set, chains, and the retirement of a pass.
-/

namespace Sys2Proof.Machine

/-- R378, R531: a class from which the queues of a core take nothing. -/
def classHeld (s : State) (slot c : Nat) : Bool :=
  bit (fget s (.core slot 1) KB1.TE_CTRL_CLASS_HOLD) c || (decide (c ≥ 2) && s.sup.step1.isSome)

/-- Page B3 of a core. -/
def grpPage (slot : Nat) : Page := .core slot 3

/-! ### Ends -/

/-- Note the cycles from `a` to `b` in which a pass was in flight (GRP_BUSY). -/
def noteBusy (s : State) (slot a b : Nat) : State :=
  let g := grpAt s slot
  let lo := max a g.busyTo
  let s := setGrp s slot { g with busyTo := max g.busyTo b }
  fadd64 s (grpPage slot) KB3.GRP_BUSY_LO KB3.GRP_BUSY_HI (b - lo)

/-- R235: abandon the open chain at cycle `t`: its accumulators are lost and its passes retire without writing. -/
def abandonChain (s : State) (slot t : Nat) : State :=
  let g := grpAt s slot
  match g.chain with
  | none => s
  | some c =>
    let mine := g.flight.filter (fun f => c.ids.contains f.id)
    let s := match mine with | f :: _ => noteBusy s slot (f.t - 1) t | [] => s
    let g := grpAt s slot
    let s := setGrp s slot { g with chain := none, flight := g.flight.filter (fun f => !c.ids.contains f.id) }
    let s := mine.foldl (fun s f => tiPhase (uncommit s f.est) slot f.id .retiring) s
    raiseInt (finc s (grpPage slot) KB3.GRP_CHAIN_ABANDON) (grpPage slot) 3

/-- GRP_ABORT, GRP_ABORT_CTX and GRP_FAULTED for a pass that is refused or discarded for good. -/
def abortPass (s : State) (slot : Nat) (t : Ti) (cause : Nat) : State :=
  let p := grpPage slot
  let seq := SMap.getD (grpAt s slot).seqs t.id 0
  let s := fset (fset s p KB3.GRP_ABORT_CAUSE cause) p KB3.GRP_ABORT_PASS_SEQ seq
  raiseInt (finc (fset s p KB3.GRP_ABORT_CTX t.ctx) p KB3.GRP_FAULTED) p 0

/-- A pass that has no place in the group any more. -/
def forgetPass (s : State) (slot id : Nat) : State :=
  let g := grpAt s slot
  setGrp s slot { g with next := if (g.next.map NextPass.id) = some id then none else g.next,
                         again := g.again.filter (· ≠ id), seqs := SMap.del g.seqs id,
                         struck := g.struck.filter (· ≠ id) }

/-- R220: refuse the pass that is the next one. -/
def refusePass (s : State) (slot : Nat) (t : Ti) (cause fault : Nat) : State :=
  let g := grpAt s slot
  let s := match g.next with | some n => if n.admitted then uncommit s n.est else s | none => s
  let last := match g.chain with | some c => c.last | none => 0
  let s := abandonChain (abortPass s slot t cause) slot last
  tiFault (forgetPass s slot t.id) slot t.id fault

/-- R245: a staged line or an index stops the next pass; with it goes its chain, whose passes are discarded. -/
def stopPass (s : State) (slot : Nat) (t : Ti) (cause fault : Nat) : State :=
  let g := grpAt s slot
  let ids := if (g.chain.map Chain.ctx) = some t.ctx then ((g.chain.map Chain.ids).getD []) else []
  let gone := g.flight.filter (fun f => ids.contains f.id)
  let s := gone.foldl (fun s f =>
    let s := uncommit s f.est
    match tiAt s slot f.id with
    | some u =>
      let x := ctxAt s slot u.ctx
      let s := abortPass s slot u cause
      let s := setCore s slot { coreAt s slot with tis := (coreAt s slot).tis.filter (fun v => v.id ≠ u.id) }
      forgetPass (setCtx s slot u.ctx { x with unretired := x.unretired - 1 }) slot u.id
    | none => s) s
  let g := grpAt s slot
  let s := setGrp s slot { g with flight := g.flight.filter (fun f => !ids.contains f.id),
                                  chain := if ids.isEmpty then g.chain else none }
  tiFault (forgetPass (abortPass s slot t cause) slot t.id) slot t.id fault

/-! ### The ledger (R519 to R521) -/

/-- R519: the estimate of a pass in picojoules. -/
def PassD.estimate (p : PassD) (s : State) : Nat :=
  let cycles := if p.w24Dense then 2 * p.steps + 169 else p.l + 64
  let coef := match p.mode with | 0 => PB6.COEF_COEF_4 | 1 => PB6.COEF_COEF_8 | _ => PB6.COEF_COEF_16
  p.engines.length * cycles * eget s (.pkg 6) coef

/-- FRAME_BUDGET − SPENT − COMMIT − RESERVE of a class, in sixteenths of a picojoule. -/
def headroom16 (s : State) (cls : Nat) : Int :=
  let reserve :=
    if cls = 0 then 0
    else eget s (.pkg 6) (if cls = 1 then PB6.RESERVE1 else if cls = 2 then PB6.RESERVE2 else PB6.RESERVE3)
  (eget s (.pkg 6) PB6.FRAME_BUDGET : Int) * 16000000 - (s.led.spent : Int) * 15625 - (s.led.commit : Int) * 16 -
    (reserve : Int) * 16000000

/-- Grant the next pass of a slot its estimate. -/
def grantPass (s : State) (slot : Nat) (n : NextPass) : State :=
  let s := setGrp s slot { grpAt s slot with next := some { n with asked := true, admitted := true } }
  finc { s with led.commit := s.led.commit + n.est } (.pkg 6) PB6.ADMITTED

/-- R521: test the next pass of a slot; a wait counts once. A reissue is granted without the test (R520). -/
def askLedger (s : State) (slot cls : Nat) : State :=
  match (grpAt s slot).next with
  | none => s
  | some n =>
    if n.admitted then s
    else if n.again then
      { setGrp s slot { grpAt s slot with next := some { n with asked := true, admitted := true } } with
        led.commit := s.led.commit + n.est }
    else if !ebit s (.pkg 6) PB6.LED_CTRL_BUDGET_EN then grantPass s slot n
    else if cls = 0 then
      let s := if headroom16 s 0 < 16 * (n.est : Int) then
          raiseInt (finc (fsetb s (.pkg 6) PB6.LED_STATUS_OVERDRAW true) (.pkg 6) PB6.OVERDRAWS) (.pkg 6) 2
        else s
      grantPass s slot n
    else if 16 * (n.est : Int) ≤ headroom16 s cls then grantPass s slot n
    else
      let s := setGrp s slot { grpAt s slot with next := some { n with asked := true } }
      if n.asked then s else finc s (.pkg 6) PB6.ADMIT_WAIT

/-- PASS_LEDGER_ADMIT (R521): the waiting pass of a slot is tested again after a sample or a period end. -/
def execPassLedgerAdmit (slot : Fin 40) (s : State) : Host.Outcome State Fault Refusal :=
  if !s.led.toTest.contains slot.val then .next s
  else
    let s := { s with led.toTest := s.led.toTest.filter (· ≠ slot.val) }
    match (grpAt s slot.val).next with
    | some n =>
      match tiAt s slot.val n.id with
      | some t => done (askLedger s slot.val t.cls)
      | none => .next s
    | none => .next s

/-! ### Taking the next pass (R228, R244) -/

/-- The group takes no new pass: quiesced, or the queues stopped for the supply (R245, R531). -/
def groupStopped (s : State) (slot : Nat) : Bool := quiescing s (grpPage slot) || s.sup.stopped

/-- The engine group and its core are in service and issue is enabled. -/
def groupRuns (s : State) (slot : Nat) : Bool :=
  !outOfService s (.core slot) && !outOfService s (.eng slot) && fbit s (grpPage slot) KB3.GRP_CTRL

/-- The pass that the queue gives next, with its place in the queue (R244): the continuation of an open chain, else the
highest class that is not held, in order of arrival. -/
def pickPass (s : State) (slot : Nat) : Option Ti :=
  let qs := queued s slot .engine
  match (grpAt s slot).chain with
  | some c => (sortBy Ti.order (qs.filter (fun t => t.ctx = c.ctx))).head?
  | none =>
    if groupStopped s slot then none
    else (sortBy (fun t => t.cls * 2 ^ 64 + t.order) (qs.filter (fun t => !classHeld s slot t.cls))).head?

/-- R244: the next pass goes back to its place in the queue. -/
def displaceNext (s : State) (slot : Nat) : State :=
  let g := grpAt s slot
  match g.next with
  | none => s
  | some n =>
    let s := if n.admitted then uncommit s n.est else s
    tiPhase (setGrp s slot { g with next := none }) slot n.id (.queued n.order)

/-- The corrected words of a staged range count once each (R231). -/
def stageCorrected (s : State) (slot off len : Nat) : Nat × State :=
  let lo := spmBase slot + off
  let ms := (eccIn s (lo / 8 * 8) (lo + len)).filter (fun e => e.2 % 4 = 1)
  (ms.length, ms.foldl (fun s e =>
    let o := e.1 - spmBase slot
    raiseInt (reportErr (finc s (grpPage slot) KB3.GRP_ECC_CORR) (grpPage slot) 0x06 (o / 128) (spmGlobal s slot o) (bit e.2 2))
      (grpPage slot) 2) s)

/-- Stage the operands: whether some word was corrected; none when a word is uncorrectable. -/
def stageAll (slot : Nat) : List (Nat × Nat) → Bool × State → Option Bool × State
  | [], z => (some z.1, z.2)
  | r :: rs, z =>
    match spmRead z.2 slot r.1 r.2 false with
    | (.poisoned, _, s) => (none, s)
    | (_, _, s) =>
      let c := stageCorrected s slot r.1 r.2
      stageAll slot rs (z.1 || c.1 ≠ 0, c.2)

/-- R622, R626: whether the thread's domain may make the accesses of a pass; the first refused one. -/
def passDenied (s : State) (slot : Nat) (t : Ti) (p : PassD) : Option (Bool × Nat) :=
  let rq : Requester := ⟨t.domain, true, none⟩
  let rd := p.reads ++ p.spill
  let wr := p.outs ++ p.spill
  match rd.find? (fun r => r.2 ≠ 0 && !spmAllows s slot r.1 r.2 rq true false) with
  | some r => some (false, r.1)
  | none => (wr.find? (fun r => r.2 ≠ 0 && !spmAllows s slot r.1 r.2 rq false true)).map (fun r => (true, r.1))

/-- The index array that a W24 pass will use: its own, or the held one (R280). -/
def PassD.indices (p : PassD) (g : Group) : List Nat :=
  if p.newStat then p.idx else (g.held.map Held.idx).getD []

/-- R279: the index check of a W24 pass in SPARSE form while it is staged; none when the pass goes on. -/
def metaCheck (s : State) (slot : Nat) (p : PassD) : Bool × State :=
  let n := if p.w24 then p.metaRange (p.indices (grpAt s slot)) else 0
  if n = 0 then (false, s)
  else if fbit s (.core slot 10) KB10.SP_CTRL_META_FAULT_EN then (true, s)
  else (false, raiseInt (fadd s (.core slot 10) KB10.META_RANGE n) (.core slot 10) 0)

/-- A pass taken from the queue: checked, staged, and put to the ledger. -/
def stagePass (s : State) (slot : Nat) (t : Ti) (n : NextPass) : State :=
  let p := passOf s slot t
  let s := setGrp (tiPhase s slot t.id .running) slot { grpAt s slot with next := some n }
  match p.check (grpAt s slot) with
  | some r => refusePass s slot t r.1 r.2
  | none =>
    if p.noop then tiPhase (forgetPass s slot t.id) slot t.id .retiring
    else
      match passDenied s slot t p with
      | some d =>
        refusePass (deny s (.core slot 11) ⟨t.domain, true, none⟩ d.1 (spmGlobal s slot d.2)) slot t 10 fAccess
      | none =>
        match stageAll slot p.reads (false, s) with
        | (none, s) => stopPass s slot t 6 fEcc
        | (some c, s) =>
          match metaCheck s slot p with
          | (true, s) => stopPass s slot t 7 fMetaRange
          | (false, s) =>
            askLedger (setGrp s slot { grpAt s slot with
              next := some { n with est := p.estimate s, corrected := c } }) slot t.cls

/-- Take the pass `t` from the queue as the next one. -/
def takePass (s : State) (slot : Nat) (t : Ti) : State :=
  let p := grpPage slot
  let seq := (fget s p KB3.GRP_STATUS_PASS_SEQ + 1) % 65536
  let g := grpAt s slot
  let s := fset (setGrp s slot { g with seqs := SMap.put g.seqs t.id seq }) p KB3.GRP_STATUS_PASS_SEQ seq
  stagePass s slot t ⟨t.id, t.order, 0, false, false, false, false⟩

/-- A pass becomes the next pass of a group: first those to be issued again, else the queue's choice, which displaces a next
pass of a lower class. -/
def nextPass (s : State) (slot : Nat) : State :=
  let g := grpAt s slot
  if !groupRuns s slot then s
  else
    match g.again with
    | id :: _ =>
      if (g.next.map NextPass.again).getD false then s
      else
        match tiAt s slot id with
        | some t => stagePass (displaceNext s slot) slot t ⟨id, 0, 0, false, false, true, false⟩
        | none => forgetPass s slot id
    | [] =>
      match g.next, pickPass s slot with
      | none, some t => takePass s slot t
      | some n, some t =>
        match tiAt s slot n.id with
        | some u => if g.chain.isNone && !n.again && decide (t.cls < u.cls) then takePass (displaceNext s slot) slot t else s
        | none => takePass (forgetPass s slot n.id) slot t
      | _, none => s

/-- PASS_NEXT (R228, R244). -/
def execPassNext (slot : Fin 40) (s : State) : Host.Outcome State Fault Refusal := done (nextPass s slot.val)

/-! ### Issue (R229, R237) -/

/-- Conditions 1 to 4 of R237: the earliest T after the pass before, and T of condition 1 alone. -/
def earliest (prev : Option PrevPass) (p : PassD) : Nat × Nat :=
  match prev with
  | none => (0, 0)
  | some a =>
    let base := a.t + a.l
    let c2 := if p.stat ≠ 1 ∧ (p.newStat || p.w24Dense) then a.t + 32 else 0
    let c3 := if a.stat = 1 ∧ a.drains then base + 32 - p.l else 0
    let c4 := if a.stat ≠ p.stat ∨ a.mode ≠ p.mode ∨ a.fp ≠ p.fp then base + 64 else 0
    (max (max base c2) (max c3 c4), base)

/-- The cycles in which some unmasked cell forms a product (R252) in `l` K-steps from `t`. -/
def PassD.activeCycles (p : PassD) (t l : Nat) : List Nat :=
  let sums := p.rows.flatMap (fun r => p.cols.flatMap (fun c =>
    if p.mode = 2 then [2 * r + 2 * c, 2 * r + 2 * c + 1, 2 * r + 2 * c + 2] else [r + c]))
  (List.range (l + 63)).filterMap (fun i => if sums.any (fun x => x ≤ i && i < x + l) then some (t + i) else none)

/-- Engine results: writes, gated products by engine, tests of a predictor or check, accumulators of a chain. -/
structure PassOut where
  writes : List (Nat × Nat)
  zeros : List (Nat × Nat)
  tests : List (Nat × List Bool)
  accs : List (Nat × List Nat)

/-- The plain tile of a format from its bytes. -/
def tileOf (f n : Nat) (bs : List Nat) : List (List Nat) := chunks (fmtVec f) n bs

/-- The accumulators that an engine starts from (R233). -/
def PassD.startAcc (p : PassD) (s : State) (slot e : Nat) (c : Option Chain) : Nat → Nat → Nat :=
  match p.acc with
  | 1 =>
    let bs := rdBytes s (spmBase slot + p.t.d (0x30 + 4 * e) 4) ((p.l + 31) * p.accVec)
    let vs := p.accs p.l bs
    fun m n => (vs.getD m []).getD n 0
  | 2 =>
    let as := SMap.getD ((c.map Chain.accs).getD []) e []
    fun m n => as.getD (p.dim * m + n) 0
  | _ => fun _ _ => 0

/-- The bytes of an operand part. -/
def partBytes (s : State) (slot : Nat) (ps : List (Nat × Nat)) : List Nat :=
  match ps with
  | r :: _ => rdBytes s (spmBase slot + r.1) r.2
  | [] => []

/-- The sums of one engine: by output vector, the accumulators of the columns, with the gated products; a W24 pass in DENSE
form gives its first sub-pass too. -/
def PassD.engineSums (p : PassD) (s : State) (slot e : Nat) (g : Group) : List (List Nat) × Nat × List (List Nat) :=
  let st := p.startAcc s slot e g.chain
  let x := partBytes s slot (p.xPart e)
  let w := partBytes s slot p.wPart
  let heldW := (g.held.map Held.w).getD []
  let heldX := SMap.getD ((g.held.map Held.xs).getD []) e []
  if p.kind = 1 then
    let ss := chunks 64 (p.l + 30) x
    let ent := (List.range p.l).map (fun j => p.xs (unpairAt ss j))
    if p.w24Dense then
      let tile := (tileOf p.wf 64 w).map p.ws
      let a := p.runHeld p.l st (p.subPairs 0 ent tile)
      let b := p.runHeld p.l (fun m c => (a.1.getD m []).getD c 0) (p.subPairs 1 ent tile)
      (b.1, a.2 + b.2, a.1)
    else
      let tile := (tileOf p.wf 32 (if p.newStat then w else heldW)).map p.ws
      let r := p.runHeld p.l st (p.w24Pairs (p.indices g) ent tile)
      (r.1, r.2, [])
  else if p.stat = 1 then
    let r := p.runOs st ((unstream p.xf p.l x).map p.xs) ((unstream p.wf p.l w).map p.ws)
    (r.1, r.2, [])
  else if p.stat = 0 then
    let tile := (tileOf p.wf p.dim (if p.newStat then w else heldW)).map p.ws
    let r := p.runHeld p.l st (p.densePairs ((unstream p.xf p.l x).map p.xs) tile)
    (r.1, r.2, [])
  else
    let tile := (tileOf p.xf p.dim (if p.newStat then x else heldX)).map p.xs
    let r := p.runHeld p.l st (p.densePairs ((unstream p.wf p.l w).map p.ws) tile)
    (r.1, r.2, [])

/-- What one engine of a pass gives. -/
def PassD.engineRun (p : PassD) (slot : Nat) (g : Group) (z : PassOut × State) (e : Nat) : PassOut × State :=
  let r := p.engineSums z.2 slot e g
  let spill := if p.w24Dense then
      p.stairWrites (p.hf 0x10 4 + e * p.spillZ) 128 (r.2.2.map (fun v => v.flatMap (toLe 4)))
    else []
  let o := z.1
  let o := { o with zeros := o.zeros ++ [(e, r.2.1)], writes := o.writes ++ spill,
                    tests := if p.action = 0 then o.tests else SMap.put o.tests e (r.1.map p.exceeds) }
  if p.stat = 1 ∧ p.chainNext then ({ o with accs := SMap.put o.accs e r.1.flatten }, z.2)
  else if p.action = 1 then (o, z.2)
  else
    let w := p.place z.2 e r.1
    ({ o with writes := o.writes ++ w.1 }, w.2)

/-- What a whole pass gives: its engines' results, a predictor's bitmap, and what it adds on page B10 (by offset). -/
def PassD.run (p : PassD) (s : State) (slot : Nat) (g : Group) : PassOut × List (Nat × Nat) × State :=
  let z := p.engines.foldl (p.engineRun slot g) (⟨[], [], [], []⟩, s)
  let map_ := if p.action = 0 then [] else rdBytes s (spmBase slot + p.hf 0xC 4) p.maskBytes
  let o := if p.action = 1 then { z.1 with writes := z.1.writes ++ p.predictWrites map_ z.1.tests } else z.1
  let k := p.checkCounts map_ o.tests
  let adds := (if p.kind = 1 then [(KB10.W24_PASSES.off, 1)] else []) ++
    (if p.w24Dense then [(KB10.W24_DENSE_PASSES.off, 1)] else []) ++
    (if p.kind = 2 then [(KB10.BLOCKS_SKIPPED.off, p.hf 5 1 - p.blocks)] else []) ++
    (if p.action = 2 then [(KB10.PRED_ROWS.off, k.1), (KB10.PRED_MISS.off, k.2.1), (KB10.PRED_EXTRA.off, k.2.2)] else [])
  (o, adds, z.2)

/-- The held set that a pass leaves for the passes after it, and the number of the one it makes (R238, R281). -/
def PassD.holds (p : PassD) (s : State) (slot : Nat) (g : Group) : Option Held × Option Nat :=
  let last := p.flag 4
  if p.stat = 1 then (g.held, none)
  else if p.w24Dense then (none, some g.sets)
  else if p.newStat then
    let x := if p.stat = 2 then p.engines.map (fun e => (e, partBytes s slot (p.xPart e))) else []
    let w := if p.stat = 0 then partBytes s slot p.wPart else []
    (if last then none
     else some ⟨g.sets, p.stat, if p.stat = 0 then p.wf else p.xf, p.kind, w, if p.kind = 1 then p.idx else [], x⟩,
     some g.sets)
  else (if last then none else g.held, none)

/-- R238: holds of earlier sets end once a later pass with NEW_STAT has issued and every pass before it has retired. -/
def dropKept (s : State) (slot : Nat) : State :=
  let g := grpAt s slot
  let c := coreAt s slot
  let excess := fun (k : Kept) =>
    match (g.flight.zipIdx.find? (fun f => match f.1.makes with | some m => m > k.set | none => false)) with
    | some f => f.2 = 0
    | none => decide (g.sets > k.set + 1)
  setCore s slot { c with kept := c.kept.filter (fun k => !excess k) }

/-- Issue the next pass with its front at cell (0, 0) in cycle `T`. -/
def issuePass (s : State) (slot T : Nat) (t : Ti) (n : NextPass) (p : PassD) : State :=
  let pg := grpPage slot
  let g := grpAt s slot
  let e := earliest g.prev p
  let gap := e.1 - e.2
  let wait := if g.prev.isNone then 0 else T - e.1
  let late := (Config.freeWord s.free).toNat % (wait + 1)
  let s := if n.corrected then fadd (tickFree s) pg KB3.GRP_ECC_DELAY late else s
  let s := fadd (fadd s pg KB3.GRP_GAP gap) pg KB3.GRP_ISSUE_WAIT wait
  let s := if n.again then finc s pg KB3.GRP_REISSUED else s
  -- a W24 pass in DENSE form begins its second sub-pass within 40 cycles of the end of the first (R281)
  let t1 := if p.w24Dense then T + p.l + 65 + (Config.freeWord s.free).toNat % 41 else T
  let s := if p.w24Dense then tickFree s else s
  let r := p.run s slot g
  let s := r.2.2
  let hold := p.holds s slot g
  let cycles := p.activeCycles T p.l ++ (if p.w24Dense then p.activeCycles t1 p.l else [])
  let active := p.engines.map (fun e =>
    (e, (cycles.filter (fun c => !(SMap.getD g.activeTo e []).contains c)).length))
  let uses := match hold.2 with
    | some m => some m
    | none => if p.usesHeld then g.held.map Held.set else none
  let f : Flight := ⟨t.id, t.ctx, SMap.getD g.seqs t.id 0, T, p.l, t1 + p.l + 64, p.stat, p.mode, p.fp, p.stat = 1 && p.chainNext,
    r.1.writes, uses, p.flag 4 && p.stat ≠ 1, hold.2, p.t.d 6 1, n.est, active, r.1.zeros, r.2.1, g.held, g.sets⟩
  let ids := ((g.chain.map Chain.ids).getD []) ++ [t.id]
  let g := { g with
    next := none, flight := g.flight ++ [f], held := hold.1, sets := g.sets + (if hold.2.isSome then 1 else 0),
    chain := if f.chain then some ⟨t.ctx, p.t.d 6 1, ids, r.1.accs, T + p.l - 1⟩ else if p.stat = 1 ∧ p.acc = 2 then none else g.chain,
    again := g.again.filter (· ≠ t.id), prev := some ⟨t1, p.l, p.stat, p.mode, p.fp, !f.chain⟩,
    activeTo := p.engines.foldl (fun m e => SMap.put m e (cycles.filter (· ≥ t1 + p.l))) g.activeTo }
  dropKept (setGrp s slot g) slot

/-- Passes in flight that R245 counts: those of a chain before its last do not. -/
def inFlight (g : Group) : Nat := (g.flight.filter (fun f => !f.chain)).length

/-- A pass's corrected words have all been written back (R231). -/
def writtenBack (s : State) (slot : Nat) (p : PassD) : Bool :=
  p.reads.all (fun r => (eccIn s ((spmBase slot + r.1) / 8 * 8) (spmBase slot + r.1 + r.2)).all (fun e => !bit e.2 3))

/-- PASS_ISSUE (R229, R237, R244, R245): the next pass issues in cycle T − 1, where `cycle` is T. -/
def execPassIssue (slot : Fin 40) (cycle : Nat) (s : State) : Host.Outcome State Fault Refusal :=
  let g := grpAt s slot.val
  match g.next with
  | none => .next s
  | some n =>
    match tiAt s slot.val n.id with
    | none => .next s
    | some t =>
      let p := passOf s slot.val t
      let goesOn := (g.chain.map Chain.ctx) = some t.ctx
      if !groupRuns s slot.val || !n.admitted || decide (inFlight g ≥ 2) || decide (cycle < (earliest g.prev p).1) ||
          (!n.again && !g.again.isEmpty) || (g.chain.isSome && !goesOn) ||
          (!goesOn && (groupStopped s slot.val || stepHolds s (slotDie slot.val))) || (n.corrected && !writtenBack s slot.val p) then
        .next s
      else
        match p.check g with
        | some r => done (refusePass s slot.val t r.1 r.2)
        | none => done (issuePass s slot.val cycle t n p)

/-- CHAIN_ABANDON (R235): in cycle `cycle` the continuation is still not at the head of the queue, more than 4,096 cycles
after the chain's last K-step. -/
def execChainAbandon (slot : Fin 40) (cycle : Nat) (s : State) : Host.Outcome State Fault Refusal :=
  let g := grpAt s slot.val
  match g.chain with
  | none => .next s
  | some c =>
    if cycle ≤ c.last + 4096 || g.next.isSome || (pickPass s slot.val).isSome || outOfService s (.eng slot.val) then .next s
    else done (abandonChain s slot.val cycle)

/-! ### Retirement -/

/-- Write bytes at scattered offsets of a scratchpad, run by run. -/
def writeRuns (s : State) (slot : Nat) (ws : List (Nat × Nat)) : State :=
  let flush := fun (s : State) (off : Nat) (acc : List Nat) => if acc.isEmpty then s else spmWrite s slot off acc.reverse false
  let z := ws.foldl (fun (z : State × Nat × List Nat) w =>
    if w.1 = z.2.1 + z.2.2.length ∧ !z.2.2.isEmpty then (z.1, z.2.1, w.2 :: z.2.2)
    else (flush z.1 z.2.1 z.2.2, w.1, [w.2])) (s, 0, [])
  flush z.1 z.2.1 z.2.2

/-- What the group counts for a pass that retires (R250, R252, R302). -/
def countPass (s : State) (slot : Nat) (f : Flight) : State :=
  let s := f.active.foldl (fun s e => fadd64 s (.core slot (4 + e.1)) KB4.ENG_ACTIVE_LO KB4.ENG_ACTIVE_HI e.2) s
  let s := f.zeros.foldl (fun s e => fadd64 s (.core slot (4 + e.1)) KB4.ENG_ZERO_LO KB4.ENG_ZERO_HI e.2) s
  let s := (bitList 4 f.engines).foldl (fun s e => finc s (.core slot (4 + e)) KB4.ENG_PASSES) s
  f.adds.foldl (fun s a =>
    let s := fadd s (.core slot 10) ⟨a.1, 0, 32⟩ a.2
    if a.1 = KB10.PRED_MISS.off ∧ a.2 ≠ 0 then raiseInt s (.core slot 10) 3 else s) s

/-- The ranges of a set that a retiring pass made stay held (R238). -/
def keepRanges (s : State) (slot : Nat) (f : Flight) : State :=
  match f.makes, tiAt s slot f.id with
  | some m, some t =>
    let p := passOf s slot t
    let ps := if p.w24Dense || f.statLast then [] else if p.stat = 0 then p.wPart else p.engines.flatMap p.xPart
    let c := coreAt s slot
    setCore s slot { c with kept := c.kept ++ ps.flatMap (fun r =>
      (mkRange true false r.1 r.2).map (fun q => ⟨m, t.ctx, { q with held := true }⟩)) }
  | _, _ => s

/-- The end of a pass in the group: its bytes are written, its counts made, holds end. -/
def passEnd (s : State) (slot : Nat) (f : Flight) : State :=
  let s := countPass (writeRuns s slot f.writes) slot f
  let s := noteBusy (keepRanges s slot f) slot (f.t - 1) f.till
  let g := grpAt s slot
  let s := forgetPass (uncommit (setGrp s slot { g with flight := g.flight.filter (fun q => q.id ≠ f.id) }) f.est) slot f.id
  let c := coreAt s slot
  let s := if f.statLast then setCore s slot { c with kept := c.kept.filter (fun k => some k.set ≠ f.uses) } else s
  dropKept s slot

/-- The instructions that retire with pass `id` (R234) and the state after the group's part: the pass in flight that retires
first, with the chain it ends. A pass that another must precede, or that a later one of its chain will take along, does not
retire. -/
def passRetire (s : State) (slot id : Nat) : Option (List Nat × State) :=
  let g := grpAt s slot
  match g.flight.find? (fun f => !f.chain) with
  | none => none
  | some f =>
    if f.id ≠ id || outOfService s (.eng slot) then none
    else
      let own := (g.flight.takeWhile (fun q => q.id ≠ id)).filter (fun q => q.chain && q.ctx = f.ctx) ++ [f]
      some (own.map Flight.id, own.foldl (fun s q => passEnd s slot q) s)

/-- The retirement of a pass that wrote nothing (R221, R235). -/
def countRetired (s : State) (slot n : Nat) : State :=
  fadd64 s (grpPage slot) KB3.GRP_RETIRED_LO KB3.GRP_RETIRED_HI n

/-! ### Datapath parity (R245) -/

/-- A parity error in a cell or on a drain bus of engine `e`: every pass in flight and any open chain is discarded and issued
again; a pass that meets it a second time faults with cause DATAPATH. Whether the core is to be reported. -/
def datapathParity (s : State) (slot e : Nat) : Bool × State :=
  let s := raiseInt (finc s (.core slot (4 + e)) KB4.ENG_PARITY) (.core slot (4 + e)) 0
  let g := grpAt s slot
  match g.flight with
  | [] => (false, s)
  | f :: _ =>
    let again := g.struck.contains f.id
    let ids := g.flight.map Flight.id
    let s := reissueAll s slot false
    let g := grpAt s slot
    let s := setGrp s slot { g with struck := g.struck ++ ids.filter (fun i => !g.struck.contains i) }
    if !again then (false, s)
    else
      match tiAt s slot f.id with
      | some t => (true, tiFault (forgetPass (abortPass s slot t 5) slot t.id) slot t.id fPassAbort)
      | none => (true, s)

end Sys2Proof.Machine
end

