-- ==== Sys2Proof/Machine/Errors.lean ====
section
/-!
DEFINITION. Detector events (R586 to R591, R601, R610, R611), the records of corrected events (R599) and the event history
(R598).
-/

namespace Sys2Proof.Machine

/-! ### Consequences of single detectors (R587) -/

/-- A parity error in an engine's datapath (R245): passes are issued again; at a second detection the core is reported by
ENG_DATAPATH and, unless injected, fenced. -/
def onEngParity (s : State) (slot e info addr : Nat) (inj : Bool) : State :=
  let s := reportErr s (.core slot (4 + e)) 0x07 info addr inj
  let r := datapathParity { s with err.inj := inj } slot e
  if !r.1 then { r.2 with err.inj := false }
  else
    let s := reportErr r.2 (.core slot 3) 0x08 info addr inj
    if inj then s else askFence s slot

/-- ICACHE_PARITY: the line is dropped and fetched again. -/
def onIcache (s : State) (slot info addr : Nat) (inj : Bool) : State :=
  let p := Page.core slot 12
  let c := coreAt s slot
  let s := setCore s slot { c with icache := c.icache.filter (fun e => e.1 / 128 ≠ addr / 128) }
  reportErr (raiseInt (finc s p KB12.ICACHE_PARITY) p 0) p 0x09 info addr inj

/-- CTX_PARITY: the context faults at the instruction that read the register; two since the last L0 ask for a fence. -/
def onCtxParity (s : State) (slot info addr : Nat) (inj : Bool) : State :=
  let p := Page.core slot 12
  let c := info % 2048
  let s := reportErr (raiseInt (finc s p KB12.CTX_PARITY) p 1) p 0x0A c addr inj
  let n := SMap.getD s.err.ctxParity slot 0 + 1
  let s := if inj then s
    else
      let s := { s with err.ctxParity := SMap.put s.err.ctxParity slot n,
                        err.badCtx := s.err.badCtx.filter (· ≠ ctxKey slot c) ++ [ctxKey slot c] }
      if n = 2 then askFence s slot else s
  faultHere s slot c fEcc

/-- SB_PARITY: a persistent event of the core. -/
def onSbParity (s : State) (slot info addr : Nat) (inj : Bool) : State :=
  let p := Page.core slot 12
  let s := reportErr (raiseInt (finc s p KB12.SB_PARITY) p 2) p 0x0B info addr inj
  if inj then s else askFence s slot

/-- RC_PARITY: the row cache lines of the address are dropped. -/
def onRcParity (s : State) (d c info addr : Nat) (inj : Bool) : State :=
  let p := Page.cl d c 3
  let e := embAt s (d * 4 + c)
  let s := setEmb s (d * 4 + c) { e with cache := e.cache.filter (fun l => l.2.addr / 64 ≠ addr / 64) }
  reportErr (finc s p CB3.RC_PARITY) p 0x12 info addr inj

/-- UPD_ECC: the update buffer line of the address is discarded and counts in the next flush of its table. -/
def onUpdEcc (s : State) (d c info addr : Nat) (inj : Bool) : State :=
  let p := Page.cl d c 3
  let e := embAt s (d * 4 + c)
  let gone := e.upd.filter (fun l => l.addr / 64 = addr / 64)
  let lost := gone.foldl (fun m l => SMap.put m l.table (SMap.getD m l.table 0 + 1)) e.lost
  let s := setEmb s (d * 4 + c) { e with upd := e.upd.filter (fun l => l.addr / 64 ≠ addr / 64), lost := lost }
  reportErr (raiseInt (finc s p CB3.UPD_ECC) p 1) p 0x13 info addr inj

/-- R588: a Hall stops placing points of a frame; its deferred points that are not yet merged are discarded. -/
def stopFrame (s : State) (d f : Nat) : State :=
  match slotFor s d f with
  | none => s
  | some x =>
    let h := hallAt s d
    let n := ((h.alcove ++ h.ovf).filter (fun e => e.1 = f)).length
    let s := setHall s d { h with alcove := h.alcove.filter (fun e => e.1 ≠ f), ovf := h.ovf.filter (fun e => e.1 ≠ f) }
    let s := flagSlot (setSlot s d { x with stopped := true }) d f 7
    if n = 0 then s else raiseInt (fadd s (.die d 1) DB1.HALL_DOWN n) (.die d 1) 3

/-- INDEX_UNCORR (R588): INFO names the parity of the entry's frame in bit 0; the frame of that parity that has not landed is
the owner. -/
def onIndexUncorr (s : State) (d info addr : Nat) (inj : Bool) : State :=
  let s := reportErr s (.die d 2) 0x2A info addr inj
  let s := ((hallAt s d).slots.filter (fun e => e.2.frame % 2 = info % 2 && !e.2.landed)).foldl
    (fun s e => stopFrame s d e.2.frame) s
  { s with err.inj := false }

/-- CC_MEM_UNCORR: control core `info` halts, and its watchdog then expires (R514). -/
def onCcMem (s : State) (d info addr : Nat) (inj : Bool) : State :=
  let p := Page.die d 8
  let n := info % 4
  let s := reportErr (raiseInt (finc s p DB8.CC_MEM_UNCORR) p 0) p 0x2C n addr inj
  let q := Page.die d 9
  let s := fset s q DB9.CC_STATUS_RUNNING (setBits (fget s q DB9.CC_STATUS_RUNNING) n 1 0)
  let s := fset s q DB9.CC_STATUS_HALTED (setBits (fget s q DB9.CC_STATUS_HALTED) n 1 1)
  { s with err.ccHalt := s.err.ccHalt.filter (· ≠ d * 4 + n) ++ [d * 4 + n] }

/-- MIRROR_LOSS: the standby copies fall out of step while d1 is not in reset. -/
def onMirror (s : State) (info addr : Nat) (inj : Bool) : State :=
  if !fbit s (.pkg 0) PB0.PKG_STATUS_MIRROR_OK || inReset s (.die 1) then s
  else reportErr (fsetb s (.pkg 0) PB0.PKG_STATUS_MIRROR_OK false) (.pkg 0) 0x33 info addr inj

/-- HIST_UNCORR: the record reads with KIND 0x00. -/
def onHist (s : State) (info addr : Nat) (inj : Bool) : State :=
  let s := { s with hist.recs := s.hist.recs.map (fun e => if e.1 = info then (e.1, (e.2.1, { e.2.2 with kind := 0 })) else e) }
  reportErr s (.pkg 10) 0x39 info addr inj

/-- A detector that no other command stands for reports an event of its own. -/
def detect (s : State) (p : Page) (det info addr : Nat) (inj : Bool) : State :=
  match p, det with
  | .core n b, 0x07 => onEngParity s n (b - 4) info addr inj
  | .core n _, 0x09 => onIcache s n info addr inj
  | .core n _, 0x0A => onCtxParity s n info addr inj
  | .core n _, 0x0B => onSbParity s n info addr inj
  | .cl d c _, 0x12 => onRcParity s d c info addr inj
  | .cl d c _, 0x13 => onUpdEcc s d c info addr inj
  | .die _ _, 0x26 => reportErr s p 0x26 info addr inj
  | .die _ _, 0x29 => reportErr s p 0x29 info addr inj
  | .die d _, 0x2A => onIndexUncorr s d info addr inj
  | .die d _, 0x2B => reportErr (finc s (.die d 8) DB8.CC_MEM_CORR) p 0x2B info addr inj
  | .die d _, 0x2C => onCcMem s d info addr inj
  | .pkg _, 0x33 => onMirror s info addr inj
  | .pkg _, 0x37 => reportErr (finc s p PB7.AER_CORR) p 0x37 info addr inj
  | .pkg _, 0x38 => reportErr (raiseInt (finc s p PB7.AER_UNCORR) p 3) p 0x38 info addr inj
  | .pkg _, 0x39 => onHist s info addr inj
  | _, _ => s

/-- A bit error comes to stand in the stored word at a global address of this package (R448, R463): the 8-byte word of a
scratchpad or the 32-byte burst of DRAM. A second error in a word that has one makes it uncorrectable. -/
def storeError (s : State) (g : Nat) (bad : Bool) : State :=
  match locate s g 1 with
  | .dram d off =>
    let a := dramBase d + off / 32 * 32
    eccMark s a (if bad || SMap.getD s.ecc a 0 % 4 ≠ 0 then 2 else 1)
  | .spm k off =>
    let a := spmBase k + off / 8 * 8
    eccMark s a (if bad || SMap.getD s.ecc a 0 % 4 ≠ 0 then 2 else 1)
  | _ => s

/-- DETECTOR_EVENT (R587, R589, R610). Armed CORRUPT injection of the detector makes the event an injected one. -/
def execDetectorEvent (u : Upset) (s : State) : Host.Outcome State Fault Refusal :=
  match u with
  | .stored a bad => .next (storeError s a.toNat bad)
  | .report p det info a =>
    if !(pageDetectors p).contains det || pageStubbed s p then .next s
    else
      let r := takeCorrupt s p det
      done (detect r.2 p det info a.toNat r.1)

/-- ERROR_RECORD_SECOND (R599): one record for each detector that reported corrected events in the second just ended. -/
def execErrorRecordSecond (s : State) : Host.Outcome State Fault Refusal :=
  let sec := devSec s.tb.dev
  if sec = s.err.second then .next s
  else
    let s' := (sortBy (fun r => r.page + r.det * 2 ^ 24) s.err.rises).foldl (fun s r =>
      let rec0 := mkRecord s 0x01 (b2n r.injected) (r.page + r.det * 2 ^ 24) r.info r.addr r.rise
      pushRecord s { rec0 with ns := 0, sec := sec }) s
    done { s' with err.rises := [], err.second := sec }

/-- Write one record into the history (R596, R598). -/
def putRecord (s : State) (r : Record) : State :=
  let p := Page.pkg 10
  let i := fget s p PB10.HIST_WR
  let q := fget s p PB10.HIST_SEQ
  let s := { s with hist.recs := SMap.put s.hist.recs i (q, r) }
  raiseInt (fset (fset s p PB10.HIST_WR (i + 1)) p PB10.HIST_SEQ (q + 1)) p 0

/-- HISTORY_RECORD_WRITE (R598): after drops a LOST record, else the oldest of the queue. -/
def execHistoryRecordWrite (s : State) : Host.Outcome State Fault Refusal :=
  if s.hist.dropped ≠ 0 then
    let r := mkRecord s 0x0B 0 (pageBase (.pkg 10)) s.hist.dropped 0 0
    done (raiseInt (putRecord { s with hist.dropped := 0 } r) (.pkg 10) 1)
  else
    match s.hist.queue with
    | [] => .next s
    | r :: rest => done (putRecord { s with hist.queue := rest } r)

end Sys2Proof.Machine
end

