-- ==== Sys2Proof/Machine/Issue.lean ====
section
/-!
DEFINITION. Instruction words, fetch and issue (R376, R410 to R414): the scalar formats, undefined encodings, the
instruction cache, and which thread of a core issues.
-/

namespace Sys2Proof.Machine

/-! ### Formats (R414) -/

/-- Format A. -/
def fmtA (op fn dst src1 src2 : Nat) : Nat := src2 * 2 ^ 27 + src1 * 2 ^ 22 + dst * 2 ^ 17 + fn * 2 ^ 8 + op

/-- Format I. -/
def fmtI (op imm src1 dst : Nat) : Nat := imm * 2 ^ 18 + src1 * 2 ^ 13 + dst * 2 ^ 8 + op

/-- Format S. -/
def fmtS (op imm src1 src2 : Nat) : Nat := imm * 2 ^ 18 + src1 * 2 ^ 13 + src2 * 2 ^ 8 + op

/-- Format U. -/
def fmtU (op imm dst : Nat) : Nat := imm * 2 ^ 13 + dst * 2 ^ 8 + op

/-- FN, SRC1, SRC2 and DST of a word of format A. -/
def wFn (w : Nat) : Nat := bits w 8 9
/-- SRC1 in format A. -/
def wSrc1 (w : Nat) : Nat := bits w 22 5
/-- SRC2 in format A. -/
def wSrc2 (w : Nat) : Nat := bits w 27 5
/-- DST in format A. -/
def wDst (w : Nat) : Nat := bits w 17 5

/-- A tensor instruction's first word (R410). -/
def isTensor (w : Nat) : Bool := decide (0xC0 ≤ w % 256) && decide (w % 256 ≤ 0xDF)

/-- R412: a scalar word that is no undefined encoding. -/
def scalarDefined (w : Nat) : Bool :=
  let op := w % 256
  let fn := wFn w
  let k := fn % 8
  if op = 0x01 then decide (fn ≤ 0x0D) || (decide (0x10 ≤ fn) && decide (fn ≤ 0x16))
  else if op = 0x02 then decide (fn ≤ 9) && (decide (fn < 8) || wSrc2 w = 0)
  else if op = 0x2C then !bit fn 6 && wDst w = 0
  else if op = 0x30 then decide (fn % 16 ≤ 6) && fn / 128 = 0 && !(fn % 16 = 6 && bit fn 4)
  else if op = 0x40 then decide (fn ≤ 5) && wDst w = 0 && (fn = 5 || (wSrc1 w = 0 && wSrc2 w = 0))
  else if op = 0x41 then decide (fn ≤ 28)
  else if op = 0x42 then decide (fn ≤ 7) && wSrc1 w = 0 && wSrc2 w = 0
  else if op = 0x48 then k = 3 || (decide (k ≤ 2) && fn / 8 = 0) || (k = 4 && !bit fn 8)
  else if op = 0x49 then decide (fn < 32) && wDst w = 0 && wSrc2 w = 0
  else if 0x16 ≤ op ∧ op ≤ 0x18 then bits w 24 8 = 0
  else
    (decide (0x10 ≤ op) && decide (op ≤ 0x15)) || (decide (0x1C ≤ op) && decide (op ≤ 0x26)) ||
      (decide (0x28 ≤ op) && decide (op ≤ 0x2B)) || (decide (0x38 ≤ op) && decide (op ≤ 0x3E))

/-- R412, R429: the words of a tensor instruction whose fields that no command spells are zero. The others (NOTIFY[6], word
3) are checked at entry (R431). -/
def tensorDefined (ws : List Nat) : Bool :=
  let w := ws.getD 0 0
  decide (w % 256 ≤ 0xCE) && bits w 13 19 = 0 && (decide (ws.length < 3) || ws.getD 2 0 / 256 = 0)

/-- The registers that a word reads. -/
def regsRead (w : Nat) : List Nat :=
  let op := w % 256
  let iSrc := bits w 13 5
  if op = 0x30 then wSrc1 w :: wSrc2 w :: (if wFn w % 16 = 5 then [wDst w] else [])
  else if op = 0x41 then wSrc1 w :: wSrc2 w :: (List.range 4).map (fun i => wFn w % 32 + i)
  else if op = 0x01 ∨ op = 0x02 ∨ op = 0x2C ∨ op = 0x40 ∨ op = 0x48 ∨ op = 0x49 then [wSrc1 w, wSrc2 w]
  else if (0x10 ≤ op ∧ op ≤ 0x18) ∨ (0x20 ≤ op ∧ op ≤ 0x26) ∨ op = 0x3E then [iSrc]
  else if (0x28 ≤ op ∧ op ≤ 0x2B) ∨ (0x38 ≤ op ∧ op ≤ 0x3D) then [iSrc, bits w 8 5]
  else if isTensor w then [bits w 8 5]
  else []

/-- The word makes an access, or is ordered as one (R392). -/
def isAccess (w : Nat) : Bool :=
  let op := w % 256
  (decide (0x1F ≤ op) && decide (op ≤ 0x30)) || isTensor w || op = 0x48 || op = 0x49 || (op = 0x40 && wFn w = 5)

/-! ### Which thread issues (R376, R384, R417) -/

/-- A READY context that has its instruction and whose operands are there. An atomic with ACQ, not yet performed, holds the
thread's later accesses (R392). -/
def Ctx.issuable (x : Ctx) : Bool :=
  match x.ir with
  | [] => false
  | w :: _ =>
    x.st = .ready && !x.loads.any (fun l => l.dst ≠ 0 && (regsRead w).contains l.dst) &&
      !(isAccess w && x.loads.any (fun l => l.acq && l.value.isNone))

/-- The class a context issues in (R377). -/
def Ctx.issueClass (x : Ctx) : Nat := if x.promoted then 0 else x.cls

/-- The context that a core issues next: the lowest class present, and in it the context next after the last issued. -/
def issueTurn (s : State) (slot : Nat) : Option Nat :=
  let ready := (s.ctx.filter (fun e => e.1 / 2048 = slot && e.2.issuable)).map (fun e => (e.1 % 2048, e.2.issueClass))
  let k := ready.foldl (fun m e => min m e.2) 4
  let last := SMap.getD (coreAt s slot).lastIssued k 2047
  let turn := fun (c : Nat) => (c + 2047 - last) % 2048
  ((ready.filter (fun e => e.2 = k)).foldl (fun (m : Option Nat) e =>
    match m with
    | none => some e.1
    | some c => if turn e.1 < turn c then some e.1 else some c) none)

/-- A core's thread engine issues (R406, R447, R531, R677). -/
def coreIssues (s : State) (slot : Nat) : Bool :=
  fbit s (.core slot 1) KB1.TE_CTRL_EN && !outOfService s (.core slot) && !fbit s (.core slot 8) KB8.SPM_STATUS_CLEARING &&
    !quiescing s (.core slot 1) && !s.sup.stopped

/-- The thread issues the instruction `ws` in this cycle. -/
def mayIssue (s : State) (t : ThreadRef) (ws : List Nat) : Bool :=
  coreIssues s t.slot.val && (cref s t).ir = ws && issueTurn s t.slot.val = some t.ctx.val

/-- The context takes its class's turn and uses its instruction up. -/
def takeTurn (s : State) (t : ThreadRef) : State :=
  let x := cref s t
  let k := coreAt s t.slot.val
  let s := setCore s t.slot.val { k with lastIssued := SMap.put k.lastIssued x.issueClass t.ctx.val }
  setRef s t { x with ir := [], promoted := false, since := s.now }

/-- An instruction issued on a core counts in TE_ISSUED. -/
def countIssue (s : State) (slot : Nat) : State := fadd64 s (.core slot 1) KB1.TE_ISSUED_LO KB1.TE_ISSUED_HI 1

/-- What every scalar issue does. -/
def issued (s : State) (t : ThreadRef) : State := takeTurn (countIssue s t.slot.val) t

/-- The context goes on after a scalar instruction (R410). -/
def Ctx.step (x : Ctx) : Ctx := { x with pc := (x.pc + 4) % 2 ^ 64 }

/-- A scalar instruction whose one effect is on its context. -/
def issueCtx (s : State) (t : ThreadRef) (w : Nat) (f : Ctx → Ctx) : Host.Outcome State Fault Refusal :=
  if mayIssue s t [w] then
    let s := issued s t
    .next (setRef s t (f (cref s t)))
  else .next s

/-- The thread as the requester of R622. -/
def Ctx.rq (x : Ctx) : Requester := ⟨x.domain, false, none⟩

/-! ### Fetch (R385, R411) -/

/-- Lines of the instruction cache: 64 KiB. -/
def icacheLines : Nat := 512

/-- The 128-byte line at a global address, through the cache; the fault of a line that cannot be fetched. The access tables
are checked for a cached line as well. -/
def fetchLine (s : State) (slot : Nat) (rq : Requester) (g : Nat) : Except (Nat × State) (List Nat × State) :=
  if g / 2 ^ 48 ≠ ownNode s ∨ 1 < bits g 44 4 then .error (fAccess, s)
  else
    let r := coreRead s rq (some slot) g 128
    let c := coreAt s slot
    match SMap.find c.icache g, r.1 with
    | some bs, .ok => .ok (bs, s)
    | some bs, .poisoned => .ok (bs, s)
    | none, .ok =>
      let lines := c.icache.drop (c.icache.length + 1 - icacheLines) ++ [(g, r.2.1)]
      .ok (r.2.1, setCore r.2.2 slot { c with icache := lines })
    | _, e => .error (e.fault, r.2.2)

/-- `n` words from a global address. -/
def fetchWords (s : State) (slot : Nat) (rq : Requester) (g : Nat) : Nat → Except (Nat × State) (List Nat × State)
  | 0 => .ok ([], s)
  | n + 1 =>
    match fetchLine s slot rq (g / 128 * 128) with
    | .error e => .error e
    | .ok (bs, s) =>
      match fetchWords s slot rq (g + 4) n with
      | .error e => .error e
      | .ok (ws, s) => .ok (leNat ((bs.drop (g % 128)).take 4) :: ws, s)

/-- INSTRUCTION_FETCH (R411, R412): the READY thread's next instruction is fetched; an undefined encoding faults. -/
def execInstructionFetch (t : ThreadRef) (s : State) : Host.Outcome State Fault Refusal :=
  let x := cref s t
  let slot := t.slot.val
  if !coreIssues s slot || x.st ≠ .ready || !x.ir.isEmpty then .next s
  else
    match fetchWords s slot x.rq x.pc 1 with
    | .error e => done (faultHere e.2 slot t.ctx.val e.1)
    | .ok (ws, s) =>
      let w := ws.getD 0 0
      let take := fun (s : State) (ws : List Nat) => done (setRef s t { cref s t with ir := ws })
      if !isTensor w then
        if scalarDefined w then take s [w] else done (faultHere s slot t.ctx.val fAccess)
      else if !tensorDefined [w] then done (faultHere s slot t.ctx.val fAccess)
      else
        match fetchWords s slot x.rq x.pc 4 with
        | .error e => done (faultHere e.2 slot t.ctx.val e.1)
        | .ok (ws, s) => if tensorDefined ws then take s ws else done (faultHere s slot t.ctx.val fAccess)

/-! ### Starvation (R377) -/

/-- ACLK cycles of a slot's die in `ns` nanoseconds, times 16,000 (R524). -/
def aclkIn (s : State) (d ns : Nat) : Nat :=
  ns * fget s (.die d 10) (DB10.VF_POINT_MHZ (fget s (.die d 10) DB10.ACLK_STATE_POINT)) *
    (16 - fget s (.pkg 6) PB6.LED_STATUS_STRETCH)

/-- STARVATION_PROMOTE: a READY context that has not issued for 4,096 ACLK cycles. -/
def execStarvationPromote (t : ThreadRef) (s : State) : Host.Outcome State Fault Refusal :=
  let x := cref s t
  if x.st = .ready ∧ !x.promoted ∧ 4096 * 16000 ≤ aclkIn s (slotDie t.slot.val) (s.now - x.since) then
    done (raiseInt (setRef s t { x with promoted := true }) (.core t.slot.val 1) 2)
  else .next s

end Sys2Proof.Machine
end

