-- ==== Sys2Proof/Machine/LoadStore.lean ====
section
/-!
DEFINITION. Scalar loads, stores and atomics (R382 to R392, R403, R404, R419 to R422): issue, the scoreboard's holds, and how
each is performed.
-/

namespace Sys2Proof.Machine

/-! ### Accesses -/

/-- The address of an access. -/
def Access.at_ : Access → Nat
  | .load _ _ _ a => a
  | .store _ a _ _ => a
  | .amo _ _ _ a _ _ _ => a

/-- The bytes of an access. -/
def Access.len : Access → Nat
  | .load _ n _ _ => n
  | .store n _ _ _ => n
  | .amo _ _ n _ _ _ _ => n

/-- REGION of a global address (R36). -/
def regionOf (g : Nat) : Nat := bits g 44 4

/-- R382, R383, R391, R421: the fault of an access that its address alone refuses. -/
def accessFault (a : Access) : Option Nat :=
  let g := a.at_
  if g % a.len ≠ 0 then some fAlign
  else if g ≥ 2 ^ 58 then some fAccess
  else
    match a with
    | .load _ n _ _ => if regionOf g = 3 ∧ n ≠ 4 then some fAlign else none
    | .store n _ _ none => if regionOf g = 3 ∧ n ≠ 4 then some fAlign else none
    | .store _ _ _ (some _) => if regionOf g ≠ 1 ∨ g % 2 ^ 44 ≥ 2 ^ 28 then some fAccess else none
    | .amo _ _ _ _ _ _ _ => if regionOf g > 1 then some fAccess else none

/-- R403: whether an access to the core's own scratchpad waits for its scoreboard. -/
def accessHeld (s : State) (slot : Nat) (a : Access) : Bool :=
  match spmPlace s a.at_ a.len with
  | some (k, off) =>
    k = slot && (match a with | .load _ _ _ _ => lineWritten s slot off a.len | _ => lineEntered s slot off a.len)
  | none => false

/-- Two pieces of memory share a byte. -/
def overlaps (a n b m : Nat) : Bool := decide (a < b + m) && decide (b < a + n)

/-- R387: an outstanding access of the thread to another node shares bytes with this one. -/
def farOverlap (s : State) (slot c g n : Nat) : Bool :=
  s.gal.tags.any (fun e =>
    (match e.2.owner with | .load k i => k = slot && i = c | .store k i _ => k = slot && i = c | _ => false) &&
      overlaps (if regionOf e.2.addr = 1 then uncounted e.2.addr else e.2.addr) e.2.len g n)

/-- R387: a store of the thread held at another core's scratchpad shares bytes with an access. -/
def heldOverlap (s : State) (slot c g n : Nat) : Bool :=
  match spmPlace s g n with
  | some (k, off) =>
    (coreAt s k).inbound.any (fun w =>
      (w.thread.map (fun p => decide (p.1 = ctxKey slot c))).getD false && overlaps w.off w.data.length off n)
  | none => false

/-! ### Performing loads (R384, R387) -/

/-- What reading the value of load `l` of a context gives: the value, that it must wait for an older store of the thread, or a fault. -/
def loadValue (s : State) (slot c : Nat) (l : Load) : AccRes × Nat × State :=
  match l.value with
  | some v => (.ok, v, s)
  | none =>
    if l.tag.isSome || heldOverlap s slot c l.addr l.size then (.wait, 0, s)
    else
      let r := busRead s (ctxAt s slot c).rq (some slot) l.addr l.size
      (r.1, leNat r.2.1, r.2.2)

/-- Change the loads of a context. -/
def setLoads (s : State) (slot c : Nat) (ls : List Load) : State :=
  setCtx s slot c { ctxAt s slot c with loads := ls }

/-- A load ends in a fault at its own PC. -/
def loadFault (s : State) (slot c i code : Nat) (l : Load) : State :=
  faultCtx (setLoads s slot c ((ctxAt s slot c).loads.eraseIdx i)) slot c code l.pc l.pc

/-- Older loads of a context that share bytes with a later access are performed before it, from place `i` on; whether they
all could be. -/
def captureLoads (s : State) (slot c g n : Nat) : Nat → Nat → Bool × State
  | _, 0 => (true, s)
  | i, fuel + 1 =>
    match (ctxAt s slot c).loads[i]? with
    | none => (true, s)
    | some l =>
      if l.value.isSome || l.tag.isSome || !overlaps l.addr l.size g n then captureLoads s slot c g n (i + 1) fuel
      else
        match loadValue s slot c l with
        | (.ok, v, s') =>
          captureLoads (setLoads s' slot c (setAt (ctxAt s' slot c).loads i { l with value := some v })) slot c g n (i + 1) fuel
        | (.wait, _, _) => (false, s)
        | (e, _, s') => (false, loadFault s' slot c i e.fault l)

/-- The value that a load delivers: sign-extended where it says so. -/
def Load.extend (l : Load) (v : Nat) : Reg64 :=
  if l.signed then BitVec.ofInt 64 (sext (8 * l.size) v) else BitVec.ofNat 64 v

/-- Load `i` of a context delivers its value (R384); one more may issue. -/
def deliverLoad (s : State) (slot c i : Nat) (l : Load) (v : Nat) : State :=
  let x := ctxAt s slot c
  let x : Ctx := { x.rset l.dst (l.extend v) with loads := x.loads.eraseIdx i }
  setCtx s slot c (if x.hold = .loads then { x with st := .ready, hold := .none, since := s.now } else x)

/-- LOAD_COMPLETE (R384): load or atomic `i` of those outstanding is performed where it was not yet, and delivers its
value. -/
def execLoadComplete (t : ThreadRef) (i : Nat) (s : State) : Host.Outcome State Fault Refusal :=
  let slot := t.slot.val
  let c := t.ctx.val
  match (cref s t).loads[i]? with
  | none => .next s
  | some l =>
    if outOfService s (.core slot) then .next s
    else
      match loadValue s slot c l with
      | (.ok, v, s') => done (deliverLoad s' slot c i l v)
      | (.wait, _, _) => .next s
      | (e, _, s') => done (loadFault s' slot c i e.fault l)

/-! ### Performing an access -/

/-- The number of an operation (R422). -/
def AmoOp.num : AmoOp → Nat
  | .add => 0 | .min => 1 | .max => 2 | .minu => 3 | .maxu => 4 | .cas => 5 | .fadd => 6

/-- The thread goes on after its access. -/
def accessDone (s : State) (slot c : Nat) (f : Ctx → Ctx) : State :=
  let x := f (ctxAt s slot c)
  setCtx s slot c { x.step with st := .ready, hold := .none, since := s.now }

/-- The access cannot be made yet: the thread is BLOCKED with it. -/
def accessBlocked (s : State) (slot c : Nat) (a : Access) : State :=
  setCtx s slot c { ctxAt s slot c with st := .blocked, hold := .access a }

/-- A load or atomic joins those outstanding; earlier ones no longer write its register. -/
def Ctx.addLoad (x : Ctx) (l : Load) : Ctx :=
  { x with loads := x.loads.map (fun m => if m.dst = l.dst then { m with dst := 0 } else m) ++ [l] }

/-- Send an access to another node (R493, R629): none while no tag is free. -/
def sendAccess (s : State) (slot c g len : Nat) (rd wr : Bool) (owner : TagFor) (k : Pkt) (f : Nat → Ctx → Ctx) (a : Access) :
    State :=
  let rq := (ctxAt s slot c).rq
  if !nodeAllows s (g / 2 ^ 48 % 1024) rq rd wr then faultHere (deny s (.pkg 9) rq wr g) slot c fAccess
  else
    match freeTag s with
    | none => accessBlocked s slot c a
    | some tag =>
      if galHolds s then accessBlocked s slot c a
      else sendRequest (accessDone s slot c (f tag)) tag owner len k

/-- Make an access that the core's own scoreboard does not hold. A load becomes outstanding once its address is known good;
a store or an atomic is made at once, or is held by another core's scoreboard (R404), or leaves for another node. -/
def performAccess (s : State) (slot c : Nat) (a : Access) : State :=
  let x := ctxAt s slot c
  let g := a.at_
  let own := g / 2 ^ 48 = ownNode s
  if farOverlap s slot c g a.len then accessBlocked s slot c a
  else
    match a with
    | .load dst size signed _ =>
      let l : Load := ⟨dst, size, signed, g, x.pc, none, none, false, false⟩
      if !own then
        sendAccess s slot c g size true false (.load slot c) (galRequest 0 x.domain g 1 (size - 1) [])
          (fun tag x => x.addLoad { l with tag := some tag }) a
      else
        let peek := if regionOf g = 3 then (AccRes.ok, [], s) else coreRead s x.rq (some slot) g size
        match peek.1 with
        | .ok | .poisoned | .wait => accessDone s slot c (fun x => x.addLoad l)
        | e => faultHere peek.2.2 slot c e.fault
    | .store size _ data ctr =>
      let bs := toLe size data
      let cap := captureLoads s slot c g size 0 (x.loads.length + 1)
      let s := cap.2
      if (ctxAt s slot c).st = .faulted then s
      else if !cap.1 then accessBlocked s slot c a
      else
        let more := fun (x : Ctx) => { x with stores := x.stores + 1 }
        match busWrite s x.rq (some slot) g bs with
        | (.ok, s) =>
          let s := accessDone s slot c id
          (match ctr, spmPlace s g size with
           | some n, some (k, _) => ctrAdd s k n 1
           | _, _ => s)
        | (.wait, s) =>
          match spmPlace s g size with
          | some (k, off) =>
            holdWrite (accessDone s slot c more) k ⟨off, bs, ctr, some (ctxKey slot c, x.pc), none, none⟩
          | none => s
        | (.need _ _, s) =>
          let k := match ctr with
            | none => galRequest 0 x.domain g 2 (size - 1) bs
            | some n => galRequest 0 x.domain (g + n * 2 ^ 38) 3 (size - 1) bs
          sendAccess s slot c g size false true (.store slot c x.pc) k (fun _ => more) a
        | (e, s) => faultHere s slot c e.fault
    | .amo op dst size _ opnd cmp acq =>
      let cap := captureLoads s slot c g size 0 (x.loads.length + 1)
      let s := cap.2
      let l : Load := ⟨dst, size, false, g, x.pc, none, none, true, acq⟩
      if (ctxAt s slot c).st = .faulted then s
      else if !cap.1 || heldOverlap s slot c g size then accessBlocked s slot c a
      else
        match coreAmo s x.rq (some slot) op.num size g opnd cmp with
        | (.ok, old, s) => accessDone s slot c (fun x => x.addLoad { l with value := some old })
        | (.wait, _, _) => accessBlocked s slot c a
        | (.need _ _, _, s) =>
          sendAccess s slot c g size true true (.load slot c)
            (galRequest 0 x.domain g 4 (op.num + 16 * b2n (size = 8)) (toLe 8 opnd ++ toLe 8 cmp))
            (fun tag x => x.addLoad { l with tag := some tag }) a
        | (e, _, s) => faultHere s slot c e.fault

/-! ### Issue and release -/

/-- Loads of a thread outstanding; atomics are not counted among the eight (R384). -/
def loadsOut (x : Ctx) : Nat := (x.loads.filter (fun l => !l.amo)).length

/-- Issue an access whose word is `w`. -/
def issueAccess (s : State) (t : ThreadRef) (w : Nat) (a : Access) : Host.Outcome State Fault Refusal :=
  let slot := t.slot.val
  let c := t.ctx.val
  if !mayIssue s t [w] then .next s
  else if (match a with | .load _ _ _ _ => true | _ => false) && decide (8 ≤ loadsOut (cref s t)) then
    .next (setRef s t { cref s t with st := .blocked, hold := .loads })
  else
    let s := issued s t
    match accessFault a with
    | some e => done (faultHere s slot c e)
    | none =>
      if accessHeld s slot a then done (accessBlocked (finc s (.core slot 2) KB2.SB_SCALAR_WAIT) slot c a)
      else done (performAccess s slot c a)

/-- SCALAR_ACCESS_RELEASE (R403): a BLOCKED access proceeds once nothing holds it. -/
def execScalarAccessRelease (t : ThreadRef) (s : State) : Host.Outcome State Fault Refusal :=
  let x := cref s t
  match x.hold with
  | .access a =>
    if outOfService s (.core t.slot.val) || accessHeld s t.slot.val a then .next s
    else done (performAccess s t.slot.val t.ctx.val a)
  | _ => .next s

/-- INBOUND_WRITE_RELEASE (R404): held write `i` of the first 64 is performed once its lines have left every entered range
and no earlier held write shares one; whoever made it is answered. -/
def execInboundWriteRelease (slot : Fin 40) (i : Nat) (s : State) : Host.Outcome State Fault Refusal :=
  let n := slot.val
  let k := coreAt s n
  match k.inbound[i]? with
  | none => .next s
  | some w =>
    let len := w.data.length
    if 64 ≤ i || outOfService s (.core n) || lineEntered s n w.off len ||
        (k.inbound.take i).any (fun v => (⟨v.off / 128, linesOf v.off v.data.length, false, true, false⟩ : Range).meets w.off len)
    then .next s
    else
      let s := setCore s n { k with inbound := k.inbound.eraseIdx i }
      let s := spmWrite s n w.off w.data true
      let s := match w.ctr with | some c => ctrAdd s n c 1 | none => s
      match w.thread, w.unit, w.reply with
      | some (key, pc), _, _ => done (storeAnswered s (key / 2048) (key % 2048) pc 0)
      | none, some (u, id), _ => done (unitAnswered s u id 0)
      | none, none, some (node, tag) =>
        done (sendResponse s { opc := 0x10, vc := 2, turned := none, kind := 0, dst := node, src := ownNode s, dom := 0,
                               tag := tag, status := 0, addr := 0, len := 0, arg := 0, data := [] })
      | none, none, none => done s

/-! ### Loads and stores (R420) -/

/-- SRC1 + IMM as an address. -/
def addrOf (x : Ctx) (src1 : RegNum) (imm : BitVec 14) : Nat := (x.rget src1.val + imm.signExtend 64).toNat

/-- A load of format I. -/
def issueLoad (s : State) (t : ThreadRef) (op size : Nat) (signed : Bool) (dst src1 : RegNum) (imm : BitVec 14) :
    Host.Outcome State Fault Refusal :=
  issueAccess s t (fmtI op imm.toNat src1.val dst.val) (.load dst.val size signed (addrOf (cref s t) src1 imm))

/-- A store of format S. -/
def issueStore (s : State) (t : ThreadRef) (op size : Nat) (src1 src2 : RegNum) (imm : BitVec 14) :
    Host.Outcome State Fault Refusal :=
  issueAccess s t (fmtS op imm.toNat src1.val src2.val)
    (.store size (addrOf (cref s t) src1 imm) ((cref s t).rget src2.val).toNat none)

/-- LD8 (R420). -/
def execLd8 (t : ThreadRef) (dst src1 : RegNum) (imm : BitVec 14) (s : State) : Host.Outcome State Fault Refusal :=
  issueLoad s t 0x20 1 true dst src1 imm

/-- LD8U (R420). -/
def execLd8u (t : ThreadRef) (dst src1 : RegNum) (imm : BitVec 14) (s : State) : Host.Outcome State Fault Refusal :=
  issueLoad s t 0x21 1 false dst src1 imm

/-- LD16 (R420). -/
def execLd16 (t : ThreadRef) (dst src1 : RegNum) (imm : BitVec 14) (s : State) : Host.Outcome State Fault Refusal :=
  issueLoad s t 0x22 2 true dst src1 imm

/-- LD16U (R420). -/
def execLd16u (t : ThreadRef) (dst src1 : RegNum) (imm : BitVec 14) (s : State) : Host.Outcome State Fault Refusal :=
  issueLoad s t 0x23 2 false dst src1 imm

/-- LD32 (R420). -/
def execLd32 (t : ThreadRef) (dst src1 : RegNum) (imm : BitVec 14) (s : State) : Host.Outcome State Fault Refusal :=
  issueLoad s t 0x24 4 true dst src1 imm

/-- LD32U (R420). -/
def execLd32u (t : ThreadRef) (dst src1 : RegNum) (imm : BitVec 14) (s : State) : Host.Outcome State Fault Refusal :=
  issueLoad s t 0x25 4 false dst src1 imm

/-- LD64 (R420). -/
def execLd64 (t : ThreadRef) (dst src1 : RegNum) (imm : BitVec 14) (s : State) : Host.Outcome State Fault Refusal :=
  issueLoad s t 0x26 8 false dst src1 imm

/-- ST8 (R420). -/
def execSt8 (t : ThreadRef) (src1 src2 : RegNum) (imm : BitVec 14) (s : State) : Host.Outcome State Fault Refusal :=
  issueStore s t 0x28 1 src1 src2 imm

/-- ST16 (R420). -/
def execSt16 (t : ThreadRef) (src1 src2 : RegNum) (imm : BitVec 14) (s : State) : Host.Outcome State Fault Refusal :=
  issueStore s t 0x29 2 src1 src2 imm

/-- ST32 (R420). -/
def execSt32 (t : ThreadRef) (src1 src2 : RegNum) (imm : BitVec 14) (s : State) : Host.Outcome State Fault Refusal :=
  issueStore s t 0x2A 4 src1 src2 imm

/-- ST64 (R420). -/
def execSt64 (t : ThreadRef) (src1 src2 : RegNum) (imm : BitVec 14) (s : State) : Host.Outcome State Fault Refusal :=
  issueStore s t 0x2B 8 src1 src2 imm

/-- LDPC (R419). -/
def execLdpc (t : ThreadRef) (dst : RegNum) (imm : BitVec 19) (s : State) : Host.Outcome State Fault Refusal :=
  issueAccess s t (fmtU 0x1F imm.toNat dst.val) (.load dst.val 8 false (wrap 64 (((cref s t).pc : Int) + 4 * imm.toInt)))

/-- STC (R421). -/
def execStc (t : ThreadRef) (src1 src2 : RegNum) (width : Fin 4) (ctr : Fin 64) (s : State) : Host.Outcome State Fault Refusal :=
  issueAccess s t (fmtA 0x2C (width.val * 128 + ctr.val) 0 src1.val src2.val)
    (.store (2 ^ width.val) ((cref s t).rget src1.val).toNat ((cref s t).rget src2.val).toNat (some ctr.val))

/-! ### Atomics (R390 to R392, R422) -/

/-- Every earlier access of the thread is performed and every earlier tensor instruction has retired (R389). -/
def releaseReady (x : Ctx) : Bool := x.loads.all (fun l => l.value.isSome) && x.stores = 0 && x.unretired = 0

/-- The thread waits, its instruction not issued, for earlier loads and atomics, stores, tensor instructions. -/
def waitBefore (s : State) (t : ThreadRef) (ld st ti : Bool) : Host.Outcome State Fault Refusal :=
  .next (setRef s t { cref s t with st := .waiting, hold := .before ld st ti })

/-- An atomic of format A. With REL it is ordered as FENCE REL orders it. An FADD of 64 bits is an undefined encoding, which
no thread comes to issue (R412). -/
def issueAmo (s : State) (t : ThreadRef) (op : AmoOp) (dst src1 src2 : RegNum) (f : AmoFlags) :
    Host.Outcome State Fault Refusal :=
  let x := cref s t
  let fn := op.num + 16 * b2n f.wide + 32 * b2n f.acq + 64 * b2n f.rel
  let w := fmtA 0x30 fn dst.val src1.val src2.val
  let size := if f.wide then 8 else 4
  if mayIssue s t [w] && f.rel && !releaseReady x then waitBefore s t true true true
  else
    issueAccess s t w (.amo op dst.val size (x.rget src1.val).toNat (x.rget src2.val).toNat (x.rget dst.val).toNat f.acq)

/-- AMO_ADD (R390, R422). -/
def execAmoAdd (t : ThreadRef) (dst src1 src2 : RegNum) (f : AmoFlags) (s : State) :
    Host.Outcome State Fault Refusal :=
  issueAmo s t .add dst src1 src2 f

/-- AMO_MIN (R390, R422). -/
def execAmoMin (t : ThreadRef) (dst src1 src2 : RegNum) (f : AmoFlags) (s : State) :
    Host.Outcome State Fault Refusal :=
  issueAmo s t .min dst src1 src2 f

/-- AMO_MAX (R390, R422). -/
def execAmoMax (t : ThreadRef) (dst src1 src2 : RegNum) (f : AmoFlags) (s : State) :
    Host.Outcome State Fault Refusal :=
  issueAmo s t .max dst src1 src2 f

/-- AMO_MINU (R390, R422). -/
def execAmoMinu (t : ThreadRef) (dst src1 src2 : RegNum) (f : AmoFlags) (s : State) :
    Host.Outcome State Fault Refusal :=
  issueAmo s t .minu dst src1 src2 f

/-- AMO_MAXU (R390, R422). -/
def execAmoMaxu (t : ThreadRef) (dst src1 src2 : RegNum) (f : AmoFlags) (s : State) :
    Host.Outcome State Fault Refusal :=
  issueAmo s t .maxu dst src1 src2 f

/-- AMO_CAS (R390, R422). -/
def execAmoCas (t : ThreadRef) (dst src1 src2 : RegNum) (f : AmoFlags) (s : State) :
    Host.Outcome State Fault Refusal :=
  issueAmo s t .cas dst src1 src2 f

/-- AMO_FADD (R390, R422). -/
def execAmoFadd (t : ThreadRef) (dst src1 src2 : RegNum) (f : AmoFlags) (s : State) :
    Host.Outcome State Fault Refusal :=
  issueAmo s t .fadd dst src1 src2 f

end Sys2Proof.Machine
end

