-- ==== Sys2Proof/Machine/Rulebook.lean ====
section
/-!
DEFINITION. The rulebook builder (R176 to R200): grids, kernels, build requests, segments, and what reclaiming a frame does.
-/

namespace Sys2Proof.Machine

/-! ### Kernels (R179) -/

/-- The offsets of a cube of half-width `h`, in their numbering. -/
def cubeOffsets (h : Nat) : List (List Int) :=
  let n := 2 * h + 1
  (List.range (n * n * n)).map (fun i => [((i % n : Nat) : Int) - h, ((i / n % n : Nat) : Int) - h, ((i / (n * n) : Nat) : Int) - h])

/-- The offsets of a cross of half-width `h`. -/
def crossOffsets (h : Nat) : List (List Int) :=
  let steps : List Int := ((List.range (2 * h + 1)).map (fun (i : Nat) => (i : Int) - (h : Int))).filter (· ≠ 0)
  [[0, 0, 0]] ++ steps.map (fun v => [v, 0, 0]) ++ steps.map (fun v => [0, v, 0]) ++ steps.map (fun v => [0, 0, v])

/-- The kernel offsets of a SHAPE. -/
def kernelOffsets (shape : Nat) : List (List Int) :=
  match shape with
  | 0 => cubeOffsets 0
  | 1 => cubeOffsets 1
  | 2 => cubeOffsets 2
  | 3 => crossOffsets 1
  | _ => crossOffsets 2

/-- a + m × b by axis. -/
def keyAdd (a : List Int) (m : Int) (b : List Int) : List Int := (a.zip b).map (fun p => p.1 + m * p.2)

/-- A key inside the int16 range (R180). -/
def keyOk (k : List Int) : Bool := k.all (fun c => decide (-32768 ≤ c) && decide (c ≤ 32767))

/-! ### Grids and references (R176 to R178, R198) -/

/-- A cell reference (R177). -/
def cellRef (d n : Nat) : Nat := d * 2 ^ 31 + n

/-- A frame's slot on a die or, where that die does not hold it, on the other. -/
def frameSlot (s : State) (d f : Nat) : Option Slot := (slotFor s d f).orElse (fun _ => slotFor s (1 - d) f)

/-- Frame f + 2 has opened (R153, R184). -/
def evenOpened (s : State) (f : Nat) : Bool :=
  [0, 1].any (fun d => [2, 3].any (fun j => (slotFor s d ((f + j) % 2 ^ 32)).isSome))

/-- A derived grid of a frame. -/
def gridOf (s : State) (f id : Nat) : Option Grid := s.bld.grids.find? (fun g => g.frame = f && g.id = id)

/-- SCALE of a grid. -/
def gridScale (s : State) (f id : Nat) : Nat := if id = 0 then 0 else ((gridOf s f id).map Grid.scale).getD 0

/-- The area of a derived grid on a die. -/
def gridArea (s : State) (d : Nat) (g : Grid) : Nat := rbArea s d g.frame + g.off.getD d 0

/-- Offsets of the parts of a grid area: keys, tread lists, tread table, index. -/
def gridParts (cap : Nat) : Nat × Nat × Nat × Nat := (64, 64 + 8 * cap, 64 + 12 * cap, 64 + 12 * cap + 4096)

/-- Bytes of a grid area. -/
def gridBytes (cap : Nat) : Nat := (64 + 12 * cap + 4096 + 16 * cap + 4095) / 4096 * 4096

/-- CELLS of a derived grid on a die. -/
def gridCells (s : State) (d : Nat) (g : Grid) : Nat := rdN s (gridArea s d g + 12) 4

/-- Key and tread of a derived grid's cell. -/
def gridKey (s : State) (d : Nat) (g : Grid) (n : Nat) : List Int × Nat :=
  let a := gridArea s d g + 64 + 8 * n
  ([sext 16 (rdN s a 2), sext 16 (rdN s (a + 2) 2), sext 16 (rdN s (a + 4) 2)], rdByte s (a + 6))

/-- The voxel fields of a grid (R176). -/
def gridVoxel (s : State) (x : Slot) (id : Nat) : List Nat := x.voxel.map (· * 2 ^ gridScale s x.frame id)

/-- The tread of a key's cell centre in a grid (R178). -/
def keyTread (s : State) (x : Slot) (id : Nat) (key : List Int) : Nat :=
  treadOf x.b x.code (voxelCentre (gridVoxel s x id) key)

/-- Key and tread of a cell of a grid on a die; none when the die does not hold it. -/
def cellOf (s : State) (d f id n : Nat) : Option (List Int × Nat) :=
  if id = 0 then
    match slotFor s d f with
    | some x => if n < x.cells then let c := readCell s d (f % 4) n; some (c.key, c.tread) else none
    | none => none
  else
    match gridOf s f id with
    | some g => if n < gridCells s d g then some (gridKey s d g n) else none
    | none => none

/-- The cells of a tread of a grid on a die, in ascending number. -/
def cellsOf (s : State) (d f id k : Nat) : List Nat :=
  if id = 0 then
    match slotFor s d f with
    | some x => treadCells s d x k
    | none => []
  else
    match gridOf s f id with
    | some g => (List.range (gridCells s d g)).filter (fun n => (gridKey s d g n).2 = k)
    | none => []

/-- R187: look a key up in a grid on one die. -/
def gridLookup (s : State) (d f id : Nat) (key : List Int) : Option Nat :=
  if id = 0 then (match hallLookup s d f key with | .cell n => some n | _ => none)
  else
    match gridOf s f id with
    | some g => (List.range (gridCells s d g)).find? (fun n => (gridKey s d g n).1 = key)
    | none => none

/-! ### Windows and readiness (R186) -/

/-- Treads of a frame with a TREADS code (R65). -/
def treadCount (code : Nat) : Nat := 16 * 2 ^ code

/-- The window of tread `k`. -/
def windowOf (n reach k : Nat) : List Nat :=
  if 2 * reach + 1 ≥ n then List.range n
  else (List.range (2 * reach + 1)).map (fun j => (k + n + j - reach) % n)

/-- A rulebook of a frame by its number. -/
def rbOf (s : State) (f id : Nat) : Option Rb := s.bld.rbs.find? (fun r => r.frame = f && r.id = id)

/-- Tread `t` of a grid of a frame is complete. -/
def gridComplete (s : State) (f id t : Nat) : Bool :=
  if id = 0 then treadClosed s f t
  else
    match gridOf s f id with
    | some g => ((rbOf s f g.rb).map (fun r => r.built.contains t)).getD false
    | none => false

/-- The STRIDED source of a TRANSPOSED rulebook (R180). -/
def sourceOf (s : State) (f shape stride dil reach inGrid outGrid : Nat) : Option Rb :=
  s.bld.rbs.find? (fun r => r.frame = f && r.kind = 2 && r.shape = shape && r.stride = stride && r.dil = dil &&
    r.reach = reach && r.inGrid = outGrid && r.outGrid = inGrid)

/-- The source of a rulebook. -/
def Rb.source (s : State) (r : Rb) : Option Rb := sourceOf s r.frame r.shape r.stride r.dil r.reach r.inGrid r.outGrid

/-- Input tread `t` of a rulebook is complete (R186). -/
def inputComplete (s : State) (r : Rb) (t : Nat) : Bool :=
  if r.kind = 3 then ((r.source s).map (fun q => q.built.contains t)).getD false
  else gridComplete s r.frame r.inGrid t

/-- Segment `k` has all its window complete. -/
def segReady (s : State) (r : Rb) (k : Nat) : Bool :=
  (windowOf (treadCount r.code) r.reach k).all (inputComplete s r)

/-- Replace a rulebook. -/
def putRb (s : State) (r : Rb) : State :=
  { s with bld.rbs := s.bld.rbs.map (fun q => if q.frame = r.frame ∧ q.id = r.id then r else q) }

/-- Queue one segment that has become ready on its home die. -/
def queueSeg (s : State) (e : Nat × Rb) : State :=
  match rbOf s e.2.frame e.2.id with
  | none => s
  | some r =>
    let d := homeDie r.code e.1
    let s := putRb s { r with order := r.order ++ [e.1] }
    if r.gone.contains d then s
    else { s with bld.ready := SMap.put s.bld.ready d (SMap.getD s.bld.ready d [] ++ [(r.frame, (r.id, e.1))]) }

/-- R191: segments that have become ready join their die's queue, in ascending segment number and then RB_ID. -/
def readySweep (s : State) : State :=
  let es := s.bld.rbs.flatMap (fun r =>
    ((List.range (treadCount r.code)).filter (fun k => !r.order.contains k && segReady s r k)).map (fun k => (k, r)))
  (sortBy (fun e => e.1 * 32 + e.2.id) es).foldl queueSeg s

/-! ### Notification (R185, R191) -/

/-- Increment a counter of a logical core; one that is not in service counts nothing (R396). -/
def notifyCore (s : State) (t : Nat × Nat) (n : Nat) : State :=
  match coreInService s t.1 with
  | some slot => ctrAdd s slot t.2 n
  | none => s

/-- How many segments of the order, from `told` on, are built without a gap. -/
def builtRun (r : Rb) : Nat := ((r.order.drop r.told).takeWhile (fun k => r.built.contains k)).length

/-- Notify every segment of which all earlier ones are notified. -/
def notifyBuilt (s : State) (f id : Nat) : State :=
  match rbOf s f id with
  | none => s
  | some r =>
    let n := builtRun r
    let s := putRb s { r with told := r.told + n }
    if n = 0 then s else r.targets.foldl (fun s t => notifyCore s t n) s

/-! ### Segments (R187 to R197) -/

/-- What building a segment finds: pairs (offset, output reference, input reference), misses, lookups that found the other
die down, output keys left out, output cells. -/
structure SegWork where
  pairs : List (Nat × Nat × Nat)
  miss : Nat
  down : Nat
  full : Nat
  cells : Nat

/-- A candidate input key for an output cell at offset number `oi` (R187, R188). -/
def tryInput (s : State) (r : Rb) (x : Slot) (win : List Nat) (oi out : Nat) (p : List Int) (z : SegWork) : SegWork :=
  if !keyOk p then z
  else
    let t := keyTread s x r.inGrid p
    if !win.contains t then { z with miss := z.miss + 1 }
    else
      let d := homeDie r.code t
      if outOfService s (.point d) then { z with down := z.down + 1 }
      else
        match gridLookup s d r.frame r.inGrid p with
        | some n => { z with pairs := (oi, out, cellRef d n) :: z.pairs }
        | none => z

/-- All (dx, dy, dz) below `n`. -/
def boxKeys (n : Nat) : List (List Int) :=
  (List.range (n * n * n)).map (fun i => [((i % n : Nat) : Int), ((i / n % n : Nat) : Int), ((i / (n * n) : Nat) : Int)])

/-- Candidate inputs of an output key at offset `o` (R180): q + δ·o, or the s³ keys that floor((p − δ·o) ÷ s) takes to q. -/
def inputsOf (r : Rb) (q o : List Int) : List (List Int) :=
  (boxKeys r.stride).map (fun b => keyAdd (keyAdd (q.map (· * (r.stride : Int))) r.dil o) 1 b)

/-- The output key of an input at an offset. -/
def outputOf (r : Rb) (p o : List Int) : List Int := (keyAdd p (-(r.dil : Int)) o).map (fun c => c.fdiv r.stride)

/-- The kernel offsets with their numbers. -/
def numbered (r : Rb) : List (List Int × Nat) := (kernelOffsets r.shape).zipIdx

/-- The pairs of an output cell. -/
def pairsOf (s : State) (r : Rb) (x : Slot) (win : List Nat) (z : SegWork) (out : Nat) (q : List Int) : SegWork :=
  (numbered r).foldl (fun z o => (inputsOf r q o.1).foldl (fun z p => tryInput s r x win o.2 out p z) z) z

/-- The keys of a REGULAR or STRIDED segment's output cells in ascending order (R180, R189): those in tread `k` that a
present input of the window gives. -/
def newKeys (s : State) (r : Rb) (x : Slot) (win : List Nat) (k : Nat) : List (List Int) :=
  let ps := win.flatMap (fun t =>
    let d := homeDie r.code t
    if outOfService s (.point d) then []
    else (cellsOf s d r.frame r.inGrid t).filterMap (fun n => (cellOf s d r.frame r.inGrid n).map Prod.fst))
  let qs := ps.flatMap (fun p => (numbered r).map (fun o => outputOf r p o.1))
  qs.foldl (fun acc q =>
    if keyOk q && !acc.contains q && decide (keyTread s x r.outGrid q = k) then
      acc.filter (fun a => keyBefore a q) ++ [q] ++ acc.filter (fun a => !keyBefore a q)
    else acc) []

/-- R189, R190: create the cells of a tread of a derived grid; the cells created with their keys, and the state. -/
def createCells (s : State) (d k : Nat) (g : Grid) (qs : List (List Int)) : List (List Int × Nat) × State :=
  let a := gridArea s d g
  let n0 := gridCells s d g
  let keep := qs.take (g.cap - n0)
  let es := keep.zipIdx.map (fun e => (e.1, n0 + e.2))
  let s := es.foldl (fun s e =>
    wrBytes s (a + 64 + 8 * e.2) (e.1.flatMap (fun c => toLe 2 (wrap 16 c)) ++ [k, 0])) s
  let lists := (gridParts g.cap).2.1
  let table := (gridParts g.cap).2.2.1
  let s := wrBytes s (a + lists + 4 * n0) (es.flatMap (fun e => toLe 4 e.2))
  let s := wrBytes s (a + table + 16 * k) (toLe 4 n0 ++ toLe 4 es.length ++ toLe 4 (devNs s.tb.dev) ++ [1, 0, 0, 0])
  let s := wrN s (a + 12) 4 (n0 + es.length)
  (es, if keep.length < qs.length then wrByte s (a + 3) (setBits (rdByte s (a + 3)) 0 1 1) else s)

/-- The pairs of a built segment of a rulebook (R196), each (offset, input, output). -/
def segPairs (s : State) (d : Nat) (r : Rb) (k : Nat) : List (Nat × Nat × Nat) :=
  let h := rbHeader s d r
  let e := h + 0x100 + 16 * k
  let heap := h + rdN s e 4
  let no := (kernelOffsets r.shape).length
  let base := heap + (4 * no + 63) / 64 * 64
  ((List.range no).foldl (fun (acc : List (Nat × Nat × Nat) × Nat) o =>
    let c := if rdN s (e + 4) 4 = 0 then 0 else rdN s (heap + 4 * o) 4
    (acc.1 ++ (List.range c).map (fun i =>
      (o, rdN s (base + 8 * (acc.2 + i)) 4, rdN s (base + 8 * (acc.2 + i) + 4) 4)), acc.2 + c)) ([], 0)).1

/-- The tread of a cell reference of a grid. -/
def refTread (s : State) (f id ref : Nat) : Option Nat :=
  (cellOf s (ref / 2 ^ 31) f id (ref % 2 ^ 21)).map Prod.snd

/-- A TRANSPOSED segment (R180): the source's pairs whose input lies in tread `k`, with the sides exchanged. -/
def transposedSeg (s : State) (r src : Rb) (win : List Nat) (k : Nat) : SegWork :=
  let z := win.foldl (fun (z : SegWork) t =>
    let d := homeDie r.code t
    if outOfService s (.point d) then { z with down := z.down + 1 }
    else
      let ps := (segPairs s d src t).filter (fun p => refTread s r.frame r.outGrid p.2.1 = some k)
      { z with pairs := ps.map (fun p => (p.1, p.2.1, p.2.2)) ++ z.pairs }) ⟨[], 0, 0, 0, 0⟩
  let outs := z.pairs.foldl (fun (acc : List Nat) p => if acc.contains p.2.1 then acc else p.2.1 :: acc) []
  { z with cells := outs.length }

/-- The work of segment `k` on die `d`. -/
def segWork (s : State) (r : Rb) (d k : Nat) (x : Slot) : SegWork × State :=
  let win := windowOf (treadCount r.code) r.reach k
  match r.kind with
  | 0 =>
    let cs := cellsOf s d r.frame r.inGrid k
    (cs.foldl (fun z n =>
      match cellOf s d r.frame r.inGrid n with
      | some c => pairsOf s r x win z (cellRef d n) c.1
      | none => z) ⟨[], 0, 0, 0, cs.length⟩, s)
  | 3 =>
    match r.source s with
    | some q => (transposedSeg s r q win k, s)
    | none => (⟨[], 0, 0, 0, 0⟩, s)
  | _ =>
    match gridOf s r.frame r.outGrid with
    | none => (⟨[], 0, 0, 0, 0⟩, s)
    | some g =>
      let qs := newKeys s r x win k
      let c := createCells s d k g qs
      let down := (win.filter (fun t => outOfService s (.point (homeDie r.code t)))).length
      let z : SegWork := ⟨[], 0, if qs.isEmpty then down else 0, qs.length - c.1.length, c.1.length⟩
      (c.1.foldl (fun z e => pairsOf s r x win z (cellRef d e.2) e.1) z, c.2)

/-- The order of pairs in the heap: by offset, then output, then input reference (R196). -/
def pairKey (p : Nat × Nat × Nat) : Nat := (p.1 * 2 ^ 32 + p.2.1) * 2 ^ 32 + p.2.2

/-- Write a built segment and its entry, header and counters (R194 to R197). -/
def writeSeg (s : State) (r : Rb) (d k : Nat) (z : SegWork) : State :=
  let p := Page.die d 3
  let h := rbHeader s d r
  let no := (kernelOffsets r.shape).length
  let pb := (4 * no + 63) / 64 * 64
  let n := z.pairs.length
  let used := r.heap.getD d 0x1100
  let excess := rdN s (h + 0x14) 4 + n > r.pairCap ∨ used + pb + 8 * n > r.size
  let pairs := sortBy pairKey z.pairs
  let counts := (List.range no).map (fun o => (pairs.filter (fun q => q.1 = o)).length)
  let np := if excess then 0 else n
  let s :=
    if excess then s
    else
      wrBytes s (h + used) (counts.flatMap (toLe 4) ++ List.replicate (pb - 4 * no) 0 ++
        pairs.flatMap (fun q => toLe 4 q.2.2 ++ toLe 4 q.2.1))
  let heap := if excess then used else (used + pb + 8 * n + 63) / 64 * 64
  let fl := 1 + 2 * b2n excess + 4 * b2n (z.full ≠ 0) + 8 * b2n (z.down ≠ 0)
  let s := wrBytes s (h + 0x100 + 16 * k)
    (toLe 4 (if excess then 0 else used) ++ toLe 4 np ++ toLe 4 z.cells ++ [fl, 0, 0, 0])
  let s := if excess then raiseInt (finc (rbFlag s d r 1) p DB3.OVERFLOW) p 0 else s
  let s := if z.full ≠ 0 then raiseInt (fadd (rbFlag s d r 2) p DB3.GRID_FULL z.full) p 1 else s
  let s := if z.down ≠ 0 then raiseInt (fadd (rbFlag s d r 3) p DB3.REMOTE_DOWN z.down) p 2 else s
  let s := if z.miss ≠ 0 then raiseInt (fadd s p DB3.REACH_MISS z.miss) p 5 else s
  let s := wrN s (h + 0x14) 4 (rdN s (h + 0x14) 4 + np)
  let s := wrN s (h + 0x18) 4 (rdN s (h + 0x18) 4 + z.miss)
  let s := wrN s (h + 0x1C) 2 (rdN s (h + 0x1C) 2 + 1)
  let s := fadd (finc s p DB3.SEGMENTS) p DB3.PAIRS np
  let built := r.built ++ [k]
  let r' := { r with built := built, heap := setAt r.heap d heap }
  let s := putRb s r'
  if built.length = treadCount r.code then rbFlag (rbFlag s 0 r 0) 1 r 0 else s

/-- The candidates of a segment as R192 counts them, a bound on the time its build takes. -/
def segBoundNs (s : State) (r : Rb) (d k : Nat) : Nat :=
  let cells := if r.kind = 0 then (cellsOf s d r.frame r.inGrid k).length
    else ((windowOf (treadCount r.code) r.reach k).map (fun t =>
      (cellsOf s (homeDie r.code t) r.frame r.inGrid t).length)).sum
  500 + cells * (kernelOffsets r.shape).length * 10 / 44

/-- The segment at the head of a die's queue is built: its rulebook's pairs are written and its targets notified, and
segments that waited for it become ready. The time that the build took is open below its bound (R192). -/
def buildHead (s : State) (d : Nat) : State :=
  match SMap.getD s.bld.ready d [] with
  | [] => s
  | e :: rest =>
    let s := { s with bld.ready := if rest.isEmpty then SMap.del s.bld.ready d else SMap.put s.bld.ready d rest }
    match rbOf s e.1 e.2.1, frameSlot s d e.1 with
    | some r, some x =>
      let k := e.2.2
      let ns := (Config.freeWord s.free).toNat % (segBoundNs s r d k + 1)
      let w := segWork (tickFree s) r d k x
      let s := writeSeg w.2 r d k w.1
      let s := fset s (.die d 3) DB3.SEG_MAX_NS (max (fget s (.die d 3) DB3.SEG_MAX_NS) ns)
      readySweep (notifyBuilt s e.1 e.2.1)
    | _, _ => s

/-! ### Requests (R181 to R185) -/

/-- A build descriptor that R184 calls BAD_DESC on its face. -/
def buildBad (t : Ti) : Bool :=
  let kind := t.d 0 1
  let stride := t.d 2 1
  kind > 3 || t.d 1 1 > 4 || (if kind ≤ 1 then stride ≠ 1 else stride ≠ 2 && stride ≠ 4) ||
  t.d 3 1 < 1 || t.d 3 1 > 2 || t.d 8 1 > 15 || (if kind = 3 then t.d 9 1 > 15 else t.d 9 1 ≠ 0) || !t.dZero 11 1 ||
  t.d 12 4 = 0 || (if kind = 1 ∨ kind = 2 then t.d 16 4 < 1 || t.d 16 4 > 2097152 else t.d 16 4 ≠ 0) ||
  t.d 0x14 1 > 31 || t.d 0x15 1 > 63 || t.d 0x16 1 > 1 || !t.dZero 0x17 9 || !t.dZero 0x28 24

/-- The rulebook whose identity a request matches (R182). -/
def sameRb (s : State) (t : Ti) : Option Rb :=
  s.bld.rbs.find? (fun r => r.frame = t.d 4 4 && r.kind = t.d 0 1 && r.shape = t.d 1 1 && r.stride = t.d 2 1 &&
    r.dil = t.d 3 1 && r.reach = t.d 10 1 && r.inGrid = t.d 8 1 && (r.kind ≠ 3 || r.outGrid = t.d 9 1))

/-- The next free offset in a frame's slot areas (R193). -/
def areaTop (s : State) (f : Nat) : Nat :=
  let rb := (s.bld.rbs.filter (fun r => r.frame = f)).map (fun r => r.off.headD 0 + r.size)
  let gr := (s.bld.grids.filter (fun g => g.frame = f)).map (fun g => g.off.headD 0 + g.size)
  (rb ++ gr).foldl max 0x1000

/-- Bytes of a rulebook area (R197). -/
def rbBytes (shape cap : Nat) : Nat :=
  let pb := (4 * (kernelOffsets shape).length + 63) / 64 * 64
  (0x1100 + 256 * pb + 8 * cap + 4095) / 4096 * 4096

/-- The space of a slot area on both dies. -/
def areaSpace (s : State) : Nat := min (fget s (.die 0 3) DB3.RB_SLOT_SIZE) (fget s (.die 1 3) DB3.RB_SLOT_SIZE) * 65536

/-- A grid exists in a frame. -/
def gridExists (s : State) (f id : Nat) : Bool := id = 0 || (gridOf s f id).isSome

/-- The STATUS of a request that a new rulebook or a reuse would answer (R184), other than DIR_FULL and STORE_FULL. -/
def buildStatus (s : State) (t : Ti) : Nat :=
  let f := t.d 4 4
  if !(ebit s (.die 0 3) DB3.RB_CTRL && ebit s (.die 1 3) DB3.RB_CTRL) then 6
  else if buildBad t then 1
  else if (slotFor s 0 f).isNone || (slotFor s 1 f).isNone || (t.d 8 1 = 0 && evenOpened s f) then 2
  else if !gridExists s f (t.d 8 1) ||
      (t.d 0 1 = 3 && (sourceOf s f (t.d 1 1) (t.d 2 1) (t.d 3 1) (t.d 10 1) (t.d 8 1) (t.d 9 1)).isNone) then 5
  else if t.d 0 1 = 2 ∧ gridScale s f (t.d 8 1) + (if t.d 2 1 = 2 then 1 else 2) > 6 then 1
  else 0

/-- The lowest free grid number of a frame. -/
def freeGrid (s : State) (f : Nat) : Option Nat := ((List.range 15).map (· + 1)).find? (fun i => (gridOf s f i).isNone)

/-- A directory entry (R193). -/
def dirEntry (off size : Nat) : List Nat := toLe 4 1 ++ toLe 4 off ++ toLe 4 size

/-- Lay out a new grid on both dies (R193, R198). -/
def layGrid (s : State) (g : Grid) (code : Nat) : State :=
  [0, 1].foldl (fun s d =>
    let s := wrBytes s (rbArea s d g.frame + 0x200 + 16 * g.id) (dirEntry (g.off.getD d 0) g.size)
    let q := gridParts g.cap
    wrBytes s (gridArea s d g) ([g.id, g.scale, code, 0] ++ toLe 4 g.frame ++ toLe 4 g.cap ++ toLe 4 0 ++ [g.rb, 0, 0, 0] ++
      toLe 4 q.1 ++ toLe 4 q.2.1 ++ toLe 4 q.2.2.1 ++ toLe 4 q.2.2.2 ++ List.replicate 28 0)) s

/-- Lay out a new rulebook on both dies (R193 to R195). -/
def layRb (s : State) (r : Rb) : State :=
  [0, 1].foldl (fun s d =>
    let s := wrBytes s (rbArea s d r.frame + 16 * r.id) (dirEntry (r.off.getD d 0) r.size)
    finc (wrBytes s (rbHeader s d r) ([r.id, r.kind, r.shape, r.stride, r.dil, r.reach, r.code, (kernelOffsets r.shape).length] ++
      toLe 4 r.frame ++ [r.inGrid, r.outGrid, 0, 0] ++ toLe 4 r.pairCap ++ toLe 4 0 ++ toLe 4 0 ++ toLe 2 0 ++
      List.replicate 226 0 ++ List.replicate 4096 0)) (.die d 3) DB3.BUILDS) s

/-- Refuse a build request (R184): only STATUS is written. -/
def buildRefuse (t : Ti) (s : State) (code : Nat) : List UnitOut × State :=
  ([.write (t.d 0x20 8) [code]],
    [0, 1].foldl (fun s d => raiseInt (finc s (.die d 3) DB3.REFUSED) (.die d 3) 4) s)

/-- The result record of an accepted request (R183). -/
def buildRecord (s : State) (t : Ti) (r : Rb) (flags : Nat) : List UnitOut :=
  let g := fun (d : Nat) => toLe 8 (ownNode s * 2 ^ 48 + rbHeader s d r)
  [.write (t.d 0x20 8) ([0, r.id, r.outGrid, flags, 0, 0, 0, 0] ++ g 0 ++ g 1 ++ List.replicate 8 0)]

/-- A new target of an existing rulebook (R185, R191): incremented at once for each segment already notified. -/
def addTarget (s : State) (t : Ti) (r : Rb) : Bool × State :=
  if t.d 0x16 1 = 0 then (false, s)
  else if r.targets.length ≥ 8 then (true, s)
  else
    let tg := (t.d 0x14 1, t.d 0x15 1)
    let s := putRb s { r with targets := r.targets ++ [tg] }
    (false, if r.told = 0 then s else notifyCore s tg r.told)

/-- RB_BUILD's work. -/
def buildWork (_ : Who) (t : Ti) (s : State) : Run (List UnitOut × State) :=
  let f := t.d 4 4
  if t.d 0x20 8 % 32 ≠ 0 then .error (.fault fAlign s)
  else if outOfService s (.point 0) || outOfService s (.point 1) then .error (.fault fTargetReset (stubAnswered s))
  else if quiescing s (.die 0 3) || quiescing s (.die 1 3) then .error .wait
  else
    let st := buildStatus s t
    if st ≠ 0 then .ok (buildRefuse t s st)
    else
      match sameRb s t with
      | some r =>
        let a := addTarget s t r
        let s := [0, 1].foldl (fun s d => finc s (.die d 3) DB3.REUSES) a.2
        .ok (buildRecord s t r (1 + 2 * b2n a.1), s)
      | none =>
        let kind := t.d 0 1
        let ids := (s.bld.rbs.filter (fun r => r.frame = f)).length
        let fresh := kind = 1 ∨ kind = 2
        if ids ≥ 32 ∨ (fresh ∧ (freeGrid s f).isNone) then .ok (buildRefuse t s 3)
        else
          let gid := if fresh then (freeGrid s f).getD 0 else if kind = 3 then t.d 9 1 else t.d 8 1
          let scale := gridScale s f (t.d 8 1) + (if kind = 2 then (if t.d 2 1 = 2 then 1 else 2) else 0)
          let top := areaTop s f
          let rb := rbBytes (t.d 1 1) (t.d 12 4)
          let gb := if fresh then gridBytes (t.d 16 4) else 0
          if top + rb + gb > areaSpace s then .ok (buildRefuse t s 4)
          else
            let code := ((slotFor s 0 f).map Slot.code).getD 0
            let r : Rb := ⟨f, ids, kind, t.d 1 1, t.d 2 1, t.d 3 1, t.d 10 1, t.d 8 1, gid, t.d 12 4, code, [top, top], rb,
              if t.d 0x16 1 = 1 then [(t.d 0x14 1, t.d 0x15 1)] else [], [], [], 0, [0x1100, 0x1100], []⟩
            let s := { s with bld.rbs := s.bld.rbs ++ [r] }
            let s := layRb s r
            let s :=
              if fresh then
                let g : Grid := ⟨f, gid, scale, t.d 16 4, ids, [top + rb, top + rb], gb⟩
                layGrid { s with bld.grids := s.bld.grids ++ [g] } g code
              else s
            .ok (buildRecord s t r 0, readySweep s)

/-- RB_BUILD run by the builders. -/
def rbBuildRun (s : State) (slot id : Nat) : Host.Outcome State Fault Refusal := unitRun s slot id 0xC8 buildWork

/-- The declared ranges of RB_BUILD and of other instructions that write one record at a global address (R436). -/
def recordRange (s : State) (slot off : Nat) (t : Ti) : List Range := hullRange s slot false true [(t.d off 8, 32)]

/-- SEGMENT_BUILD_DONE (R191, R192): the segment at the head of a die's queue is built. -/
def execSegmentBuildDone (d : Fin 2) (s : State) : Host.Outcome State Fault Refusal :=
  if outOfService s (.point d.val) then .next s else done (buildHead s d.val)

/-! ### Reclaiming a frame (R200) -/

/-- The directory of a reclaimed frame's areas is cleared, and its builds are abandoned. -/
def reclaimBooks (s : State) (f : Nat) : State :=
  let rs := s.bld.rbs.filter (fun r => r.frame = f)
  let late := rs.filter (fun r => !(unbuiltOn r 0).isEmpty || !(unbuiltOn r 1).isEmpty)
  let s := [0, 1].foldl (fun s d =>
    let s := late.foldl (fun s r => rbFlag s d r 4) s
    let s := if late.isEmpty then s else raiseInt (fadd s (.die d 3) DB3.ABANDONED late.length) (.die d 3) 3
    if rs.isEmpty then s else wrBytes s (rbArea s d f) (List.replicate 1024 0)) s
  let ready := s.bld.ready.filterMap (fun q =>
    let es := q.2.filter (fun e => e.1 ≠ f)
    if es.isEmpty then none else some (q.1, es))
  { s with bld := ⟨s.bld.rbs.filter (fun r => r.frame ≠ f), s.bld.grids.filter (fun g => g.frame ≠ f), ready⟩ }

end Sys2Proof.Machine
end

