-- ==== Sys2Proof/Machine/Waits.lean ====
section
/-!
DEFINITION. Thread control and waits (R371 to R374, R379 to R381, R389, R394, R424 to R428) and the flight boards' marks and
waits (R327 to R330, R696).
-/

namespace Sys2Proof.Machine

/-! ### Fences (R389) -/

/-- A FENCE has nothing earlier to wait for. -/
def fenceReady (m : FenceMode) (x : Ctx) : Bool :=
  match m with
  | .acq => x.loads.all (fun l => l.value.isSome)
  | .rel => releaseReady x
  | .full => releaseReady x

/-- Issue a FENCE of FN `fn`; it holds the thread WAITING until its conditions hold. -/
def issueFence (s : State) (t : ThreadRef) (fn : Nat) (m : FenceMode) : Host.Outcome State Fault Refusal :=
  issueCtx s t (fmtA 0x40 fn 0 0 0) (fun x =>
    if fenceReady m x then x.step else { x with st := .waiting, hold := .fence m })

/-- FENCE_ACQ (R389, R424). -/
def execFenceAcq (t : ThreadRef) (s : State) : Host.Outcome State Fault Refusal := issueFence s t 0 .acq

/-- FENCE_REL (R389, R424). -/
def execFenceRel (t : ThreadRef) (s : State) : Host.Outcome State Fault Refusal := issueFence s t 1 .rel

/-- FENCE_FULL (R389, R424). -/
def execFenceFull (t : ThreadRef) (s : State) : Host.Outcome State Fault Refusal := issueFence s t 2 .full

/-- FENCE_COMPLETE (R389): a FENCE whose conditions hold lets its thread go on; an instruction that waited for earlier ones
before its issue may issue. -/
def execFenceComplete (t : ThreadRef) (s : State) : Host.Outcome State Fault Refusal :=
  let x := cref s t
  let ready : Ctx := { x with st := .ready, hold := .none, since := s.now }
  match x.hold with
  | .fence m => if fenceReady m x then .next (setRef s t ready.step) else .next s
  | .before ld st ti =>
    if (!ld || x.loads.all (fun l => l.value.isSome)) && (!st || x.stores = 0) && (!ti || x.unretired = 0) then
      .next (setRef s t ready)
    else .next s
  | _ => .next s

/-- IFENCE (R385, R424): once every earlier store of the thread is performed the core's instruction cache is emptied. -/
def execIfence (t : ThreadRef) (s : State) : Host.Outcome State Fault Refusal :=
  if !mayIssue s t [fmtA 0x40 3 0 0 0] then .next s
  else if (cref s t).stores ≠ 0 then waitBefore s t false true false
  else
    let s := issued s t
    let s := setCore s t.slot.val { coreAt s t.slot.val with icache := [] }
    .next (setRef s t (cref s t).step)

/-! ### Exit (R374) -/

/-- EXIT (R424): the context issues nothing further. -/
def execExit (t : ThreadRef) (s : State) : Host.Outcome State Fault Refusal :=
  issueCtx s t (fmtA 0x40 4 0 0 0) (fun x => { x with st := .exiting })

/-- Nothing that a context has issued can still write (R374). -/
def Ctx.drained (x : Ctx) : Bool := x.unretired = 0 && x.stores = 0 && x.loads.all (fun l => !l.amo || l.value.isSome)

/-- CONTEXT_FREE (R374): an EXITING context whose tensor instructions have retired and whose stores are performed becomes FREE,
and the counter named at its spawn is incremented. -/
def execContextFree (t : ThreadRef) (s : State) : Host.Outcome State Fault Refusal :=
  let slot := t.slot.val
  let x := cref s t
  if x.st ≠ .exiting || !x.drained || outOfService s (.core slot) then .next s
  else
    let s := finc (freeCtx s slot t.ctx.val) (.core slot 1) KB1.TE_EXITS
    match x.spawnCtr with
    | some (core, n) => done ((arriveAt s core n 1).getD s)
    | none => done s

/-! ### ARRIVE (R394, R396, R424) -/

/-- ARRIVE: performed once everything earlier of the thread is performed or retired; an unused bit of SRC1 that is not zero is
an undefined encoding. -/
def execArrive (t : ThreadRef) (src1 src2 : RegNum) (s : State) : Host.Outcome State Fault Refusal :=
  let slot := t.slot.val
  let c := t.ctx.val
  let x := cref s t
  if !mayIssue s t [fmtA 0x40 5 0 src1.val src2.val] then .next s
  else
    let a := (x.rget src1.val).toNat
    let v := (x.rget src2.val).toNat % 2 ^ 32
    let node := bits a 48 10
    let core := bits a 6 5
    let n := bits a 0 6
    if a ≥ 2 ^ 58 ∨ bits a 11 37 ≠ 0 then done (faultHere (issued s t) slot c fAccess)
    else if !releaseReady x then waitBefore s t true true true
    else if node = ownNode s then
      let s := issued s t
      match arriveAt s core n (sext 32 v) with
      | some s => done (setRef s t (cref s t).step)
      | none => done (faultHere (stubAnswered s) slot c fTargetReset)
    else if !nodeAllows s node x.rq false true then
      done (faultHere (deny (issued s t) (.pkg 9) x.rq true (node * 2 ^ 48)) slot c fAccess)
    else
      match freeTag s with
      | none => waitBefore s t true true true
      | some tag =>
        if galHolds s then waitBefore s t true true true
        else
          let s := issued s t
          let s := setRef s t { (cref s t).step with stores := (cref s t).stores + 1 }
          done (sendRequest s tag (.store slot c x.pc) 0
            (galRequest 0 x.domain (node * 2 ^ 48 + 2 ^ 44 + core * 2 ^ 23 + n * 2 ^ 38) 5 0 (toLe 4 v)))

/-! ### SPAWN (R371 to R373, R425) -/

/-- A thread starts in the lowest FREE context of a slot (R371): its context, or none where the core has no FREE one. -/
def startThread (s : State) (slot pc cls domain : Nat) (regs : List (Nat × Nat)) (ctr : Option (Nat × Nat)) :
    Option (Nat × State) :=
  match (List.range 2048).find? (fun c => (ctxAt s slot c).st = .free) with
  | none => none
  | some c =>
    let x : Ctx := { Ctx.idle with st := .ready, pc := pc, domain := domain, cls := cls, spawnCtr := ctr, since := s.now }
    let x := regs.foldl (fun x r => x.rset r.1 (BitVec.ofNat 64 r.2)) x
    let s := { s with err.badCtx := s.err.badCtx.filter (· ≠ ctxKey slot c) }
    some (c, finc (setCtx s slot c x) (.core slot 1) KB1.TE_SPAWNS)

/-- The bits of SPAWN's control word that must be zero are. -/
def spawnControlOk (w : Nat) : Bool :=
  bits w 6 2 = 0 && bits w 10 6 = 0 && w / 2 ^ 23 = 0 && !(bit w 5 && bits w 0 5 ≠ 0)

/-- SPAWN. -/
def execSpawn (t : ThreadRef) (dst src1 src2 : RegNum) (a : Fin 29) (s : State) : Host.Outcome State Fault Refusal :=
  let slot := t.slot.val
  let c := t.ctx.val
  if !mayIssue s t [fmtA 0x41 a.val dst.val src1.val src2.val] then .next s
  else
    let s := issued s t
    let x := cref s t
    let pc := (x.rget src1.val).toNat
    let w := (x.rget src2.val).toNat
    let cls := bits w 8 2
    if !spawnControlOk w then done (faultHere s slot c fAccess)
    else if pc % 4 ≠ 0 then done (faultHere s slot c fAlign)
    else if cls < x.cls then done (faultHere s slot c fDomain)
    else
      let finish := fun (s : State) (v : Nat) =>
        done (setRef s t ((cref s t).deliver dst.val (BitVec.ofNat 64 v)).step)
      let fail := fun (v : Nat) =>
        finish (raiseInt (finc s (.core slot 1) KB1.TE_SPAWN_FAIL) (.core slot 1) 1) (2 ^ 63 + v)
      match (if bit w 5 then some slot else coreInService s (bits w 0 5)) with
      | none => fail 2
      | some k =>
        let args := (List.range 4).map (fun i => (i + 1, (x.rget (a.val + i)).toNat)) ++ [(5, threadId s slot c)]
        let ctr := if bit w 22 then some ((slotLogical s slot).getD 0, bits w 16 6) else none
        match startThread s k pc cls x.domain args ctr with
        | none => fail 1
        | some (child, s) => finish s (threadId s k child)

/-! ### Flight boards (R327 to R330) -/

/-- The place of a board: its scratchpad's slot and offset, where its logical core has one. -/
def boardPlace (s : State) (board : Nat) : Option (Nat × Nat) :=
  (logicalSlot s (bits board 23 5)).map (fun k => (k, board % 2 ^ 23))

/-- A byte of entry `j` of a board's bytes. -/
def entryByte (b : List Nat) (j i : Nat) : Nat := b.getD (64 * j + i) 0

/-- R328: what refuses a board operand: the fault, and the state with what the reads did. -/
def boardCheck (s : State) (slot c : Nat) (operand j : Nat) (wait : Bool) : Option Nat × State :=
  let board := bits operand 0 28
  let k := bits operand 32 8
  let x := ctxAt s slot c
  if bits operand 28 4 ≠ 0 ∨ operand ≥ 2 ^ 40 then (some fAccess, s)
  else if board % 128 ≠ 0 then (some fAlign, s)
  else if board % 2 ^ 23 + 2048 > 0x600000 then (some fAccess, s)
  else
    let r := coreRead s x.rq (some slot) (ownNode s * 2 ^ 48 + 2 ^ 44 + board) 2048
    let s := r.2.2
    let b := r.2.1
    match r.1 with
    | .ok =>
      let src := entryByte b j 0x20
      if b.getD 4 0 ≥ 5 ∨ treadCount (b.getD 4 0) ≤ k ∨ j = 0 ∨ !bit (entryByte b j 0x22) 0 then (some fAccess, s)
      else if wait && src ≠ 0 && (src = j || decide (src ≥ 32) || !bit (entryByte b src 0x22) 0) then (some fAccess, s)
      else (none, s)
    | e => (some e.fault, s)

/-- Frame `f` has opened. -/
def frameOpened (s : State) (f : Nat) : Bool :=
  match s.stair.ahead.orElse (fun _ => s.stair.frame) with
  | some g => decide ((g.no + 2 ^ 32 - f % 2 ^ 32) % 2 ^ 32 < 2 ^ 31)
  | none => false

/-- Segment `k` of the rulebook whose header lies at a global address is BUILT (R195). -/
def segmentBuilt (s : State) (hdr k : Nat) : Bool :=
  match locate s (hdr + 0x100 + 16 * k) 16 with
  | .store d st off => bit ((storeBytes s d st off 16).getD 12 0) 0
  | _ => false

/-- R329, R696: the status of WAIT_HALO, or none while it waits. -/
def haloStatus (s : State) (board k j frame : Nat) : Option Nat :=
  match boardPlace s board with
  | none => none
  | some (slot, off) =>
    let b := rdBytes s (spmBase slot + off) 2048
    let f := leNat (b.take 4)
    let code := b.getD 4 0
    let other : Bool := match frameSlot s 0 f with | some x => decide (x.code ≠ code) | none => false
    if f ≠ frame ∨ other then some 2
    else if frameOpened s (f + 4) then some 1
    else
      let src := entryByte b j 0x20
      let doneAt := fun (t : Nat) => if src = 0 then treadClosed s f t else bit (entryByte b src (t / 8)) (t % 8)
      let hdr := leNat ((b.drop (64 * j + (if homeDie code k = 0 then 0x28 else 0x30))).take 8)
      if !(windowOf (treadCount code) (entryByte b j 0x21) k).all doneAt then none
      else if bit (entryByte b j 0x22) 1 && !segmentBuilt s hdr k then none
      else some 0

/-! ### Waits (R379 to R381, R427) -/

/-- The status with which a wait's condition is met now; none while it is not. -/
def waitStatus (s : State) (slot : Nat) (k : WaitKind) : Option Nat :=
  match k with
  | .halo b t j f => haloStatus s b t j f
  | k => if waitHolds s slot k then some 0 else none

/-- A wait that has issued: it completes at once on its condition, then on a deadline already past, else holds the thread. -/
def beginWait (s : State) (t : ThreadRef) (dst : RegNum) (deadline : Nat) (k : WaitKind) : State :=
  let x := cref s t
  let finish := fun (v : Nat) => setRef s t (x.deliver dst.val (BitVec.ofNat 64 v)).step
  match waitStatus s t.slot.val k with
  | some v => finish v
  | none =>
    if pastDeadline s deadline then finish 3
    else setRef s t { x with st := .waiting, hold := .wait k deadline dst.val }

/-- Issue a wait of FN `fn` other than WAIT_HALO; `ok` says that the argument's unused bits are zero (R412). -/
def issueWait (s : State) (t : ThreadRef) (fn : Nat) (dst src1 src2 : RegNum) (ok : Nat → Bool) (k : Nat → WaitKind) :
    Host.Outcome State Fault Refusal :=
  if !mayIssue s t [fmtA 0x48 fn dst.val src1.val src2.val] then .next s
  else
    let s := issued s t
    let a := ((cref s t).rget src1.val).toNat
    if ok a then .next (beginWait s t dst ((cref s t).rget src2.val).toNat (k a))
    else done (faultHere s t.slot.val t.ctx.val fAccess)

/-- WAIT_TREAD (R80). -/
def execWaitTread (t : ThreadRef) (dst src1 src2 : RegNum) (s : State) : Host.Outcome State Fault Refusal :=
  issueWait s t 0 dst src1 src2 (fun a => decide (a < 2 ^ 40)) (fun a => .tread (a % 2 ^ 32) (a / 2 ^ 32))

/-- WAIT_LANDING (R80). -/
def execWaitLanding (t : ThreadRef) (dst src1 src2 : RegNum) (s : State) : Host.Outcome State Fault Refusal :=
  issueWait s t 1 dst src1 src2 (fun a => decide (a < 2 ^ 32)) (fun a => .landing a)

/-- WAIT_TIME (R81). -/
def execWaitTime (t : ThreadRef) (dst src1 src2 : RegNum) (s : State) : Host.Outcome State Fault Refusal :=
  issueWait s t 2 dst src1 src2 (fun _ => true) (fun a => .time a)

/-- WAIT_COUNT (R379). -/
def execWaitCount (t : ThreadRef) (dst src1 src2 : RegNum) (n : Fin 64) (s : State) : Host.Outcome State Fault Refusal :=
  issueWait s t (3 + 8 * n.val) dst src1 src2 (fun a => decide (a < 2 ^ 32)) (fun a => .count n.val a)

/-- WAIT_HALO (R328, R329). -/
def execWaitHalo (t : ThreadRef) (dst src1 src2 : RegNum) (j : Fin 32) (s : State) : Host.Outcome State Fault Refusal :=
  let slot := t.slot.val
  let c := t.ctx.val
  if !mayIssue s t [fmtA 0x48 (4 + 8 * j.val) dst.val src1.val src2.val] then .next s
  else
    let s := issued s t
    let a := ((cref s t).rget src1.val).toNat
    let r := boardCheck s slot c a j.val true
    let s := r.2
    match r.1 with
    | some e => done (faultHere s slot c e)
    | none =>
      let frame := match boardPlace s (bits a 0 28) with | some (k, off) => rdN s (spmBase k + off) 4 | none => 0
      done (beginWait s t dst ((cref s t).rget src2.val).toNat (.halo (bits a 0 28) (bits a 32 8) j.val frame))

/-- WAIT_COMPLETE (R379, R330): a pending wait completes on its condition. -/
def execWaitComplete (t : ThreadRef) (s : State) : Host.Outcome State Fault Refusal :=
  match (cref s t).hold with
  | .wait k _ _ =>
    match waitStatus s t.slot.val k with
    | some v => if outOfService s (.core t.slot.val) then .next s else .next (endWait s t.slot.val t.ctx.val v)
    | none => .next s
  | _ => .next s

/-- WAIT_DEADLINE_EXPIRE (R380): a wait whose deadline comes before its condition completes with TIMEOUT. -/
def execWaitDeadlineExpire (t : ThreadRef) (s : State) : Host.Outcome State Fault Refusal :=
  match (cref s t).hold with
  | .wait k deadline _ =>
    if pastDeadline s deadline && (waitStatus s t.slot.val k).isNone && !outOfService s (.core t.slot.val) then
      .next (endWait s t.slot.val t.ctx.val 3)
    else .next s
  | _ => .next s

/-! ### TREAD_MARK (R328, R428) -/

/-- The mark takes effect: a byte of DONE is read and written with the bit set, in one step. It waits, as a scalar store does,
while a scoreboard holds the line (R403, R404). -/
def doMark (s : State) (slot c board k j : Nat) : State :=
  let x := ctxAt s slot c
  let wait := setCtx s slot c { x with st := .waiting, hold := .mark board k j }
  let r := boardCheck s slot c (board + k * 2 ^ 32) j false
  match r.1 with
  | some e => faultHere r.2 slot c e
  | none =>
    let g := ownNode s * 2 ^ 48 + 2 ^ 44 + board + 64 * j + k / 8
    if accessHeld s slot (.store 1 g 0 none) then wait
    else
      let b := coreRead s x.rq (some slot) g 1
      match b.1 with
      | .ok =>
        match coreWrite b.2.2 x.rq (some slot) g [setBits (leNat b.2.1) (k % 8) 1 1] with
        | (.ok, s) => accessDone s slot c id
        | (.wait, _) => wait
        | (e, s) => faultHere s slot c e.fault
      | e => faultHere b.2.2 slot c e.fault

/-- Nothing holds a mark back: earlier tensor instructions have retired and earlier stores are performed. -/
def markReady (x : Ctx) : Bool := x.unretired = 0 && x.stores = 0

/-- TREAD_MARK. -/
def execTreadMark (t : ThreadRef) (src1 : RegNum) (j : Fin 32) (s : State) : Host.Outcome State Fault Refusal :=
  let slot := t.slot.val
  let c := t.ctx.val
  if !mayIssue s t [fmtA 0x49 j.val 0 src1.val 0] then .next s
  else
    let s := issued s t
    let a := ((cref s t).rget src1.val).toNat
    let r := boardCheck s slot c a j.val false
    match r.1 with
    | some e => done (faultHere r.2 slot c e)
    | none =>
      let board := bits a 0 28
      let k := bits a 32 8
      if markReady (cref s t) then done (doMark s slot c board k j.val)
      else .next (setRef s t { cref s t with st := .waiting, hold := .mark board k j.val })

/-- TREAD_MARK_EFFECT (R328). -/
def execTreadMarkEffect (t : ThreadRef) (s : State) : Host.Outcome State Fault Refusal :=
  let x := cref s t
  match x.hold with
  | .mark board k j =>
    if markReady x && !outOfService s (.core t.slot.val) then done (doMark s t.slot.val t.ctx.val board k j) else .next s
  | _ => .next s

end Sys2Proof.Machine
end

