-- ==== Sys2Proof/Machine/Fence.lean ====
section
/-!
DEFINITION. Fencing a core (R601 to R607): the save images, the reset, the promotion of the spare, and the restart threads.
-/

namespace Sys2Proof.Machine

/-- A context that a fence saves: its number and what it held. -/
abbrev Saved := Nat × Ctx

/-- The contexts of a slot that are not FREE, in ascending order. -/
def liveContexts (s : State) (slot : Nat) : List Saved :=
  (s.ctx.filter (fun e => e.1 / 2048 = slot)).map (fun e => (e.1 % 2048, e.2))

/-- A save image (R604) of a context of logical core `l`. REGS_UNREADABLE is set, and the registers hold zero, where a
register of the context could not be read. -/
def saveImage (s : State) (slot l : Nat) (e : Saved) : List Nat :=
  let x := e.2
  let bad := s.err.badCtx.contains (ctxKey slot e.1)
  let regs := (List.range 32).flatMap (fun r => if bad then toLe 8 0 else toLe 8 (x.rget r).toNat)
  regs ++ toLe 8 x.pc ++ toLe 2 (l * 2048 + e.1) ++
    [x.domain % 256, x.cls % 256, ctxCode x.st, 1 + 2 * b2n bad, min 255 x.unretired, if x.st = .faulted then x.fault % 256 else 0] ++
    List.replicate 16 0

/-- FENCE_SAVE of a die's B8 page (R604, R618). -/
def fenceSave (s : State) (d : Nat) : Nat :=
  fget s (.die d 8) DB8.FENCE_SAVE_LO + fget s (.die d 8) DB8.FENCE_SAVE_HI * 2 ^ 32

/-- Firmware writes the save images (R512, R513, R602). -/
def writeImages (s : State) (slot l area : Nat) (es : List Saved) : State :=
  ((List.range es.length).zip es).foldl (fun s e => (busWrite s rqCC none (area + 288 * e.1) (saveImage s slot l e.2)).2) s

/-- The SEQ that a record written now will have (R598); one that is dropped has none: a free value. -/
def nextSeq (s : State) : Nat × State :=
  if s.hist.queue.length < 64 then
    ((fget s (.pkg 10) PB10.HIST_SEQ + s.hist.queue.length + b2n (s.hist.dropped ≠ 0)) % 2 ^ 32, s)
  else ((Config.freeWord s.free).toNat, tickFree s)

/-- The field of CORE_MAP for position `i` of a cluster; 4 is SPARE_SLOT. -/
def mapFld (i : Nat) : Fld :=
  [CB0.CORE_MAP_SLOT_L0, CB0.CORE_MAP_SLOT_L1, CB0.CORE_MAP_SLOT_L2, CB0.CORE_MAP_SLOT_L3, CB0.CORE_MAP_SPARE_SLOT].getD i
    CB0.CORE_MAP_SLOT_L0

/-- Firmware commits CORE_MAP with a field changed (R602). -/
def commitMap (s : State) (d c : Nat) : State := takeSet s (.cl d c 0) (shadowSet s (.cl d c 0))

/-- The boot flash's record of a cluster's fences (R607). -/
def flashFence (s : State) (d c : Nat) : State :=
  let words := (fget s (.cl d c 3) CB3.SLOT_FENCE, rawWord s (.cl d c 0) 0x44)
  { s with boot.flashFences := SMap.put s.boot.flashFences (d * 4 + c) words }

/-- R602 step 4: the position that a fenced slot held: the spare that takes it, if any. -/
def replaceSlot (s : State) (d c k : Nat) (pos : Option Nat) : Option Nat × State :=
  let p := Page.cl d c 0
  let sp := mapField s d c 4
  match pos with
  | none =>
    -- a spare itself: SPARE_SLOT no longer names it
    (none, if sp = k then commitMap (fset s p CB0.CORE_MAP_SPARE_SLOT 7) d c else s)
  | some i =>
    if sp < 5 ∧ slotState s (slotOf d c sp) = 1 then
      let s := fset (fset s p (mapFld i) sp) p CB0.CORE_MAP_SPARE_SLOT 7
      let s := commitMap s d c
      (some (slotOf d c sp), raiseInt (finc s (.cl d c 3) CB3.PROMOTIONS) (.cl d c 3) 3)
    else (none, commitMap (fset s p (mapFld i) 7) d c)

/-- The slots on which restart threads start (R602 step 5): the promoted one, or the in-service cores of the cluster and then
of the die in ascending logical order. -/
def restartSlots (s : State) (d c : Nat) (promoted : Option Nat) : List Nat :=
  match promoted with
  | some n => [n]
  | none =>
    let mine := (List.range 4).map (fun i => d * 16 + c * 4 + i)
    let rest := ((List.range 16).map (fun i => d * 16 + i)).filter (fun l => !mine.contains l)
    (mine ++ rest).filterMap (coreInService s)

/-- Start a thread on the first of the slots that has a FREE context. -/
def startFirst (s : State) (pc cls domain : Nat) (regs : List (Nat × Nat)) : List Nat → Option State
  | [] => none
  | n :: ns =>
    match startThread s n pc cls domain regs none with
    | some r => some r.2
    | none => startFirst s pc cls domain regs ns

/-- The restart thread of one saved context (R603), or RESTART_SKIPPED. `img` is the address of its image, `reason` 1 or 2;
answers how many started. -/
def restartOne (d l reason seq : Nat) (slots : List Nat) (img : Nat) (e : Saved) (a : Nat × State) : Nat × State :=
  let s := a.2
  let p := Page.die d 8
  let x := e.2
  let skip := (a.1, raiseInt (finc s p DB8.RESTART_SKIPPED) p 2)
  if !fbit s p (DB8.RESTART_PC_HI_VALID x.domain) then skip
  else
    let pc := fget s p (DB8.RESTART_PC_LO x.domain) / 4 * 4 + fget s p (DB8.RESTART_PC_HI_PC x.domain) * 2 ^ 32
    let regs := [(1, l * 2048 + e.1), (2, img), (3, ctxCode x.st + reason * 2 ^ 8 + l * 2 ^ 16), (4, seq), (5, 0xFFFFFFFFFFFFFFFF)]
    match startFirst s pc x.cls x.domain regs slots with
    | some s => (a.1 + 1, s)
    | none => skip

/-- A fence of slot `n` (R602). -/
def fence (s : State) (n : Nat) : State :=
  let d := slotDie n; let c := slotCluster n; let k := slotK n
  let p := Page.die d 8
  let es := liveContexts s n
  let pos := (List.range 4).find? (fun i => mapField s d c i = k)
  let l := (slotLogical s n).getD 0
  let scope := pageInstance (.core n 0)
  let base := fenceSave s d
  let area := base + fget s p DB8.FENCES % 4 * 589824
  -- 1: SLOT_FENCE
  let s := slotFenceGo s d c (setBits (fget s (.cl d c 3) CB3.SLOT_FENCE) k 1 1)
  let s := raiseInt s (.cl d c 3) 2
  -- 2: save images
  let s := if base = 0 then s else writeImages s n l area es
  -- 3: reset at L4, and the FENCE record
  let s := swReset s 1 4 scope
  let (seq, s) := nextSeq s
  let s := record (raiseInt (finc s p DB8.FENCES) p 1) p 0x06 0 scope l es.length
  -- 4: promotion or a vacant position
  let (promoted, s) := replaceSlot s d c k pos
  let s := flashFence s d c
  -- 5: restart threads
  if pos.isNone then s
  else
    let slots := restartSlots s d c promoted
    let reason := if promoted.isSome then 1 else 2
    let r := ((List.range es.length).zip es).foldl
      (fun a e => restartOne d l reason seq slots (if base = 0 then 0 else area + 288 * e.1) e.2 a) (0, s)
    match promoted with
    | some q => record r.2 p 0x07 0 (pageInstance (.core q 0)) l r.1
    | none => record (tickFree r.2) p 0x07 0 (Config.freeWord r.2.free).toNat l r.1

/-- CORE_FENCE (R601, R602): firmware fences the slot of the oldest trigger. -/
def execCoreFence (s : State) : Host.Outcome State Fault Refusal :=
  match s.err.fenceReq with
  | [] => .next s
  | n :: rest =>
    if !(ccRunning s 0 || ccRunning s 1) then .next s
    else
      let s := { s with err.fenceReq := rest }
      if slotFenced s n then .next s else done (fence s n)

end Sys2Proof.Machine
end

