-- ==== Sys2Proof/Machine/HostIf.lean ====
section
/-!
DEFINITION. The PCI Express endpoint: the sliding window (R659 to R661), MSI-X (R653, R666), power and link state (R653,
R670, R682).
-/

namespace Sys2Proof.Machine

/-- WIN_BASE in effect. -/
def winBase (s : State) : Nat :=
  eget s (.pkg 7) PB7.WIN_BASE_LO * 2 ^ 16 + eget s (.pkg 7) PB7.WIN_BASE_HI * 2 ^ 32

/-- Read of the host image buffer (R661). -/
def imgRead (s : State) (off n : Nat) : List Nat :=
  (List.range n).map (fun i => (SMap.getD s.boot.imgBuf (off + i) 0#8).toNat)

/-- Write of the host image buffer (R661). -/
def imgWrite (s : State) (off : Nat) : List Nat → State
  | [] => s
  | b :: bs => imgWrite { s with boot.imgBuf := SMap.setD s.boot.imgBuf off (BitVec.ofNat 8 b) 0#8 } (off + 1) bs

/-- R653, R659 to R661: a host access at a BAR2 offset: a read of `len` bytes, or a write of `data`. In D3hot the BARs are
not decoded. Before BOOT_DONE the first MiB reaches the image buffer and the rest reads zero. A target on another node is
reached over the Gallery (R505). -/
def execSlidingWindowAccess (wr : Bool) (off : BitVec 36) (len : Nat) (data : List Byte) (s : State) :
    Host.Outcome State Fault Refusal :=
  let o := off.toNat
  let bs := data.map BitVec.toNat
  if inD3 s then .next s
  else if !bootDone s then
    if o + len ≤ 0x100000 ∧ o + bs.length ≤ 0x100000 then
      if wr then .next (imgWrite s o bs) else .next { s with ans := .bytes (imgRead s o len) }
    else if wr then .next s else .next { s with ans := .bytes (List.replicate len 0) }
  else
    let g := winBase s + o
    if g / 2 ^ 48 % 1024 ≠ ownNode s then
      done (hostRemote s wr g len bs)
    else if wr then
      let r := masterWrite s rqHost g bs
      done (hostAnswer r.2 true r.1 [] 0)
    else
      let r := masterRead s rqHost g len
      done (hostAnswer r.2.2 false r.1 r.2.1 len)

/-- R666: the host unmasks vector `v`, whose table entry holds this address and data; a pending message is sent when its
condition still holds. -/
def execMsixUnmask (v : Fin 64) (addr : BitVec 64) (data : Word) (s : State) : Host.Outcome State Fault Refusal :=
  let s := { s with msix.masked := s.msix.masked &&& (vecBit v.val ^^^ BitVec.allOnes 64),
                    msix.entries := SMap.put s.msix.entries v.val (addr, data) }
  let s := settle 0#64 s
  if s.msix.pend.getLsbD v.val && s.msix.cond.getLsbD v.val then
    .next (sendVector { s with msix.pend := s.msix.pend &&& (vecBit v.val ^^^ BitVec.allOnes 64) } v.val)
  else .next s

/-- R653: the function enters D3hot, or returns to D0 and sends the unmasked vectors that stayed pending. -/
def execPcieDstateChange (d3 : Bool) (s : State) : Host.Outcome State Fault Refusal :=
  let was := inD3 s
  let s := fset s (.pkg 7) PB7.PCIE_STATUS_DSTATE (if d3 then 3 else 0)
  let s := if was = d3 then s else raiseInt s (.pkg 7) 4
  let s := settle 0#64 s
  if d3 then .next s
  else
    .next ((List.range 64).foldl (fun s v =>
      if s.msix.pend.getLsbD v && !s.msix.masked.getLsbD v then
        sendVector { s with msix.pend := s.msix.pend &&& (vecBit v ^^^ BitVec.allOnes 64) } v
      else s) s)

/-- R570, R578, R682: the link comes up at a speed code and width, or goes down. In recovery it trains at Gen1 x1. -/
def execPcieLinkChange (up : Bool) (speed width : Nat) (s : State) : Host.Outcome State Fault Refusal :=
  let p := Page.pkg 7
  let was := fbit s p PB7.PCIE_STATUS_LINK_UP
  let s := fsetb s p PB7.PCIE_STATUS_LINK_UP up
  let sp := if !up then 0 else if inRecovery s then 1 else speed
  let wd := if !up then 0 else if inRecovery s then 1 else width
  let s := fset (fset s p PB7.PCIE_STATUS_SPEED sp) p PB7.PCIE_STATUS_WIDTH wd
  let s := if was && !up then finc s p PB7.LINK_DOWN else s
  let s := if was = up then s else raiseInt s p 0
  done (maybeWaitHost s)

end Sys2Proof.Machine
end

