-- ==== Sys2Proof/Machine/Jtag.lean ====
section
/-!
DEFINITION. The JTAG port (R643, R644). While TRSTn is low the test access port is held in reset and takes nothing.
-/

namespace Sys2Proof.Machine

/-- Load the instruction register, if the port is not held in reset. -/
def jtagLoad (s : State) (f : Jtag → Jtag) : Host.Outcome State Fault Refusal :=
  if s.rst.trstN then .next { s with jtag := f s.jtag } else .next s

/-- R643, code 0x00: the boundary cells preloaded drive the pins. -/
def execExtest (s : State) : Host.Outcome State Fault Refusal :=
  jtagLoad s (fun j => { j with ir := 0x00#8, driving := true })

/-- R643, code 0x01: the boundary cells take the values shifted in; the pins keep their function. -/
def execSamplePreload (cells : List Bool) (s : State) : Host.Outcome State Fault Refusal :=
  jtagLoad s (fun j => { j with ir := 0x01#8, driving := false, boundary := cells })

/-- R643, code 0x02: the identification code is captured for shifting out. -/
def execIdcode (s : State) : Host.Outcome State Fault Refusal :=
  jtagLoad s (fun j => { j with ir := 0x02#8, driving := false,
                                shiftOut := s.fuse.siliconRev % 16 * 2 ^ 28 + 0x2640 * 2 ^ 12 + 0x2B5 * 2 + 1 })

/-- R643: BYPASS, which every other code acts as: the one-bit bypass register, which captures 0. -/
def execJtagBypass (code : BitVec 8) (s : State) : Host.Outcome State Fault Refusal :=
  jtagLoad s (fun j => { j with ir := code, driving := false, shiftOut := 0 })

/-- R644: the regions that a debug access may reach. -/
def debugRegion (r : Nat) : Bool := r = 0 || r = 1 || r = 3

/-- R632, R644: Update-DR of DBG_ACCESS makes one aligned 32-bit access as master DEBUG, while DEBUG_EN is set. A denied
access reads zero and sets DENIED. -/
def execDbgAccessUpdate (wr : Bool) (addr : BitVec 58) (data : Word) (s : State) : Host.Outcome State Fault Refusal :=
  if !s.rst.trstN then .next s
  else
    let s := { s with jtag.ir := 0x10#8, jtag.driving := false }
    let a := addr.toNat
    if !fbit s (.pkg 9) PB9.ACC_CTRL_DEBUG_EN then .next { s with jtag.done := false }
    else if a % 4 ≠ 0 ∨ a / 2 ^ 48 ≠ ownNode s ∨ !debugRegion (a / 2 ^ 44 % 16) then
      .next { s with jtag.done := true, jtag.denied := true, jtag.rdata := 0#32 }
    else
      let rq : Requester := ⟨midDebug, false, none⟩
      if wr then
        let r := masterWrite s rq a (toLe 4 data.toNat)
        done { r.2 with jtag.done := true, jtag.denied := decide (r.1 ≠ .ok) }
      else
        let r := masterRead s rq a 4
        let v := if r.1 = .ok then leNat r.2.1 else 0
        done { r.2.2 with jtag.done := true, jtag.denied := decide (r.1 ≠ .ok), jtag.rdata := BitVec.ofNat 32 v }

/-- R644: Capture-DR of DBG_ACCESS: the last read data, DONE in [32] and DENIED in [33]. -/
def execDbgAccessCapture (s : State) : Host.Outcome State Fault Refusal :=
  if !s.rst.trstN then .next s
  else
    let d := s.jtag.done && fbit s (.pkg 9) PB9.ACC_CTRL_DEBUG_EN
    .next { s with jtag.ir := 0x10#8, jtag.driving := false,
                   jtag.shiftOut := s.jtag.rdata.toNat + b2n d * 2 ^ 32 + b2n s.jtag.denied * 2 ^ 33 }

/-- R641: the quote is signed and written at QUOTE_DST as the master that wrote GO. An unaligned destination leaves it
unwritten and counts; a refused write leaves QUOTE_DONE unset. -/
def execQuoteDone (s : State) : Host.Outcome State Fault Refusal :=
  match s.att.quote with
  | none => .next s
  | some q =>
    let p := Page.pkg 9
    let head := q.head.map BitVec.toNat
    let sig := (List.range 2420).map (fun i => (Config.signatureByte head s.free i).toNat)
    let dst := fget s p PB9.QUOTE_DST_LO + fget s p PB9.QUOTE_DST_HI * 2 ^ 32
    let s := tickFree (fsetb { s with att.quote := none } p PB9.ACC_STATUS_QUOTE_BUSY false)
    if dst % 64 ≠ 0 then done (viol s p)
    else
      let r := masterWrite s q.rq dst (head ++ sig ++ List.replicate 12 0)
      done (if r.1 = .ok then raiseInt r.2 p 1 else r.2)

end Sys2Proof.Machine
end

