-- ==== Sys2Proof/Machine/Mailbox.lean ====
section
/-!
DEFINITION. The mailbox (R669 to R673): scans, and the messages NOP, SPAWN, KILL and FREE that firmware carries out.
-/

namespace Sys2Proof.Machine

/-! ### Pages and slots -/

/-- The global address of a mailbox page in d0's DRAM (R683). -/
def mbxPage (s : State) (pg : Nat) : Nat := ownNode s * 2 ^ 48 + (eget s (.pkg 11) PB11.MBX_BASE + pg) * 4096

/-- The global address of a slot (R669). -/
def mbxSlot (s : State) (e : Nat × Nat) : Nat := mbxPage s e.1 + 0x80 + 128 * e.2

/-- Firmware reads bytes; zeros where the access fails (R513). -/
def fwRead (s : State) (g n : Nat) : List Nat × State :=
  match busRead s rqCC none g n with
  | (.ok, bs, s) => (bs, s)
  | (_, _, s) => (List.replicate n 0, s)

/-- Firmware writes bytes. -/
def fwWrite (s : State) (g : Nat) (bs : List Nat) : State := (busWrite s rqCC none g bs).2

/-- A field of a slot's bytes. -/
def mbxArg (b : List Nat) (off n : Nat) : Nat := leNat ((b.drop off).take n)

/-- Argument bytes `lo` to `hi - 1` are zero (R671). -/
def mbxZero (b : List Nat) (lo hi : Nat) : Bool := ((b.drop lo).take (hi - lo)).all (· = 0)

/-- The POSTED slots of a page in ascending (SEQ − LAST_SEQ) (R670). -/
def postedOn (a : List (Nat × Nat) × State) (pg : Nat) : List (Nat × Nat) × State :=
  let (b, s) := fwRead a.2 (mbxPage a.2 pg) 4096
  let last := mbxArg b 4 4
  let slots := (List.range 31).filter (fun i => b.getD (0x80 + 128 * i) 0 = 1)
  let order := sortBy (fun i => (mbxArg b (0x84 + 128 * i) 4 + 2 ^ 32 - last) % 2 ^ 32) slots
  (a.1 ++ order.map (fun i => (pg, i)), s)

/-- A scan ends: every page counts it. -/
def endScan (s : State) : State :=
  let s := finc (fsetb s (.pkg 11) PB11.MBX_STATUS_SCANNING false) (.pkg 11) PB11.MBX_SCANS
  (List.range (eget s (.pkg 11) PB11.MBX_CTRL)).foldl (fun s pg =>
    let (b, s) := fwRead s (mbxPage s pg) 4
    fwWrite s (mbxPage s pg) (toLe 4 ((leNat b + 1) % 2 ^ 32))) s

/-! ### Messages -/

/-- What a message comes to: its STATUS, the bytes of its result, and the state. -/
abbrev MbxRun := Nat × List Nat × State

/-- Carry out the message at the head of the scan (R670). -/
def carryOut (s : State) (e : Nat × Nat) (run : List Nat → State → MbxRun) : State :=
  let p := Page.pkg 11
  let g := mbxSlot s e
  let (b, s) := fwRead s g 128
  let s := fwWrite s g [2]
  let s := fwWrite (finc s p PB11.MBX_TAKEN) (mbxPage s e.1 + 4) ((b.drop 4).take 4)
  let (status, result, s) := run b s
  let s := fwWrite s (g + 2) [status]
  let s := if result.isEmpty then s else fwWrite s (g + 0x60) result
  let s := fwWrite s g [3]
  let s := if status = 0 then s else raiseInt (finc s p PB11.MBX_REFUSED) p 1
  let s := if bit (b.getD 3 0) 0 then raiseInt s p 0 else s
  let rest := s.mbx.drop 1
  let s := { s with mbx := rest }
  if rest.isEmpty then endScan s else s

/-- The OP of the message at the head of the scan in progress. -/
def headOp (s : State) : Option ((Nat × Nat) × Nat) :=
  match s.mbx with
  | [] => none
  | e :: _ => some (e, ((fwRead s (mbxSlot s e) 2).1).getD 1 0)

/-- Firmware carries out messages: a control core runs (R511). -/
def mbxServes (s : State) : Bool := bootDone s && (ccRunning s 0 || ccRunning s 1)

/-- MBX_SCAN (R670): with no scan running, one that was triggered takes every POSTED slot; while one runs, a message whose OP
is not in the table is answered BAD_OP. -/
def execMbxScan (s : State) : Host.Outcome State Fault Refusal :=
  if !mbxServes s then .next s
  else
    match headOp s with
    | some (e, op) => if op < 4 then .next s else done (carryOut s e (fun _ s => (1, [], s)))
    | none =>
      if !fbit s (.pkg 11) PB11.MBX_STATUS_TRIGGERED then .next s
      else
        let s := fsetb (fsetb s (.pkg 11) PB11.MBX_STATUS_TRIGGERED false) (.pkg 11) PB11.MBX_STATUS_SCANNING true
        let r := (List.range (eget s (.pkg 11) PB11.MBX_CTRL)).foldl postedOn ([], s)
        let s := { r.2 with mbx := r.1 }
        done (if r.1.isEmpty then endScan s else s)

/-- Carry out the head of the scan when it has this OP. -/
def mbxOp (s : State) (op : Nat) (run : Nat × Nat → List Nat → State → MbxRun) : Host.Outcome State Fault Refusal :=
  match headOp s with
  | some (e, o) => if mbxServes s && o = op then done (carryOut s e (run e)) else .next s
  | none => .next s

/-- NOP (R671). -/
def runNop (_ : Nat × Nat) (b : List Nat) (s : State) : MbxRun :=
  if mbxZero b 8 0x60 then (0, toLe 4 (fget s (.die 0 9) DB9.FW_VERSION), s) else (2, [], s)

/-- The mailbox NOP. -/
def execNop (s : State) : Host.Outcome State Fault Refusal := mbxOp s 0 runNop

/-- A page may name a domain (R672, R683). -/
def mbxMayName (s : State) (pg dom : Nat) : Bool := bit (fget s (.pkg 11) (PB11.MBX_DOMAINS pg)) dom

/-- FREE contexts of a slot. -/
def freeCount (s : State) (slot : Nat) : Nat := 2048 - (liveCount s slot)
where
  /-- Contexts of a slot that are not FREE. -/
  liveCount (s : State) (slot : Nat) : Nat := (s.ctx.filter (fun e => e.1 / 2048 = slot)).length

/-- The logical core that CORE names (R672): with 0xFF the in-service one with the most FREE contexts, ties to the lowest. -/
def mbxCore (s : State) (core : Nat) : Option (Nat × Nat) :=
  if core < 32 then (coreInService s core).map (fun k => (core, k))
  else
    let all := (List.range 32).filterMap (fun l => (coreInService s l).map (fun k => (l, k)))
    all.foldl (fun best e =>
      match best with
      | none => some e
      | some b => if freeCount s b.2 < freeCount s e.2 then some e else some b) none

/-- SPAWN (R671, R672). -/
def runSpawn (e : Nat × Nat) (b : List Nat) (s : State) : MbxRun :=
  let dom := b.getD 8 0; let cls := b.getD 9 0; let core := b.getD 10 0; let ntf := b.getD 12 0
  let pc := mbxArg b 0x10 8
  if dom < 16 ∧ !mbxMayName s e.1 dom then (3, [], s)
  else if dom > 15 ∨ cls > 3 ∨ (32 ≤ core ∧ core ≠ 0xFF) ∨ pc % 4 ≠ 0 ∨ pc ≥ 2 ^ 58 ∨ bit ntf 6 ∨
      !mbxZero b 11 12 ∨ !mbxZero b 13 16 ∨ !mbxZero b 0x38 0x60 then (2, [], s)
  else match mbxCore s core with
    | none => (4, [], s)
    | some (l, k) =>
      let regs := (List.range 4).map (fun i => (i + 1, mbxArg b (0x18 + 8 * i) 8)) ++ [(5, 2 ^ 63 + e.1 * 256 + e.2)]
      match startThread s k pc cls dom regs (if bit ntf 7 then some (l, bits ntf 0 6) else none) with
      | none => (5, [], s)
      | some (c, s) => (0, toLe 8 (threadId s k c), s)

/-- The mailbox SPAWN. -/
def execMbxSpawn (s : State) : Host.Outcome State Fault Refusal := mbxOp s 1 runSpawn

/-- The slot and context of a thread ID, where it names a context of a core in service that is not FREE. -/
def mbxThread (s : State) (id : Nat) : Option (Nat × Nat) :=
  if id < 65536 then
    match coreInService s (id / 2048) with
    | some k => if (ctxAt s k (id % 2048)).st = .free then none else some (k, id % 2048)
    | none => none
  else none

/-- KILL and FREE (R672): the checks that both make, and what is done to the context. -/
def runCtx (ok : Ctx → Bool) (act : State → Nat → Nat → State) (e : Nat × Nat) (b : List Nat) (s : State) : MbxRun :=
  if !mbxZero b 0x10 0x60 then (2, [], s)
  else match mbxThread s (mbxArg b 8 8) with
    | none => (2, [], s)
    | some (k, c) =>
      let x := ctxAt s k c
      if !mbxMayName s e.1 x.domain then (3, [], s)
      else if ok x then (0, [], act s k c) else (2, [], s)

/-- The mailbox KILL. -/
def execKill (s : State) : Host.Outcome State Fault Refusal := mbxOp s 2 (runCtx (fun _ => true) killCtx)

/-- The mailbox FREE. -/
def execFree (s : State) : Host.Outcome State Fault Refusal :=
  mbxOp s 3 (runCtx (fun x => x.st = .faulted) freeCtx)

end Sys2Proof.Machine
end

