-- ==== Sys2Proof/Machine/Nbr.lean ====
section
/-!
DEFINITION. The distance engine (R201 to R213): a request is accepted when its queue passes it on, waits for its windows,
and runs its queries.
-/

namespace Sys2Proof.Machine

/-- The square root of an FP32 value, rounded to nearest even (R204); the ordering values are finite and not negative. -/
def f32sqrt (a : Nat) : Nat :=
  match f32v a with
  | .fin m e =>
    let n := (m.natAbs * 2 ^ (if e % 2 = 0 then 60 else 61) : Nat)
    let r := (List.range 64).foldr (fun i r => if (r + 2 ^ i) * (r + 2 ^ i) ≤ n then r + 2 ^ i else r) 0
    f32r (.fin (2 * r + (if r * r = n then 0 else 1) : Nat) (((if e % 2 = 0 then e else e - 1) - 60) / 2 - 1))
  | _ => f32r (f32v a)

/-- A query (R202): the reference its list carries, its position, its key and its tread; none of them for an invalid one. -/
structure Query where
  ref : Nat
  body : Option (List Nat × List Int × Nat)

/-- The position of a cell of a grid (R202): its centre, or with POINT the kept point of grid 0. -/
def cellPos (s : State) (d : Nat) (x : Slot) (id pos n : Nat) (key : List Int) : List Nat :=
  if pos = 1 then rebuild x.voxel (readCell s d (x.frame % 4) n) else voxelCentre (gridVoxel s x id) key

/-- The query at a cell of a die. -/
def cellQuery (s : State) (t : Ti) (x : Slot) (d n ref : Nat) : Query :=
  match cellOf s d (t.d 4 4) (t.d 8 1) n with
  | some c => ⟨ref, some (cellPos s d x (t.d 8 1) (t.d 2 1) n c.1, c.1, c.2)⟩
  | none => ⟨ref, none⟩

/-- The query at a given position; one that is not finite has no key and no candidates. -/
def pointQuery (s : State) (x : Slot) (id : Nat) (bs : List Nat) : Query :=
  let p := (chunks 4 3 bs).map leNat
  let vox := gridVoxel s x id
  let cs := (List.range 3).map (fun i =>
    if f32fin (p.getD i 0) then f32floor (f32div (p.getD i 0) (voxelSize (vox.getD i 0))) else none)
  match cs with
  | [some a, some b, some c] => ⟨0xFFFFFFFF, some (p, [a, b, c], treadOf x.b x.code p)⟩
  | _ => ⟨0xFFFFFFFF, some (p, [], 0)⟩

/-- The queries of a request on die `d`, with its source bytes (R202, R207). -/
def queriesOf (s : State) (t : Ti) (d : Nat) (x : Slot) (src : List Nat) : List Query :=
  let f := t.d 4 4
  let id := t.d 8 1
  match t.d 0xB 1 with
  | 0 => (cellsOf s d f id (t.d 0xC 1)).map (fun n => cellQuery s t x d n (cellRef d n))
  | 1 => (chunks 4 (t.d 0xC 4) src).map (fun b =>
    let r := leNat b
    if r = 0xFFFFFFFF ∨ bits r 21 10 ≠ 0 then ⟨r, none⟩ else cellQuery s t x (r / 2 ^ 31) (r % 2 ^ 21) r)
  | _ => (chunks 16 (t.d 0xC 4) src).map (fun b => pointQuery s x id b)

/-- H of a request by axis (R203). -/
def boxHalf (s : State) (t : Ti) (x : Slot) : List Nat :=
  (List.range 3).map (fun i =>
    if t.d 0 1 = 1 then t.d 0x14 1
    else
      match f32floor (f32neg (f32div (t.d 0x10 4) (voxelSize ((gridVoxel s x (t.d 8 1)).getD i 0)))) with
      | some v => (-v).toNat + 1
      | none => 9)

/-- What a query finds: (ordering value, reference, distance), whether a candidate lay outside the window (how many), and
how many lookups found the other die down. -/
structure Found where
  list : List (Nat × Nat × Nat)
  cut : Nat
  down : Nat

/-- The ordering value and the distance between two positions (R204). -/
def ordering (metric : Nat) (q p : List Nat) : Nat × Nat :=
  let dd := (List.range 3).map (fun i => f32sub (p.getD i 0) (q.getD i 0))
  if metric = 0 then
    let v := f32add (f32add (f32mul (dd.getD 0 0) (dd.getD 0 0)) (f32mul (dd.getD 1 0) (dd.getD 1 0)))
      (f32mul (dd.getD 2 0) (dd.getD 2 0))
    (v, f32sqrt v)
  else
    let v := dd.foldl (fun m a => f32max m (a % 2 ^ 31)) 0
    (v, v)

/-- A present cell of the box (R203, R204). -/
def tryNear (s : State) (t : Ti) (x : Slot) (win : List Nat) (ref : Nat) (q : List Nat) (z : Found) (key : List Int) :
    Found :=
  let f := t.d 4 4
  let id := t.d 8 1
  if !keyOk key then z
  else
    let tr := keyTread s x id key
    let d := homeDie x.code tr
    if !win.contains tr then
      if !outOfService s (.point d) && (gridLookup s d f id key).isSome then { z with cut := z.cut + 1 } else z
    else if outOfService s (.point d) then { z with down := z.down + 1 }
    else
      match gridLookup s d f id key with
      | none => z
      | some n =>
        if t.d 3 1 = 1 ∧ cellRef d n = ref then z
        else
          let o := ordering (t.d 1 1) q (cellPos s d x id (t.d 2 1) n key)
          let r := t.d 0x10 4
          let keep := t.d 0 1 = 1 || f32le o.1 (if t.d 1 1 = 0 then f32mul r r else r)
          if keep then { z with list := (o.1, cellRef d n, o.2) :: z.list } else z

/-- The keys of the box around a key. -/
def boxAround (h : List Nat) (key : List Int) : List (List Int) :=
  let axis := fun (i : Nat) => (List.range (2 * h.getD i 0 + 1)).map (fun (j : Nat) => key.getD i 0 + (j : Int) - (h.getD i 0 : Int))
  (axis 0).flatMap (fun a => (axis 1).flatMap (fun b => (axis 2).map (fun c => [a, b, c])))

/-- What a query with a key finds. -/
def findNear (s : State) (t : Ti) (x : Slot) (ref : Nat) (b : List Nat × List Int × Nat) : Found :=
  if b.2.1.isEmpty then ⟨[], 0, 0⟩
  else
    let win := windowOf (treadCount x.code) (t.d 0xA 1) b.2.2
    (boxAround (boxHalf s t x) b.2.1).foldl (tryNear s t x win ref b.1) ⟨[], 0, 0⟩

/-- The bytes of a list (R206). -/
def listBytes (k ref flags : Nat) (kept : List (Nat × Nat × Nat)) : List Nat :=
  let es := kept.take k
  toLe 4 ref ++ [min 255 kept.length, es.length, flags, 0] ++ es.flatMap (fun e => toLe 4 e.2.1 ++ toLe 4 e.2.2) ++
    (List.replicate (k - es.length) (toLe 4 0xFFFFFFFF ++ toLe 4 0x7F800000)).flatten

/-- The distance between lists. -/
def listStride (k : Nat) : Nat := (8 + 8 * k + 63) / 64 * 64

/-- Write a list: into the neighbour-list store without a check (R623), elsewhere with the thread's domain. -/
def nbrPut (w : Who) (s : State) (g : Nat) (bs : List Nat) : Run State :=
  match locate s g bs.length with
  | .store d 3 off => .ok (wrBytes s (2 * 2 ^ 44 + d * 2 ^ 43 + 3 * 2 ^ 40 + off) bs)
  | _ => uWrite w s g bs

/-- Write list `i` of a request and count it (R205 to R207, R212, R213). -/
def runQuery (w : Who) (t : Ti) (d : Nat) (x : Slot) (s : State) (e : Query × Nat) : Run State := do
  let k := t.d 9 1
  let p := Page.die d 4
  let z := match e.1.body with
    | some b => findNear s t x e.1.ref b
    | none => ⟨[], 0, 0⟩
  let kept := sortBy (fun c => c.1 * 2 ^ 32 + c.2.1) z.list
  let bad := e.1.body.isNone
  let fl := b2n (z.cut ≠ 0) + 2 * b2n (z.down ≠ 0) + 4 * b2n bad + 8 * b2n (min 255 kept.length > k)
  let s ← nbrPut w s (t.d 0x20 8 + e.2 * listStride k) (listBytes k e.1.ref fl kept)
  let s := finc s p DB4.QUERIES
  let s := if kept.length ≥ 255 then finc s p DB4.SATURATED else s
  let s := if min 255 kept.length > k then finc s p DB4.TRUNCATED else s
  let s := if z.cut ≠ 0 then raiseInt (fadd s p DB4.WINDOW_CUT z.cut) p 4 else s
  let s := if bad then raiseInt (finc s p DB4.INVALID) p 1 else s
  pure (if z.down ≠ 0 then raiseInt (fadd s p DB4.REMOTE_DOWN z.down) p 2 else s)

/-- The record that word 3 names (R442). -/
def nbrRecord (w : Who) (t : Ti) (s : State) (status lists : Nat) : List UnitOut :=
  if t.w3 = 0xFFFFFFFF then []
  else [.write (ownAt w s t.w3) (if status = 0 then toLe 4 0 ++ toLe 4 lists ++ List.replicate 24 0 else [status])]

/-- A descriptor that R208 calls BAD_DESC on its face. -/
def nbrBad (t : Ti) : Bool :=
  let r := t.d 0x10 4
  t.d 0 1 > 1 || t.d 1 1 > 1 || t.d 2 1 > 1 || (t.d 2 1 = 1 && t.d 8 1 ≠ 0) || t.d 3 1 > 1 || t.d 8 1 > 15 ||
  t.d 9 1 < 1 || t.d 9 1 > 64 || t.d 0xB 1 > 2 ||
  (t.d 0 1 = 0 && (!f32fin r || f32lt r 0)) || (t.d 0 1 = 1 && (t.d 0x14 1 < 1 || t.d 0x14 1 > 8)) ||
  !t.dZero 0x15 3 || t.d 0x28 1 > 31 || t.d 0x29 1 > 63 || t.d 0x2A 1 > 1 || !t.dZero 0x2B 21

/-- The die of a request (R201): the tread's home die for SEGMENT, else the issuing core's. -/
def nbrDie (s : State) (slot : Nat) (t : Ti) : Nat :=
  match t.d 0xB 1, frameSlot s (slotDie slot) (t.d 4 4) with
  | 0, some x => homeDie x.code (t.d 0xC 1)
  | _, _ => slotDie slot

/-- The STATUS of a request (R208). -/
def nbrStatus (s : State) (d : Nat) (t : Ti) : Nat :=
  if !ebit s (.die d 4) DB4.DE_CTRL then 6
  else if nbrBad t then 1
  else
    match slotFor s d (t.d 4 4) with
    | none => 2
    | some x =>
      if t.d 8 1 = 0 && evenOpened s (t.d 4 4) then 2
      else if !gridExists s (t.d 4 4) (t.d 8 1) then 5
      else if (boxHalf s t x).any (· > 8) || (t.d 0xB 1 = 0 && t.d 0xC 4 ≥ treadCount x.code) then 1
      else 0

/-- The bytes that a request reads as its source. -/
def nbrSource (t : Ti) : Nat := match t.d 0xB 1 with | 0 => 0 | 1 => 4 * t.d 0xC 4 | _ => 16 * t.d 0xC 4

/-- The request completes: its notification follows its retirement (R209). -/
def nbrComplete (w : Who) (t : Ti) (s : State) (d lists : Nat) : List UnitOut × State :=
  let s := finc s (.die d 4) DB4.REQUESTS
  (nbrRecord w t s 0 lists, match tiAt s w.slot w.id with
    | some t => putTi s w.slot { t with prog := [1] }
    | none => s)

/-- NBR_QUERY at its engine: refused, done at once when it has no queries, or accepted to wait for its windows. -/
def nbrAccept (s : State) (slot id : Nat) (t : Ti) : State :=
  let w := whoOf slot t
  let d := nbrDie s slot t
  if t.d 0x20 8 % 64 ≠ 0 then tiFault s slot id fAlign
  else if outOfService s (.point d) then tiFault (stubAnswered s) slot id fTargetReset
  else if quiescing s (.die d 4) then s
  else
    let st := nbrStatus s d t
    if st ≠ 0 then
      uComputed w (raiseInt (finc s (.die d 4) DB4.REFUSED) (.die d 4) 0) (nbrRecord w t s st 0)
    else if t.d 0xB 1 ≠ 0 ∧ t.d 0xC 4 = 0 then
      let r := nbrComplete w t s d 0
      uComputed w r.2 r.1
    else
      match uRead w s (t.d 0x18 8) (nbrSource t) with
      | .ok (src, s) => { putTi s slot { t with prog := src } with nbr := s.nbr ++ [⟨d, slot, id⟩] }
      | .error (.fault c s) => tiFault s slot id c
      | .error (.need g len) => uAsk w s g len
      | .error .wait => s

/-- NBR_QUERY run by its engine; once accepted only its completion goes on. -/
def nbrQueryRun (s : State) (slot id : Nat) : Host.Outcome State Fault Refusal :=
  match tiAt s slot id with
  | none => .next s
  | some t =>
    if t.op ≠ 0xC9 ∨ outOfService s (.core slot) ∨ s.nbr.any (fun q => q.slot = slot ∧ q.id = id) then .next s
    else
      match t.phase with
      | .running => done (nbrAccept s slot id t)
      | .ending => done (uEnd (whoOf slot t) s)
      | _ => .next s

/-- Every tread in the windows of a request's queries is complete (R209). -/
def nbrReady (s : State) (q : NbrReq) : Bool :=
  match tiAt s q.slot q.id with
  | none => true
  | some t =>
    match slotFor s q.die (t.d 4 4) with
    | none => false
    | some x =>
      let full := fun k => (windowOf (treadCount x.code) (t.d 0xA 1) k).all (gridComplete s (t.d 4 4) (t.d 8 1))
      (t.d 0xB 1 ≠ 0 || full (t.d 0xC 1)) &&
        (queriesOf s t q.die x t.prog).all (fun e => match e.body with
          | some b => b.2.1.isEmpty || full b.2.2
          | none => true)

/-- The time that a request takes at most (R209): V is the box volume over its queries. -/
def nbrBoundNs (s : State) (t : Ti) (x : Slot) (n : Nat) : Nat :=
  500 + n * ((boxHalf s t x).map (fun h => 2 * h + 1)).foldl (· * ·) 1 * 10 / 44

/-- The work of a request: its queries in order, with the lists and counts. -/
def nbrWork (w : Who) (t : Ti) (d : Nat) (x : Slot) (s : State) : Run (List UnitOut × State) := do
  let qs := queriesOf s t d x t.prog
  let s ← qs.zipIdx.foldlM (fun s e => runQuery w t d x s e) s
  let ns := (Config.freeWord s.free).toNat % (nbrBoundNs s t x qs.length + 1)
  let s := fset (tickFree s) (.die d 4) DB4.REQ_MAX_NS (max (fget s (.die d 4) DB4.REQ_MAX_NS) ns)
  pure (nbrComplete w t s d qs.length)

/-- NBR_REQUEST_RUN (R209): the first request of a die whose windows are complete runs. The time it takes is open below its
bound. -/
def execNbrRequestRun (d : Fin 2) (s : State) : Host.Outcome State Fault Refusal :=
  if outOfService s (.point d.val) then .next s
  else
    match s.nbr.find? (fun q => q.die = d.val && nbrReady s q) with
    | none => .next s
    | some q =>
      let s := { s with nbr := s.nbr.filter (fun e => e ≠ q) }
      match tiAt s q.slot q.id with
      | none => .next s
      | some t =>
        match slotFor s d.val (t.d 4 4) with
        | none => .next s
        | some x => done (uConclude (whoOf q.slot t) s (nbrWork (whoOf q.slot t) t d.val x s))

/-- R209: reclaiming a frame's slot abandons the requests for it that wait: each retires with STATUS NO_FRAME. -/
def reclaimNbr (s : State) (f : Nat) : State :=
  let mine := fun (q : NbrReq) => match tiAt s q.slot q.id with
    | some t => t.d 4 4 = f
    | none => true
  let gone := s.nbr.filter mine
  gone.foldl (fun s q =>
    let s := raiseInt (finc s (.die q.die 4) DB4.ABANDONED) (.die q.die 4) 3
    match tiAt s q.slot q.id with
    | some t => uComputed (whoOf q.slot t) s (nbrRecord (whoOf q.slot t) t s 2 0)
    | none => s) { s with nbr := s.nbr.filter (fun q => !mine q) }

/-- The declared ranges of NBR_QUERY (R436, R442); the lists of a SEGMENT are as many as the tread has cells at entry. -/
def nbrRanges (s : State) (slot : Nat) (t : Ti) : List Range :=
  let lists := match t.d 0xB 1 with
    | 0 => (cellsOf s (nbrDie s slot t) (t.d 4 4) (t.d 8 1) (t.d 0xC 4)).length
    | _ => t.d 0xC 4
  hullRange s slot true false [(t.d 0x18 8, nbrSource t)] ++
  hullRange s slot false true [(t.d 0x20 8, if lists = 0 then 0 else (lists - 1) * listStride (t.d 9 1) + 8 + 8 * t.d 9 1)] ++
  (if t.w3 = 0xFFFFFFFF then [] else mkRange false true t.w3 32)

end Sys2Proof.Machine
end

