-- ==== Sys2Proof/Machine/Ptp.lean ====
section
/-!
DEFINITION. PTP (R55 to R64): validity, best master selection, delay measurement, offset samples, and the correction of
relayed messages. Times are integers in 2^-16 ns. A frame that ETHERNET_FRAME_RECEIVE takes is handled by the same
operations (Machine/Ports.lean).
-/

namespace Sys2Proof.Machine

/-- PROFILE in effect: 0 end-to-end, 1 peer-to-peer, 2 gPTP. -/
def ptpProfile (s : State) : Nat := eget s (.pkg 2) PB2.TIME_CTRL_PROFILE

/-- The shortest messageLength of a messageType (IEEE 1588); none for a reserved type. -/
def ptpMinLength (typ : Nat) : Option Nat :=
  match typ with
  | 0 => some 44
  | 1 => some 44
  | 2 => some 54
  | 3 => some 54
  | 8 => some 44
  | 9 => some 54
  | 10 => some 54
  | 11 => some 64
  | 12 => some 44
  | 13 => some 48
  | _ => none

/-- R109: the message's fields are possible. -/
def ptpValid (m : PtpMsg) : Bool :=
  m.version = 2 &&
    (match ptpMinLength m.typ with | some n => decide (n ≤ m.length) | none => false) &&
    decide (-7 ≤ m.logInterval) && decide (m.logInterval ≤ 7)

/-- The port identity of the part on a ring port: PORT0_MAC as an EUI-64 and the port number. -/
def ownPortId (s : State) (port : Nat) : Nat :=
  let hi := fget s (.pkg 4) (PB4.PORT_MAC_HI 0)
  let lo := fget s (.pkg 4) (PB4.PORT_MAC_LO 0)
  (((hi * 256 + lo / 2 ^ 24) * 65536 + 0xFFFE) * 2 ^ 24 + lo % 2 ^ 24) * 65536 + port + 1

/-- LINK_DELAY of a ring port, in 2^-16 ns. -/
def linkDelay (s : State) (port : Nat) : Int :=
  fget s (.pkg 2) (if port = 0 then PB2.LINK_DELAY0 else PB2.LINK_DELAY1)

/-- A peer delay measurement that has not begun. -/
def Pdelay.idle : Pdelay := ⟨none, none, none, 0, false⟩

/-- The peer delay measurement of a ring port. -/
def pdelayAt (s : State) (port : Nat) : Pdelay := SMap.getD s.tb.pdelay port Pdelay.idle

/-- Hold a peer delay measurement. -/
def setPdelay (s : State) (port : Nat) (x : Pdelay) : State := { s with tb.pdelay := SMap.put s.tb.pdelay port x }

/-- Count a message that the time base does not use. -/
def ptpReject (s : State) : State := finc s (.pkg 2) PB2.PTP_REJECT

/-- Send a message. -/
def ptpSend (s : State) (port : Nat) (m : PtpMsg) : State := { s with tb.sent := (port, m) :: s.tb.sent }

/-! ### Corrections of relayed messages (R58 to R62) -/

/-- Add to a correctionField (R62). -/
def addCorr (s : State) (m : PtpMsg) (k : Int) : PtpMsg × State :=
  let top : Int := 0x7FFFFFFFFFFFFFFF
  let sum := m.corr + k
  if m.corr = top ∨ sum > top ∨ sum < -top - 1 then
    ({ m with corr := top }, raiseInt (finc s (.pkg 2) PB2.CORR_SAT) (.pkg 2) 3)
  else ({ m with corr := sum }, s)

/-- The residence entry that a message of this identity names, on its ingress port. -/
def residFor (port : Nat) (m : PtpMsg) (e : Residence) : Bool :=
  e.port = port && e.seq = m.seq && e.src = m.src && e.domain = m.domain

/-- R60: hold a residence entry; a seventeenth of its direction displaces the oldest. -/
def holdResid (s : State) (e : Residence) : State :=
  let others := s.tb.resid.filter (fun x => !(x.port = e.port && x.seq = e.seq && x.src = e.src && x.domain = e.domain))
  let same := others.filter (fun x => x.port = e.port)
  let kept := if same.length ≥ 16 then
      match same with
      | o :: _ => others.filter (fun x => x ≠ o)
      | [] => others
    else others
  { s with tb.resid := kept ++ [e] }

/-- r + d scaled by the upstream rate ratio of a gPTP Follow_Up (R58). -/
def gptpScale (v off : Int) : Int := v + (v * off).tdiv (2 ^ 41)

/-- A Follow_Up that matches an entry of known residence leaves with its correction (R58, R61). -/
def relayFollowUp (s : State) (port : Nat) (m : PtpMsg) (e : Residence) (r : Int) : State :=
  let s := { s with tb.resid := s.tb.resid.filter (fun x => x ≠ e) }
  let g := ptpProfile s = 2
  let k := if g then gptpScale r m.rateOffset else r
  let (m, s) := addCorr s m k
  let m := if g then { m with rateOffset := m.rateOffset + (pdelayAt s port).rateOffset } else m
  ptpSend s (1 - port) m

/-- Relay of a PTP message whose residence time is `r`: the message sent on, corrected as R58 gives. -/
def ptpRelay (s : State) (port : Nat) (m : PtpMsg) (r : Int) : State :=
  let out := 1 - port
  if !ebit s (.pkg 2) PB2.TIME_CTRL_TC_EN || !ptpValid m then ptpSend s out m
  else
    let s := if m.typ ≤ 1 then fset s (.pkg 2) PB2.RESID_LAST (wrap 32 r) else s
    let prof := ptpProfile s
    let d := if prof = 0 then 0 else linkDelay s port
    match m.typ with
    | 0 =>
      if m.twoStep then
        ptpSend (holdResid s ⟨port, m.seq, m.src, m.domain, some (r + d), s.now⟩) out m
      else if prof = 2 then ptpSend s out m
      else
        let (m, s) := addCorr s m (r + d)
        ptpSend s out m
    | 1 =>
      if prof = 0 then
        let (m, s) := addCorr s m r
        ptpSend s out m
      else ptpSend s out m
    | 2 => if prof = 0 then ptpSend s out m else s
    | 8 =>
      match s.tb.resid.find? (residFor port m) with
      | some e =>
        match e.resid with
        | some v => relayFollowUp s port m e v
        | none => { s with tb.heldFu := s.tb.heldFu ++ [(port, m)] }
      | none => ptpSend (raiseInt (finc s (.pkg 2) PB2.FU_NOMATCH) (.pkg 2) 4) out m
    | _ => ptpSend s out m

/-- The relayed copy of an event message leaves at `eg`, having come at `ing`; a Sync whose copy has not begun to leave
keeps an entry of unknown residence when it is two-step (R61). -/
def ptpRelayAt (s : State) (port : Nat) (m : PtpMsg) (ing : Int) (eg : Option Int) : State :=
  match eg with
  | some t => ptpRelay s port m (t - ing)
  | none =>
    if m.typ = 0 ∧ m.twoStep = true ∧ ptpValid m = true then
      holdResid s ⟨port, m.seq, m.src, m.domain, none, s.now⟩
    else s

/-! ### The slave -/

/-- Lexicographic order of grandmaster data. -/
def lexLt : List Nat → List Nat → Bool
  | [], [] => false
  | [], _ => true
  | _, [] => false
  | a :: as, b :: bs => if a < b then true else if b < a then false else lexLt as bs

/-- What best master selection compares (IEEE 1588): grandmaster data in order, steps removed, sender, port. -/
def announceRank (x : Nat × PtpMsg) : List Nat := x.2.grand ++ [x.2.steps, x.2.src, x.1]

/-- The best of the masters heard. -/
def bestMaster (xs : List (Nat × PtpMsg)) : Option (Nat × PtpMsg) :=
  xs.foldl (fun b x => match b with
    | none => some x
    | some y => if lexLt (announceRank x) (announceRank y) then some x else b) none

/-- The slave uses the message: possible fields, its domain, its transport enabled at the frame (R55, R57). -/
def ptpUsed (s : State) (m : PtpMsg) : Bool := ptpValid m && m.domain = eget s (.pkg 2) PB2.TIME_CTRL_DOMAIN

/-- R55: an Announce takes part in best master selection. -/
def slaveAnnounce (s : State) (port : Nat) (m : PtpMsg) : State :=
  let heard := s.tb.heard.filter (fun x => !(x.1 = port && x.2.src = m.src)) ++ [(port, m)]
  let s := { s with tb.heard := heard }
  match bestMaster heard with
  | none => s
  | some (q, b) =>
    let same := match s.tb.master with
      | some (q0, b0) => q0 = q && b0.src = b.src
      | none => false
    let s := { s with tb.master := some (q, b) }
    if same then s
    else
      let s := { s with tb.twoStep := none, tb.lastSync := none, tb.pathDelay := none }
      let s := fset (fsetb s (.pkg 2) PB2.TIME_STATUS_MASTER_VALID true) (.pkg 2) PB2.TIME_STATUS_MASTER_PORT q
      raiseInt s (.pkg 2) 1

/-- The message comes from the selected master. -/
def fromMaster (s : State) (port : Nat) (m : PtpMsg) : Bool :=
  match s.tb.master with
  | some (q, b) => q = port && b.src = m.src
  | none => false

/-- The delay from the master on a port, none before it has been measured. -/
def masterDelay (s : State) (port : Nat) : Option Int :=
  if ptpProfile s = 0 then s.tb.pathDelay
  else if (pdelayAt s port).measured then some (linkDelay s port) else none

/-- A Sync's ingress time and its origin with all corrections give an offset sample once the delay is known (R47). -/
def syncSample (s : State) (port : Nat) (ing origin : Int) : State :=
  let s := { s with tb.lastSync := some (ing, origin) }
  if timeSource s ≠ 1 then s
  else match masterDelay s port with
    | some d => offsetSample s (ing - origin - d)
    | none => s

/-- The slave's use of a Sync (R55, R56). -/
def slaveSync (s : State) (port : Nat) (m : PtpMsg) (ing : Int) : State :=
  if ptpProfile s = 2 ∧ m.twoStep = false then ptpReject s
  else if !fromMaster s port m then s
  else if m.twoStep then { s with tb.twoStep := some (port, m.seq, m.src, ing, m.corr) }
  else syncSample { s with tb.twoStep := none } port ing (m.stamp * 65536 + m.corr)

/-- The slave's use of a Follow_Up. -/
def slaveFollowUp (s : State) (port : Nat) (m : PtpMsg) : State :=
  match s.tb.twoStep with
  | some (q, seq, src, ing, corr) =>
    if q = port ∧ seq = m.seq ∧ src = m.src ∧ fromMaster s port m = true then
      syncSample { s with tb.twoStep := none } port ing (m.stamp * 65536 + corr + m.corr)
    else s
  | none => s

/-- A first delay measurement gives the sample that the last Sync was waiting for (R47). -/
def delayKnown (s : State) (port : Nat) (first : Bool) : State :=
  match s.tb.lastSync, s.tb.master with
  | some (ing, origin), some (q, _) => if first && q = port then syncSample s port ing origin else s
  | _, _ => s

/-- The slave's use of a Delay_Resp: the end-to-end path delay (R55). -/
def slaveDelayResp (s : State) (port : Nat) (m : PtpMsg) : State :=
  match SMap.find s.tb.delayReq port, s.tb.lastSync with
  | some (seq, t3), some (t2, origin) =>
    if ptpProfile s = 0 ∧ m.seq = seq ∧ m.reqId = ownPortId s port ∧ fromMaster s port m = true then
      let t4 : Int := m.stamp * 65536 - m.corr
      let first := s.tb.pathDelay.isNone
      delayKnown { s with tb.delayReq := SMap.del s.tb.delayReq port,
                          tb.pathDelay := some (((t2 - origin) + (t4 - t3)).tdiv 2) } port first
    else s
  | _, _ => s

/-- A finished peer delay measurement: LINK_DELAY and, with t3 and t4, the neighbour rate ratio (R56). -/
def pdelayDone (s : State) (port : Nat) (delay : Int) (t3t4 : Option (Int × Int)) : State :=
  let x := pdelayAt s port
  let ratio := match t3t4, x.prev with
    | some (t3, t4), some (p3, p4) =>
      if t4 = p4 then x.rateOffset else ((t3 - p3 - (t4 - p4)) * 2 ^ 41).tdiv (t4 - p4)
    | _, _ => x.rateOffset
  let s := setPdelay s port ⟨none, none, if t3t4.isSome then t3t4 else x.prev, ratio, true⟩
  let s := fset s (.pkg 2) (if port = 0 then PB2.LINK_DELAY0 else PB2.LINK_DELAY1) (wrap 32 delay)
  if ptpProfile s = 0 then s else delayKnown s port (!x.measured)

/-- The slave's use of a Pdelay_Resp received at `ing` (R56). -/
def slavePdelayResp (s : State) (port : Nat) (m : PtpMsg) (ing : Int) : State :=
  let x := pdelayAt s port
  match x.req with
  | some (seq, t1) =>
    if m.seq = seq ∧ m.reqId = ownPortId s port then
      if m.twoStep then setPdelay s port { x with resp := some (seq, m.stamp * 65536, ing, m.corr) }
      else pdelayDone s port ((ing - t1 - m.corr).tdiv 2) none
    else s
  | none => s

/-- The slave's use of a Pdelay_Resp_Follow_Up (R56). -/
def slavePdelayRespFu (s : State) (port : Nat) (m : PtpMsg) : State :=
  let x := pdelayAt s port
  match x.req, x.resp with
  | some (_, t1), some (seq, t2, t4, corr) =>
    if m.seq = seq ∧ m.reqId = ownPortId s port then
      let t3 : Int := m.stamp * 65536
      pdelayDone s port ((t4 - t1 - (t3 - t2) - corr - m.corr).tdiv 2) (some (t3, t4))
    else s
  | _, _ => s

/-- R58, R692: a Pdelay_Req is answered by a one-step Pdelay_Resp with the turnaround time added to its correction. -/
def answerPdelay (s : State) (port : Nat) (m : PtpMsg) (ing eg : Int) : State :=
  if ptpProfile s = 0 then s
  else
    let (r, s) := addCorr s m (eg - ing)
    ptpSend s port { r with typ := 3, twoStep := false, stamp := 0, src := ownPortId s port, reqId := m.src }

/-- What the time base does with a message delivered to it from port 0 or 1 (R55, R57, R109). -/
def ptpDeliver (s : State) (port : Nat) (m : PtpMsg) (ing : Int) : State :=
  if !ptpValid m then ptpReject s
  else if !ptpUsed s m then s
  else match m.typ with
    | 0 => slaveSync s port m ing
    | 2 => answerPdelay s port m ing (s.tb.dev / 65536 : Nat)
    | 3 => slavePdelayResp s port m ing
    | 8 => slaveFollowUp s port m
    | 9 => slaveDelayResp s port m
    | 10 => slavePdelayRespFu s port m
    | 11 => slaveAnnounce s port m
    | _ => s

/-- A message received on a ring port and, with an egress time, relayed to the other. -/
def ptpEvent (s : State) (port : Fin 2) (m : PtpMsg) (ing : Int) (eg : Option Int) : State :=
  let s := ptpDeliver s port.val m ing
  if pget s port.val PB4.PORTS_CTRL = 1 then ptpRelayAt s port.val m ing eg else s

/-- R58: a Sync. -/
def execSync (port : Fin 2) (m : PtpMsg) (ing : Int) (eg : Option Int) (s : State) : Host.Outcome State Fault Refusal :=
  done (ptpEvent s port { m with typ := 0 } ing eg)

/-- R61: a Follow_Up; it needs no egress time of its own. -/
def execFollowUp (port : Fin 2) (m : PtpMsg) (s : State) : Host.Outcome State Fault Refusal :=
  done (ptpEvent s port { m with typ := 8 } 0 (some 0))

/-- R61: the copy of a two-step Sync has left, at `eg` where its entry does not yet hold the residence time; its held
Follow_Up goes. -/
def execFollowUpRelease (port : Fin 2) (m : PtpMsg) (ing eg : Int) (s : State) : Host.Outcome State Fault Refusal :=
  match s.tb.resid.find? (residFor port.val m) with
  | none => .next s
  | some e =>
    let d := if ptpProfile s = 0 then 0 else linkDelay s port.val
    let v := e.resid.getD (eg - ing + d)
    let e' := { e with resid := some v }
    let s := { s with tb.resid := s.tb.resid.map (fun x => if x = e then e' else x) }
    let s := if e.resid.isNone then fset s (.pkg 2) PB2.RESID_LAST (wrap 32 (eg - ing)) else s
    match s.tb.heldFu.find? (fun x => x.1 = port.val && residFor port.val x.2 e') with
    | some h => done (relayFollowUp { s with tb.heldFu := s.tb.heldFu.filter (fun x => x ≠ h) } port.val h.2 e' v)
    | none => done s

/-- R55: an Announce. -/
def execAnnounce (port : Fin 2) (m : PtpMsg) (s : State) : Host.Outcome State Fault Refusal :=
  done (ptpEvent s port { m with typ := 11 } 0 (some 0))

/-- R55: a Delay_Resp. -/
def execDelayResp (port : Fin 2) (m : PtpMsg) (s : State) : Host.Outcome State Fault Refusal :=
  done (ptpEvent s port { m with typ := 9 } 0 (some 0))

/-- R58: a Pdelay_Req, answered at `eg` with PROFILE peer-to-peer or gPTP and not relayed then. -/
def execPdelayReq (port : Fin 2) (m : PtpMsg) (ing eg : Int) (s : State) : Host.Outcome State Fault Refusal :=
  let m := { m with typ := 2 }
  if !ptpValid m then done (ptpReject s)
  else if !ptpUsed s m then .next s
  else done (answerPdelay s port.val m ing eg)

/-- R56: a Pdelay_Resp received at `ing`. -/
def execPdelayResp (port : Fin 2) (m : PtpMsg) (ing : Int) (s : State) : Host.Outcome State Fault Refusal :=
  done (ptpDeliver s port.val { m with typ := 3 } ing)

/-- R56: a Pdelay_Resp_Follow_Up. -/
def execPdelayRespFollowUp (port : Fin 2) (m : PtpMsg) (s : State) : Host.Outcome State Fault Refusal :=
  done (ptpDeliver s port.val { m with typ := 10 } 0)

/-- REQ_INTERVAL in nanoseconds: 2^LOG_INTERVAL seconds, clamped to −4 to 4 (R90). -/
def reqInterval (s : State) : Nat :=
  let l := clampI (-4) 4 (sext 8 (fget s (.pkg 2) PB2.REQ_INTERVAL))
  if l ≥ 0 then 1000000000 * 2 ^ l.toNat else 1000000000 / 2 ^ (-l).toNat

/-- A request message of the part's own. -/
def ownRequest (s : State) (typ port : Nat) : PtpMsg :=
  ⟨typ, 2, if typ = 1 then 44 else 54, eget s (.pkg 2) PB2.TIME_CTRL_DOMAIN, false, 0, ownPortId s port,
    s.tb.reqSeq % 65536, 0, 0, 0, [], 0, 0⟩

/-- R55: at each request interval the part sends a Delay_Req to its master, or a Pdelay_Req on both ring ports. -/
def execPtpRequestInterval (s : State) : Host.Outcome State Fault Refusal :=
  let due := match s.tb.reqAt with | some t => decide (t + reqInterval s ≤ s.now) | none => true
  if !due then .next s
  else
    let t : Int := (s.tb.dev / 65536 : Nat)
    let seq := s.tb.reqSeq % 65536
    let s := { s with tb.reqAt := some s.now }
    if ptpProfile s = 0 then
      match s.tb.master with
      | some (q, _) =>
        let s := ptpSend s q (ownRequest s 1 q)
        done { s with tb.delayReq := SMap.put s.tb.delayReq q (seq, t), tb.reqSeq := seq + 1 }
      | none => done s
    else
      let s := ptpSend (ptpSend s 0 (ownRequest s 2 0)) 1 (ownRequest s 2 1)
      let s := [0, 1].foldl (fun s q => setPdelay s q { pdelayAt s q with req := some (seq, t), resp := none }) s
      done { s with tb.reqSeq := seq + 1 }

/-- R60: residence entries held for 1 s without their Follow_Up are dropped. -/
def execResidenceEntryExpire (s : State) : Host.Outcome State Fault Refusal :=
  done { s with tb.resid := s.tb.resid.filter (fun e => s.now < e.made + 1000000000) }

end Sys2Proof.Machine
end

