-- ==== Sys2Proof/Machine/Ports.lean ====
section
/-!
DEFINITION. The sensor ports (R97 to R112, R121, R730): classification of received frames, the point filter, the relay of
the ring pair, links, and the violation records.
-/

namespace Sys2Proof.Machine

/-! ### Frames as bytes -/

/-- A byte of a frame. -/
def fb (bs : List Nat) (i : Nat) : Nat := bs.getD i 0

/-- A big-endian number of a frame. -/
def fbe (bs : List Nat) (i n : Nat) : Nat := beNat ((bs.drop i).take n)

/-- The tags of a frame, at most three looked at (R97): how many, the innermost VLAN identifier, and where the Ethertype
lies. -/
def frameTags (bs : List Nat) : Nat × Nat × Nat :=
  let isTag := fun (i : Nat) => fbe bs i 2 = 0x8100 || fbe bs i 2 = 0x88A8
  if !isTag 12 then (0, 0, 12)
  else if !isTag 16 then (1, fbe bs 14 2 % 4096, 16)
  else if !isTag 20 then (2, fbe bs 18 2 % 4096, 20)
  else (3, 0, 24)

/-- IPv4 or IPv6 UDP as is_ptp and ip_udp see it: the offset of the IP header, the version, and the offset of the UDP header;
none when the Ethertype is neither or the frame has three tags. -/
def ipHeader (bs : List Nat) : Option (Nat × Nat) :=
  let (n, _, e) := frameTags bs
  if n ≥ 3 then none
  else if fbe bs e 2 = 0x0800 then some (e + 2, 4)
  else if fbe bs e 2 = 0x86DD then some (e + 2, 6)
  else none

/-- The UDP header of an unfragmented, optionless or optioned IP header. -/
def udpAt (bs : List Nat) (ip v : Nat) : Nat := if v = 4 then ip + 4 * (fb bs ip % 16) else ip + 40

/-- IPv6 extension headers (R100, R109). -/
def isExtension (nh : Nat) : Bool := [0, 43, 44, 50, 51, 60, 135, 139, 140, 253, 254].contains nh

/-- ip_udp of R100: IPv4 with protocol 17, IPv6 whose Next Header is 17 or an extension header. -/
def isIpUdp (bs : List Nat) : Bool :=
  match ipHeader bs with
  | some (ip, 4) => fb bs (ip + 9) = 17
  | some (ip, _) => fb bs (ip + 6) = 17 || isExtension (fb bs (ip + 6))
  | none => false

/-- Where a PTP message lies in a frame: Ethertype 0x88F7, or UDP destination port 319 or 320 (R100). -/
def ptpOffset (bs : List Nat) : Option Nat :=
  let (n, _, e) := frameTags bs
  if n ≥ 3 then none
  else if fbe bs e 2 = 0x88F7 then some (e + 2)
  else match ipHeader bs with
    | some (ip, v) =>
      let proto := if v = 4 then fb bs (ip + 9) else fb bs (ip + 6)
      let u := udpAt bs ip v
      if proto = 17 ∧ (fbe bs (u + 2) 2 = 319 ∨ fbe bs (u + 2) 2 = 320) then some (u + 8) else none
    | none => none

/-- Ones' complement sum of 16-bit words. -/
def onesSum (bs : List Nat) : Nat :=
  let rec go : List Nat → Nat → Nat
    | a :: b :: rest, acc => go rest (acc + a * 256 + b)
    | [a], acc => acc + a * 256
    | [], acc => acc
  let t := go bs 0
  let t := t % 65536 + t / 65536
  t % 65536 + t / 65536

/-- What the IP and UDP headers of a frame say of it (R109). -/
inductive IpCheck where
  | good | malformed | frag
  deriving DecidableEq, Repr

/-- R109: malformed IP or UDP, or fragments and extension headers. -/
def checkIpUdp (bs : List Nat) : IpCheck :=
  match ipHeader bs with
  | none => .malformed
  | some (ip, v) =>
    let len := bs.length
    let udpOk := fun (u room : Nat) (pseudo : List Nat) =>
      let ul := fbe bs (u + 4) 2
      if ul < 8 ∨ room < ul then false
      else if fbe bs (u + 6) 2 = 0 then v = 4
      else onesSum (pseudo ++ toBe 2 17 ++ toBe 2 ul ++ (bs.drop u).take ul) = 65535
    if v = 4 then
      let ihl := fb bs ip % 16
      let total := fbe bs (ip + 2) 2
      if fb bs ip / 16 ≠ 4 ∨ ihl < 5 ∨ len < ip + 4 * ihl ∨ onesSum ((bs.drop ip).take (4 * ihl)) ≠ 65535 ∨
          len < ip + total ∨ total < 4 * ihl then .malformed
      else if fbe bs (ip + 6) 2 % 0x4000 ≠ 0 then .frag
      else if udpOk (ip + 4 * ihl) (total - 4 * ihl) ((bs.drop (ip + 12)).take 8) then .good else .malformed
    else if fb bs ip / 16 ≠ 6 ∨ len < ip + 40 ∨ len < ip + 40 + fbe bs (ip + 4) 2 then .malformed
    else if isExtension (fb bs (ip + 6)) then .frag
    else if udpOk (ip + 40) (fbe bs (ip + 4) 2) ((bs.drop (ip + 8)).take 32) then .good else .malformed

/-- The source address of a frame as the point filter holds it: SRC_IP0 to SRC_IP3. -/
def sourceIp (bs : List Nat) (ip v : Nat) : List Nat :=
  if v = 4 then [fbe bs (ip + 12) 4, 0, 0, 0] else (List.range 4).map (fun j => fbe bs (ip + 8 + 4 * j) 4)

/-- R101: the point-filter entry that a frame matches. -/
def filterMatch (s : State) (n : Nat) (bs : List Nat) : Option Nat :=
  match ipHeader bs with
  | none => none
  | some (ip, v) =>
    let u := udpAt bs ip v
    let (tags, vid, _) := frameTags bs
    let src := sourceIp bs ip v
    (List.range 16).find? (fun m =>
      pget s n (PB4.PFILT_CTRL_VALID m) = 1 && bit (pget s n (PB4.PFILT_CTRL_PORT_MASK m)) n &&
      pget s n (PB4.PFILT_CTRL_IPV6 m) = b2n (v = 6) &&
      (List.range (if v = 4 then 1 else 4)).all (fun j => pget s n (PB4.PFILT_SRC_IP m j) = src.getD j 0) &&
      pget s n (PB4.PFILT_UDP m) = fbe bs (u + 2) 2 &&
      (pget s n (PB4.PFILT_CTRL_VID m) = 0 || (tags > 0 && pget s n (PB4.PFILT_CTRL_VID m) = vid)))

/-- The UDP payload of a well-formed frame. -/
def udpPayload (bs : List Nat) : List Nat :=
  match ipHeader bs with
  | some (ip, v) =>
    let u := udpAt bs ip v
    (bs.drop (u + 8)).take (fbe bs (u + 4) 2 - 8)
  | none => []

/-- A PTP message of a frame (R55). A message that claims more bytes than the frame has is given length 0. -/
def readPtp (bs : List Nat) (o : Nat) : PtpMsg :=
  let typ := fb bs o % 16
  let len := fbe bs (o + 2) 2
  let sec := fbe bs (o + 34) 6
  { typ := typ, version := fb bs (o + 1) % 16, length := if bs.length < o + len then 0 else len, domain := fb bs (o + 4),
    twoStep := bit (fb bs (o + 6)) 1, corr := sext 64 (fbe bs (o + 8) 8), src := fbe bs (o + 20) 10, seq := fbe bs (o + 30) 2,
    logInterval := sext 8 (fb bs (o + 33)), stamp := sec * 1000000000 + fbe bs (o + 40) 4, reqId := fbe bs (o + 44) 10,
    grand := [fb bs (o + 47), fb bs (o + 48), fb bs (o + 49), fbe bs (o + 50) 2, fb bs (o + 52), fbe bs (o + 53) 8],
    steps := fbe bs (o + 61) 2, rateOffset := sext 32 (fbe bs (o + 54) 4) }

/-- Replace bytes of a frame. -/
def patch (bs : List Nat) (o : Nat) (new : List Nat) : List Nat := bs.take o ++ new ++ bs.drop (o + new.length)

/-- R63: put a correctionField into a frame and update its UDP checksum incrementally (RFC 1624); an IPv4 checksum of zero
stays. -/
def patchCorr (bs : List Nat) (o : Nat) (corr : Int) : List Nat :=
  let new := toBe 8 (wrap 64 corr)
  let old := (bs.drop (o + 8)).take 8
  let bs' := patch bs (o + 8) new
  if new = old then bs
  else match ipHeader bs with
    | some (ip, v) =>
      let u := udpAt bs ip v
      let c := fbe bs (u + 6) 2
      if v = 4 ∧ c = 0 then bs'
      else
        let inv := fun (x : List Nat) => x.map (fun b => 255 - b)
        let t := onesSum (toBe 2 (65535 - c) ++ inv old ++ new)
        let c' := 65535 - t
        patch bs' (u + 6) (toBe 2 (if c' = 0 then 65535 else c'))
    | none => bs'

/-! ### Reception (R97 to R102, R109) -/

/-- IEEE 802.1 link-local destinations. -/
def isLinkLocal (bs : List Nat) : Bool := fbe bs 0 6 / 16 = 0x0180C200000

/-- The port's own address. -/
def portMac (s : State) (n : Nat) : Nat :=
  fget s (.pkg 4) (PB4.PORT_MAC_HI n) * 2 ^ 32 + fget s (.pkg 4) (PB4.PORT_MAC_LO n)

/-- The TRANSPORT bit that a PTP frame needs is set (R55). -/
def transportOn (s : State) (bs : List Nat) : Bool :=
  let b := match ipHeader bs with | some (_, 4) => 1 | some _ => 2 | none => 0
  bit (eget s (.pkg 2) PB2.TIME_CTRL_TRANSPORT) b

/-- Deliver a PTP frame of a ring port to the time base (R55, R57). -/
def deliverPtp (s : State) (n : Nat) (bs : List Nat) (o ts : Nat) : State :=
  if transportOn s bs then ptpDeliver s n (readPtp bs o) ts else s

/-- R100: classify and consume a frame without error. -/
def consume (s : State) (n : Nat) (bs : List Nat) (ts : Nat) : State :=
  let dst := fbe bs 0 6
  if isLinkLocal bs then
    match ptpOffset bs with
    | some o =>
      if dst = 0x0180C200000E ∧ n ≤ 1 then deliverPtp s n bs o ts else portViolation s n (PB4.RX_LINKLOCAL n)
    | none => portViolation s n (PB4.RX_LINKLOCAL n)
  else if dst ≠ portMac s n ∧ bit (fb bs 0) 0 = false then s
  else match ptpOffset bs with
    | some o => if n ≤ 1 then deliverPtp s n bs o ts else portViolation s n (PB4.RX_PTP_DROP n)
    | none =>
      if !isIpUdp bs then portViolation s n (PB4.RX_FILTER_MISS n)
      else match checkIpUdp bs with
        | .malformed => portViolation s n (PB4.RX_MALFORMED n)
        | .frag => portViolation s n (PB4.RX_FRAG n)
        | .good => match filterMatch s n bs with
          | some m => deliverPoints s (if n ≤ 1 then 0 else 1) n m ts 0 (udpPayload bs)
          | none => portViolation s n (PB4.RX_FILTER_MISS n)

/-- R99: the frame is relayed to the other ring port. -/
def relays (s : State) (n : Nat) (bs : List Nat) : Bool :=
  decide (n ≤ 1) && pget s n PB4.PORTS_CTRL = 1 && decide (fbe bs 0 6 ≠ portMac s n) && decide (bs.length + 4 ≥ 64) &&
    !isLinkLocal bs && !bypassClosed s

/-- The smaller MAX_FRAME of the ring pair (R106). -/
def ringMax (s : State) : Nat := min (pget s 0 (PB4.PORT_CTRL_MAX_FRAME 0)) (pget s 1 (PB4.PORT_CTRL_MAX_FRAME 1))

/-- A relayed PTP frame's bytes as they leave at `eg`, with the state after the correction (R58 to R63). A Pdelay_Req that
is answered is not relayed: none. -/
def relayPtpBytes (s : State) (n : Nat) (bs : List Nat) (ts eg : Nat) : Option (List Nat) × State :=
  match ptpOffset bs with
  | none => (some bs, s)
  | some o =>
    let m := readPtp bs o
    let s' := ptpRelay s n m ((eg : Int) - ts)
    if s'.tb.sent.length = s.tb.sent.length then (none, s')
    else match s'.tb.sent with
      | (_, m') :: _ =>
        let bs := patchCorr bs o m'.corr
        (some (if m'.rateOffset = m.rateOffset then bs else patch bs (o + 54) (toBe 4 (wrap 32 m'.rateOffset))), s')
      | [] => (some bs, s')

/-- Put a frame on the wire of a ring port. -/
def transmit (s : State) (e : Nat) (fr : RelayFrame) : State :=
  let s := if fr.stomped then finc s (.pkg 4) (PB4.RELAY_STOMP e) else s
  finc { s with ports.sent := (e, fr) :: s.ports.sent } (.pkg 4) (PB4.RELAY_FWD e)

/-- The relayed copy of a received frame (R103 to R106): the end of a copy already begun, cut or stomped when the frame is
errored, else the frame waits in the relay buffer or is dropped for lack of space; an errored frame that has not begun is
discarded. -/
def relayCopy (s : State) (n : Nat) (bs : List Nat) (ts : Nat) (errored : Bool) : State :=
  let e := 1 - n
  match SMap.find s.ports.begun e with
  | some eg =>
    let s := { s with ports.begun := SMap.del s.ports.begun e }
    let cut := bs.take (ringMax s - 4)
    if errored then transmit s e ⟨cut, ts, true⟩
    else match relayPtpBytes s n bs ts (eg / 65536) with
      | (some out, s) => transmit s e ⟨out, ts, false⟩
      | (none, s) => s
  | none =>
    if errored then s
    else
      let waiting := SMap.getD s.ports.relay e []
      let used := (waiting.map (fun f => f.bytes.length + 4)).foldl (· + ·) 0
      if 32768 < used + (bs.length + 4) then
        raiseInt (finc s (.pkg 4) (PB4.RELAY_DROP e)) (.pkg 4) (12 + n)
      else
        let s := { s with ports.relay := SMap.put s.ports.relay e (waiting ++ [⟨bs, ts, false⟩]) }
        match ptpOffset bs with
        | some o => ptpRelayAt s n (readPtp bs o) ts none
        | none => s

/-- A frame on its way through a port: up, not in reset, and a ring port not bypassed (R118). -/
def portReceives (s : State) (n : Nat) : Bool :=
  fbit s (.pkg 4) (PB4.PORT_STATUS_LINK n) && !inReset s .pkg

/-- R100, R109: a frame is received on a port. -/
def execEthernetFrameReceive (n : Fin 4) (f : EthFrame) (s : State) : Host.Outcome State Fault Refusal :=
  if !portReceives s n.val then .next s
  else
    let p := n.val
    let bs := f.bytes.map BitVec.toNat
    let len := bs.length + 4
    let s := fadd s (.pkg 4) (PB4.FEC_CORR p) f.fecCorr
    let s := if f.fecUncorr then raiseInt (portViolation s p (PB4.FEC_UNCORR p)) (.pkg 4) (8 + p) else s
    let bad := !f.fcsOk || f.pcsError || f.fecUncorr
    let relaying := relays s p bs
    let excess := decide (len > pget s p (PB4.PORT_CTRL_MAX_FRAME p))
    let s :=
      if len < 64 then portViolation s p (PB4.RX_RUNT p)
      else if bad then portViolation s p (PB4.RX_FCS p)
      else if excess then portViolation s p (PB4.RX_OVERSIZE p)
      else consume (finc s (.pkg 4) (PB4.RX_GOOD p)) p bs f.ts
    done (if relaying then relayCopy s p bs f.ts (bad || decide (len > ringMax s)) else s)

/-- R103, R104: transmission begins on an egress ring port: of the frame now arriving on the other port, or, with that port's
frames already received, of the oldest frame in the relay buffer. -/
def execRelayStart (e : Fin 2) (arriving : Bool) (s : State) : Host.Outcome State Fault Refusal :=
  let egress := e.val
  let n := 1 - egress
  if bypassClosed s || (SMap.find s.ports.begun egress).isSome then .next s
  else match SMap.getD s.ports.relay egress [] with
    | [] =>
      if arriving && pget s n PB4.PORTS_CTRL = 1 then
        done { s with ports.begun := SMap.put s.ports.begun egress s.tb.dev }
      else .next s
    | f :: rest =>
      let s := { s with ports.relay := SMap.put s.ports.relay egress rest }
      match relayPtpBytes s n f.bytes f.ts (s.tb.dev / 65536) with
      | (some out, s) => done (transmit s egress ⟨out, f.ts, false⟩)
      | (none, s) => done s

/-! ### Links and records -/

/-- R121: a port's link goes up or down. It stays down while MODE is OFF, the bypass isolates the port, or a reset reaches it
(R118). A ring port that retrains after a failover ends its part of that cause (R30, R113). -/
def execPortLinkChange (n : Fin 4) (up : Bool) (s : State) : Host.Outcome State Fault Refusal :=
  let p := n.val
  let off := portMode s p = 0 || inReset s .pkg
  let on := up && !off && !(decide (p ≤ 1) && bypassClosed s)
  if up && !off && s.byp.failover.contains p then
    done (bypassUpdate { s with byp.failover := s.byp.failover.filter (fun q => q ≠ p) })
  else if fbit s (.pkg 4) (PB4.PORT_STATUS_LINK p) = on then .next s
  else
    let s := fsetb (fsetb s (.pkg 4) (PB4.PORT_STATUS_LINK p) on) (.pkg 4) (PB4.PORT_STATUS_BLOCK_LOCK p) on
    let s := fsetb s (.pkg 4) (PB4.PORT_STATUS_FEC_LOCK p) (on && pget s p (PB4.PORT_CTRL_FEC p) = 1)
    done (raiseInt s (.pkg 4) p)

/-- R111: at a whole second, one record for each port counter of R109 that rose in the second just ended. -/
def execViolationRecordSecond (s : State) : Host.Outcome State Fault Refusal :=
  let sec := devSec s.tb.dev
  if sec = s.ports.second then .next s
  else
    let s' := s.ports.rises.foldl (fun s r =>
      let port := (r.1 - 0x100) / 0x80
      let rec0 := mkRecord s 0x03 0 (pageBase (.pkg 4) + r.1 / 4 * 2 ^ 24) port r.2 0
      pushRecord s { rec0 with ns := 0, sec := sec }) s
    done { s' with ports.rises := [], ports.second := sec }

/-! ### Committed B4 sets (R730) -/

/-- R730: at the first frame boundary after the commit, the captured set takes effect for a port's receive path; a change of
MODE or FEC retrains the port and its link goes down. -/
def execPortSetTakeEffect (n : Fin 4) (s : State) : Host.Outcome State Fault Refusal :=
  let p := n.val
  match SMap.find s.ports.portPend p with
  | none => .next s
  | some ws =>
    let mode := portMode s p
    let fec := pget s p (PB4.PORT_CTRL_FEC p)
    let s := { s with ports.portPend := SMap.del s.ports.portPend p, ports.portEff := SMap.put s.ports.portEff p ws }
    let s := if mode ≠ portMode s p ∨ fec ≠ pget s p (PB4.PORT_CTRL_FEC p) then dropLink s p else s
    let s := if s.ports.portPend = [] then
        { s with reg.captured := SMap.del s.reg.captured (pageBase (.pkg 4)) }
      else s
    done (bypassUpdate s)

end Sys2Proof.Machine
end

