-- ==== Sys2Proof/Machine/Scalar.lean ====
section
/-!
DEFINITION. Scalar arithmetic, immediates and control flow (R415 to R419, R423, R426).
-/

namespace Sys2Proof.Machine

/-- One as the result of a comparison that holds, else zero. -/
def flag (b : Bool) : Reg64 := if b then 1 else 0

/-- A shift count: the low six bits (R415). -/
def shCount (b : Reg64) : Nat := b.toNat % 64

/-- The FP32 value in a register's low half (R418). -/
def lowF (a : Reg64) : Nat := a.toNat % 2 ^ 32

/-- An instruction of format A that computes a register from two. -/
def issueRR (s : State) (t : ThreadRef) (op fn : Nat) (dst src1 src2 : RegNum) (f : Reg64 → Reg64 → Reg64) :
    Host.Outcome State Fault Refusal :=
  issueCtx s t (fmtA op fn dst.val src1.val src2.val) (fun x =>
    (x.deliver dst.val (f (x.rget src1.val) (x.rget src2.val))).step)

/-- An instruction of format I that computes a register from one and the immediate. -/
def issueRI (s : State) (t : ThreadRef) (op : Nat) (dst src1 : RegNum) (imm : Nat) (f : Reg64 → Reg64) :
    Host.Outcome State Fault Refusal :=
  issueCtx s t (fmtI op imm src1.val dst.val) (fun x => (x.deliver dst.val (f (x.rget src1.val))).step)

/-! ### Integer arithmetic (R415, R416) -/

/-- ADD (R415). -/
def execAdd (t : ThreadRef) (dst src1 src2 : RegNum) (s : State) : Host.Outcome State Fault Refusal :=
  issueRR s t 0x01 0x00 dst src1 src2 (fun a b => a + b)

/-- SUB (R415). -/
def execSub (t : ThreadRef) (dst src1 src2 : RegNum) (s : State) : Host.Outcome State Fault Refusal :=
  issueRR s t 0x01 0x01 dst src1 src2 (fun a b => a - b)

/-- AND (R415). -/
def execAnd (t : ThreadRef) (dst src1 src2 : RegNum) (s : State) : Host.Outcome State Fault Refusal :=
  issueRR s t 0x01 0x02 dst src1 src2 (fun a b => a &&& b)

/-- OR (R415). -/
def execOr (t : ThreadRef) (dst src1 src2 : RegNum) (s : State) : Host.Outcome State Fault Refusal :=
  issueRR s t 0x01 0x03 dst src1 src2 (fun a b => a ||| b)

/-- XOR (R415). -/
def execXor (t : ThreadRef) (dst src1 src2 : RegNum) (s : State) : Host.Outcome State Fault Refusal :=
  issueRR s t 0x01 0x04 dst src1 src2 (fun a b => a ^^^ b)

/-- SLL (R415). -/
def execSll (t : ThreadRef) (dst src1 src2 : RegNum) (s : State) : Host.Outcome State Fault Refusal :=
  issueRR s t 0x01 0x05 dst src1 src2 (fun a b => a <<< shCount b)

/-- SRL (R415). -/
def execSrl (t : ThreadRef) (dst src1 src2 : RegNum) (s : State) : Host.Outcome State Fault Refusal :=
  issueRR s t 0x01 0x06 dst src1 src2 (fun a b => a >>> shCount b)

/-- SRA (R415). -/
def execSra (t : ThreadRef) (dst src1 src2 : RegNum) (s : State) : Host.Outcome State Fault Refusal :=
  issueRR s t 0x01 0x07 dst src1 src2 (fun a b => a.sshiftRight (shCount b))

/-- SLT (R415). -/
def execSlt (t : ThreadRef) (dst src1 src2 : RegNum) (s : State) : Host.Outcome State Fault Refusal :=
  issueRR s t 0x01 0x08 dst src1 src2 (fun a b => flag (a.slt b))

/-- SLTU (R415). -/
def execSltu (t : ThreadRef) (dst src1 src2 : RegNum) (s : State) : Host.Outcome State Fault Refusal :=
  issueRR s t 0x01 0x09 dst src1 src2 (fun a b => flag (a.ult b))

/-- MIN (R415). -/
def execMin (t : ThreadRef) (dst src1 src2 : RegNum) (s : State) : Host.Outcome State Fault Refusal :=
  issueRR s t 0x01 0x0A dst src1 src2 (fun a b => if a.slt b then a else b)

/-- MAX (R415). -/
def execMax (t : ThreadRef) (dst src1 src2 : RegNum) (s : State) : Host.Outcome State Fault Refusal :=
  issueRR s t 0x01 0x0B dst src1 src2 (fun a b => if a.slt b then b else a)

/-- MINU (R415). -/
def execMinu (t : ThreadRef) (dst src1 src2 : RegNum) (s : State) : Host.Outcome State Fault Refusal :=
  issueRR s t 0x01 0x0C dst src1 src2 (fun a b => if a.ult b then a else b)

/-- MAXU (R415). -/
def execMaxu (t : ThreadRef) (dst src1 src2 : RegNum) (s : State) : Host.Outcome State Fault Refusal :=
  issueRR s t 0x01 0x0D dst src1 src2 (fun a b => if a.ult b then b else a)

/-- MUL (R415). -/
def execMul (t : ThreadRef) (dst src1 src2 : RegNum) (s : State) : Host.Outcome State Fault Refusal :=
  issueRR s t 0x01 0x10 dst src1 src2 (fun a b => a * b)

/-- MULH (R415). -/
def execMulh (t : ThreadRef) (dst src1 src2 : RegNum) (s : State) : Host.Outcome State Fault Refusal :=
  issueRR s t 0x01 0x11 dst src1 src2 (fun a b => BitVec.ofInt 64 (a.toInt * b.toInt / 2 ^ 64))

/-- MULHU (R415). -/
def execMulhu (t : ThreadRef) (dst src1 src2 : RegNum) (s : State) : Host.Outcome State Fault Refusal :=
  issueRR s t 0x01 0x12 dst src1 src2 (fun a b => BitVec.ofNat 64 (a.toNat * b.toNat / 2 ^ 64))

/-- DIV (R415, R416: truncated toward zero). -/
def execDiv (t : ThreadRef) (dst src1 src2 : RegNum) (s : State) : Host.Outcome State Fault Refusal :=
  issueRR s t 0x01 0x13 dst src1 src2 (fun a b => if b = 0 then BitVec.allOnes 64 else BitVec.ofInt 64 (a.toInt.tdiv b.toInt))

/-- DIVU (R415, R416). -/
def execDivu (t : ThreadRef) (dst src1 src2 : RegNum) (s : State) : Host.Outcome State Fault Refusal :=
  issueRR s t 0x01 0x14 dst src1 src2 (fun a b => if b = 0 then BitVec.allOnes 64 else a / b)

/-- REM (R415, R416: with the sign of SRC1). -/
def execRem (t : ThreadRef) (dst src1 src2 : RegNum) (s : State) : Host.Outcome State Fault Refusal :=
  issueRR s t 0x01 0x15 dst src1 src2 (fun a b => if b = 0 then a else BitVec.ofInt 64 (a.toInt.tmod b.toInt))

/-- REMU (R415, R416). -/
def execRemu (t : ThreadRef) (dst src1 src2 : RegNum) (s : State) : Host.Outcome State Fault Refusal :=
  issueRR s t 0x01 0x16 dst src1 src2 (fun a b => if b = 0 then a else a % b)

/-! ### FP32 arithmetic (R418) -/

/-- FADD (R418). -/
def execFadd (t : ThreadRef) (dst src1 src2 : RegNum) (s : State) : Host.Outcome State Fault Refusal :=
  issueRR s t 0x02 0x00 dst src1 src2 (fun a b => BitVec.ofNat 64 (f32add (lowF a) (lowF b)))

/-- FSUB (R418). -/
def execFsub (t : ThreadRef) (dst src1 src2 : RegNum) (s : State) : Host.Outcome State Fault Refusal :=
  issueRR s t 0x02 0x01 dst src1 src2 (fun a b => BitVec.ofNat 64 (f32sub (lowF a) (lowF b)))

/-- FMUL (R418). -/
def execFmul (t : ThreadRef) (dst src1 src2 : RegNum) (s : State) : Host.Outcome State Fault Refusal :=
  issueRR s t 0x02 0x02 dst src1 src2 (fun a b => BitVec.ofNat 64 (f32mul (lowF a) (lowF b)))

/-- FMIN (R418). -/
def execFmin (t : ThreadRef) (dst src1 src2 : RegNum) (s : State) : Host.Outcome State Fault Refusal :=
  issueRR s t 0x02 0x03 dst src1 src2 (fun a b => BitVec.ofNat 64 (f32min (lowF a) (lowF b)))

/-- FMAX (R418). -/
def execFmax (t : ThreadRef) (dst src1 src2 : RegNum) (s : State) : Host.Outcome State Fault Refusal :=
  issueRR s t 0x02 0x04 dst src1 src2 (fun a b => BitVec.ofNat 64 (f32max (lowF a) (lowF b)))

/-- FEQ (R418): false for a NaN. -/
def execFeq (t : ThreadRef) (dst src1 src2 : RegNum) (s : State) : Host.Outcome State Fault Refusal :=
  issueRR s t 0x02 0x05 dst src1 src2 (fun a b => flag (f32eq (lowF a) (lowF b)))

/-- FLT (R418): false for a NaN. -/
def execFlt (t : ThreadRef) (dst src1 src2 : RegNum) (s : State) : Host.Outcome State Fault Refusal :=
  issueRR s t 0x02 0x06 dst src1 src2 (fun a b => flag (f32lt (lowF a) (lowF b)))

/-- FLE (R418): false for a NaN. -/
def execFle (t : ThreadRef) (dst src1 src2 : RegNum) (s : State) : Host.Outcome State Fault Refusal :=
  issueRR s t 0x02 0x07 dst src1 src2 (fun a b => flag (f32le (lowF a) (lowF b)))

/-- FCVT_FI (R418): to nearest even, saturated to INT32; a NaN gives 0. -/
def execFcvtFi (t : ThreadRef) (dst src1 : RegNum) (s : State) : Host.Outcome State Fault Refusal :=
  issueRR s t 0x02 0x08 dst src1 0 (fun a _ =>
    BitVec.ofInt 64 (Fv.toIntSat .nearest (-2147483648) 2147483647 (f32v (lowF a))))

/-- FCVT_IF (R418). -/
def execFcvtIf (t : ThreadRef) (dst src1 : RegNum) (s : State) : Host.Outcome State Fault Refusal :=
  issueRR s t 0x02 0x09 dst src1 0 (fun a _ => BitVec.ofNat 64 (f32ofInt a.toInt))

/-! ### Immediates and constants (R419) -/

/-- ADDI (R419). -/
def execAddi (t : ThreadRef) (dst src1 : RegNum) (imm : BitVec 14) (s : State) : Host.Outcome State Fault Refusal :=
  issueRI s t 0x10 dst src1 imm.toNat (fun a => a + imm.signExtend 64)

/-- ANDI (R419). -/
def execAndi (t : ThreadRef) (dst src1 : RegNum) (imm : BitVec 14) (s : State) : Host.Outcome State Fault Refusal :=
  issueRI s t 0x11 dst src1 imm.toNat (fun a => a &&& imm.zeroExtend 64)

/-- ORI (R419). -/
def execOri (t : ThreadRef) (dst src1 : RegNum) (imm : BitVec 14) (s : State) : Host.Outcome State Fault Refusal :=
  issueRI s t 0x12 dst src1 imm.toNat (fun a => a ||| imm.zeroExtend 64)

/-- XORI (R419). -/
def execXori (t : ThreadRef) (dst src1 : RegNum) (imm : BitVec 14) (s : State) : Host.Outcome State Fault Refusal :=
  issueRI s t 0x13 dst src1 imm.toNat (fun a => a ^^^ imm.zeroExtend 64)

/-- SLTI (R419). -/
def execSlti (t : ThreadRef) (dst src1 : RegNum) (imm : BitVec 14) (s : State) : Host.Outcome State Fault Refusal :=
  issueRI s t 0x14 dst src1 imm.toNat (fun a => flag (a.slt (imm.signExtend 64)))

/-- SLTIU (R419). -/
def execSltiu (t : ThreadRef) (dst src1 : RegNum) (imm : BitVec 14) (s : State) : Host.Outcome State Fault Refusal :=
  issueRI s t 0x15 dst src1 imm.toNat (fun a => flag (a.ult (imm.signExtend 64)))

/-- SLLI (R419). -/
def execSlli (t : ThreadRef) (dst src1 : RegNum) (count : BitVec 6) (s : State) : Host.Outcome State Fault Refusal :=
  issueRI s t 0x16 dst src1 count.toNat (fun a => a <<< count.toNat)

/-- SRLI (R419). -/
def execSrli (t : ThreadRef) (dst src1 : RegNum) (count : BitVec 6) (s : State) : Host.Outcome State Fault Refusal :=
  issueRI s t 0x17 dst src1 count.toNat (fun a => a >>> count.toNat)

/-- SRAI (R419). -/
def execSrai (t : ThreadRef) (dst src1 : RegNum) (count : BitVec 6) (s : State) : Host.Outcome State Fault Refusal :=
  issueRI s t 0x18 dst src1 count.toNat (fun a => a.sshiftRight count.toNat)

/-- The sign-extended immediate of format U shifted left by 14. -/
def upper (imm : BitVec 19) : Reg64 := imm.signExtend 64 <<< 14

/-- LUI (R419). -/
def execLui (t : ThreadRef) (dst : RegNum) (imm : BitVec 19) (s : State) : Host.Outcome State Fault Refusal :=
  issueCtx s t (fmtU 0x1C imm.toNat dst.val) (fun x => (x.deliver dst.val (upper imm)).step)

/-- PCADD (R419). -/
def execPcadd (t : ThreadRef) (dst : RegNum) (imm : BitVec 19) (s : State) : Host.Outcome State Fault Refusal :=
  issueCtx s t (fmtU 0x1D imm.toNat dst.val) (fun x => (x.deliver dst.val (BitVec.ofNat 64 x.pc + upper imm)).step)

/-! ### Control flow (R423) -/

/-- An address `4 × imm` bytes on from the instruction. -/
def branchTo (pc : Nat) (imm : Int) : Nat := wrap 64 ((pc : Int) + 4 * imm)

/-- A branch of format S. -/
def issueBranch (s : State) (t : ThreadRef) (op : Nat) (src1 src2 : RegNum) (imm : BitVec 14) (f : Reg64 → Reg64 → Bool) :
    Host.Outcome State Fault Refusal :=
  issueCtx s t (fmtS op imm.toNat src1.val src2.val) (fun x =>
    if f (x.rget src1.val) (x.rget src2.val) then { x with pc := branchTo x.pc imm.toInt } else x.step)

/-- BEQ (R423). -/
def execBeq (t : ThreadRef) (src1 src2 : RegNum) (imm : BitVec 14) (s : State) : Host.Outcome State Fault Refusal :=
  issueBranch s t 0x38 src1 src2 imm (fun a b => a = b)

/-- BNE (R423). -/
def execBne (t : ThreadRef) (src1 src2 : RegNum) (imm : BitVec 14) (s : State) : Host.Outcome State Fault Refusal :=
  issueBranch s t 0x39 src1 src2 imm (fun a b => a ≠ b)

/-- BLT (R423). -/
def execBlt (t : ThreadRef) (src1 src2 : RegNum) (imm : BitVec 14) (s : State) : Host.Outcome State Fault Refusal :=
  issueBranch s t 0x3A src1 src2 imm (fun a b => a.slt b)

/-- BGE (R423). -/
def execBge (t : ThreadRef) (src1 src2 : RegNum) (imm : BitVec 14) (s : State) : Host.Outcome State Fault Refusal :=
  issueBranch s t 0x3B src1 src2 imm (fun a b => !a.slt b)

/-- BLTU (R423). -/
def execBltu (t : ThreadRef) (src1 src2 : RegNum) (imm : BitVec 14) (s : State) : Host.Outcome State Fault Refusal :=
  issueBranch s t 0x3C src1 src2 imm (fun a b => a.ult b)

/-- BGEU (R423). -/
def execBgeu (t : ThreadRef) (src1 src2 : RegNum) (imm : BitVec 14) (s : State) : Host.Outcome State Fault Refusal :=
  issueBranch s t 0x3D src1 src2 imm (fun a b => !a.ult b)

/-- The address of the next instruction, as a jump links it. -/
def Ctx.link (x : Ctx) : Reg64 := BitVec.ofNat 64 (x.pc + 4)

/-- JAL (R423). -/
def execJal (t : ThreadRef) (dst : RegNum) (imm : BitVec 19) (s : State) : Host.Outcome State Fault Refusal :=
  issueCtx s t (fmtU 0x1E imm.toNat dst.val) (fun x => { x.deliver dst.val x.link with pc := branchTo x.pc imm.toInt })

/-- JALR (R423): a target that is no multiple of 4 faults at the JALR. -/
def execJalr (t : ThreadRef) (dst src1 : RegNum) (imm : BitVec 14) (s : State) : Host.Outcome State Fault Refusal :=
  if mayIssue s t [fmtI 0x3E imm.toNat src1.val dst.val] then
    let s := issued s t
    let x := cref s t
    let to_ := (x.rget src1.val + imm.signExtend 64).toNat
    if to_ % 4 ≠ 0 then done (faultHere s t.slot.val t.ctx.val fAlign)
    else .next (setRef s t { x.deliver dst.val x.link with pc := to_ })
  else .next s

/-! ### SELF (R426) -/

/-- SELF: DST receives the value that a selector names. -/
def issueSelf (s : State) (t : ThreadRef) (sel : Nat) (dst : RegNum) (v : Nat) : Host.Outcome State Fault Refusal :=
  issueCtx s t (fmtA 0x42 sel dst.val 0 0) (fun x => (x.deliver dst.val (BitVec.ofNat 64 v)).step)

/-- SELF 0 (R426). -/
def execSelfThreadId (t : ThreadRef) (dst : RegNum) (s : State) : Host.Outcome State Fault Refusal :=
  issueSelf s t 0 dst (threadId s t.slot.val t.ctx.val)

/-- SELF 1 (R426). -/
def execSelfNodeId (t : ThreadRef) (dst : RegNum) (s : State) : Host.Outcome State Fault Refusal :=
  issueSelf s t 1 dst (ownNode s)

/-- SELF 2 (R426). -/
def execSelfLogicalCore (t : ThreadRef) (dst : RegNum) (s : State) : Host.Outcome State Fault Refusal :=
  issueSelf s t 2 dst ((slotLogical s t.slot.val).getD 0)

/-- SELF 3 (R426). -/
def execSelfContext (t : ThreadRef) (dst : RegNum) (s : State) : Host.Outcome State Fault Refusal :=
  issueSelf s t 3 dst (t.ctx.val)

/-- SELF 4 (R426). -/
def execSelfDomain (t : ThreadRef) (dst : RegNum) (s : State) : Host.Outcome State Fault Refusal :=
  issueSelf s t 4 dst ((cref s t).domain)

/-- SELF 5 (R426). -/
def execSelfClass (t : ThreadRef) (dst : RegNum) (s : State) : Host.Outcome State Fault Refusal :=
  issueSelf s t 5 dst ((cref s t).cls)

/-- SELF 6 (R426). -/
def execSelfDeviceTime (t : ThreadRef) (dst : RegNum) (s : State) : Host.Outcome State Fault Refusal :=
  issueSelf s t 6 dst (devNsCount s)

/-- SELF 7 (R426). -/
def execSelfFrameNo (t : ThreadRef) (dst : RegNum) (s : State) : Host.Outcome State Fault Refusal :=
  issueSelf s t 7 dst (frameNo s)

end Sys2Proof.Machine
end

