-- ==== Sys2Proof/Machine/Smb.lean ====
section
/-!
DEFINITION. The SMBus target in the always-on domain (R714). It answers while VDD_AON is present; without it the target
is in high impedance and gives no answer (R717).
-/

namespace Sys2Proof.Machine

/-- Answer with bytes, if the always-on domain has its supply. -/
def smbAnswer (s : State) (bs : List Nat) : Host.Outcome State Fault Refusal :=
  if s.rst.aonPresent then .next { s with ans := .bytes bs } else .next { s with ans := .none }

/-- R714, command 0x01: PKG_INFO. -/
def execSmbReadPkgInfo (s : State) : Host.Outcome State Fault Refusal :=
  smbAnswer s (toLe 4 (rawWord s (.pkg 0) 0x40))

/-- R714, command 0x02: BOOT_DONE, RECOVERY, SUPPLY_HOLD, THERM_WARN and DERATED. -/
def execSmbReadStatus (s : State) : Host.Outcome State Fault Refusal :=
  smbAnswer s [fget s (.pkg 13) PB13.BOOT_STATUS_BOOT_DONE + 2 * fget s (.pkg 13) PB13.BOOT_STATUS_RECOVERY +
    4 * fget s (.pkg 6) PB6.LED_STATUS_SUPPLY_HOLD + 8 * fget s (.pkg 6) PB6.LED_STATUS_THERM_WARN +
    16 * fget s (.pkg 12) PB12.AGE_STATUS_DERATED]

/-- R714, command 0x03: TJ_C, then DRAM_C; each 0x80 while a core supply is absent. -/
def execSmbReadTemperature (s : State) : Host.Outcome State Fault Refusal :=
  if s.rst.lowRails.contains .core0 || s.rst.lowRails.contains .core1 then smbAnswer s [0x80, 0x80]
  else smbAnswer s [fget s (.pkg 12) PB12.TEMP_MAX_TJ_C, fget s (.pkg 12) PB12.TEMP_MAX_DRAM_C]

/-- R714, command 0x04: FAULT_LATCH. -/
def execSmbReadFaultLatch (s : State) : Host.Outcome State Fault Refusal :=
  smbAnswer s [fget s (.pkg 10) PB10.FAULT_LATCH]

/-- R714, command 0x05: FAIL_CODE in [7:4], FAIL_COUNT in [3:0]. -/
def execSmbReadFail (s : State) : Host.Outcome State Fault Refusal :=
  smbAnswer s [16 * fget s (.pkg 13) PB13.BOOT_STATUS_FAIL_CODE + fget s (.pkg 13) PB13.BOOT_STATUS_FAIL_COUNT]

/-- R714, command 0x06: POWERED_HOURS. -/
def execSmbReadPoweredHours (s : State) : Host.Outcome State Fault Refusal :=
  smbAnswer s (toLe 4 (fget s (.pkg 12) PB12.POWERED_HOURS))

/-- R714: every SMBus write is NACKed and changes nothing. -/
def execSmbWrite (_cmd : Byte) (_data : List Byte) (s : State) : Host.Outcome State Fault Refusal :=
  if s.rst.aonPresent then .next { s with ans := .nacked }
  else .next { s with ans := .none }

end Sys2Proof.Machine
end

