-- ==== Sys2Proof/Machine/Sparse.lean ====
section
/-!
DEFINITION. The sparse unit (R286 to R298, R302, R303): SP_COMPRESS and SP_GATHER.
-/

namespace Sys2Proof.Machine

/-- Page B10 of a unit's core. -/
def Who.b10 (w : Who) : Page := .core w.slot 10

/-! ### SP_COMPRESS (R286 to R291) -/

/-- A weight byte that counts as zero (R288). -/
def weightZero (fmt b : Nat) : Bool := b = 0 || (fmt ≥ 2 && b = 0x80)

/-- A descriptor that breaks R286. -/
def compressBad (t : Ti) : Bool :=
  let m := t.d 0 1
  let f := t.d 1 1
  let k := t.d 2 1
  m > 3 || (if m = 0 then !fmtBitmap f else f < 1 || f > 3) ||
  (if m = 1 ∨ m = 2 then k < 1 || k > 64 else k ≠ 0) || bit (t.d 3 1) 6 || !t.dZero 0x2C 4 || !t.dZero 0x38 8 ||
  t.d 8 8 % 128 ≠ 0 || t.d 0x10 8 % 128 ≠ 0 || (m ≠ 0 && t.d 0x18 8 % 128 ≠ 0) ||
  (if m ≥ 2 then t.d 0x20 8 % 128 ≠ 0 else t.d 0x20 8 ≠ 0) || t.d 0x30 8 % 32 ≠ 0

/-- What a compression has counted: bytes at DST, DENSE tiles, OVER24, MASKED_DROP, NOT_TRANSPOSABLE. -/
structure SpSum where
  bytes : Nat
  dense : Nat
  excess : Nat
  drop : Nat
  notT : Nat

/-- A compressed tile of BITMAP mode (R287); whether it is DENSE. -/
def bitmapTile (fmt : Nat) (src : List Nat) : List Nat × Bool :=
  let nz := (src.filter (· ≠ 0)).length
  let dense := 128 + nz > 1024
  let body :=
    if dense then src
    else (chunks 8 128 (src.map (fun b => b2n (b ≠ 0)))).map (fun bs => bs.zipIdx.foldl (fun a e => a + e.1 * 2 ^ e.2) 0) ++
      src.filter (· ≠ 0)
  let size := up128 (16 + body.length)
  (pad128 ([b2n (!dense), fmt, 0, 0] ++ toLe 2 nz ++ [0, 0] ++ toLe 4 size ++ [0, 0, 0, 0] ++ body), dense)

/-- The sparse header that the compressor writes, with its index array of 32 words (R273, R288). -/
def w24Meta (form ext spill : Nat) (idx : List Nat) : List Nat :=
  [1, form, 0, 0, ext] ++ List.replicate 11 0 ++ toLe 4 spill ++ List.replicate 108 0 ++ idx.flatMap (toLe 8)

/-- The two slots (index, weight) of a group from its four weights (R288), `valid` telling which indices have a logical K
below K_EXTENT; none when more than two are not zero. -/
def s24Group (fmt : Nat) (ws : List Nat) (valid : Nat → Bool) : Option ((Nat × Nat) × (Nat × Nat)) :=
  let nz := (List.range 4).filter (fun i => !weightZero fmt (ws.getD i 0))
  let free := fun (used : List Nat) => (List.range 4).find? (fun i => valid i && !used.contains i)
  let at_ := fun (i : Nat) => (i, ws.getD i 0)
  match nz with
  | [] =>
    let a := (free []).getD 0
    some ((a, 0), ((free [a]).getD a, 0))
  | [a] => some (at_ a, ((free [a]).getD a, 0))
  | [a, b] => some (at_ a, at_ b)
  | _ => none

/-- Weight of logical K `k`, lane `n` of a plain tile of 32-byte vectors, zero at K_EXTENT or beyond. -/
def weightAt (src : List Nat) (ext k n : Nat) : Nat := if k < ext then src.getD (32 * k + n) 0 else 0

/-- Values and index words of compressed rows: `f g n` gives the slots of group `g`, column `n`. -/
def sparseTile (f : Nat → Nat → (Nat × Nat) × (Nat × Nat)) : List Nat × List Nat :=
  let rows := (List.range 16).flatMap (fun g =>
    let cols := (List.range 32).map (f g)
    [cols.map Prod.fst, cols.map Prod.snd])
  (rows.flatMap (fun r => r.map Prod.snd), rows.map (fun r => r.zipIdx.foldl (fun a e => a + e.1.1 % 4 * 4 ^ e.2) 0))

/-- The slots of every group of a source tile; none when a group holds more than two weights. -/
def s24Slots (fmt ext : Nat) (src : List Nat) : List (Option ((Nat × Nat) × (Nat × Nat))) :=
  (List.range 512).map (fun i =>
    let g := i / 32
    s24Group fmt ((List.range 4).map (fun j => weightAt src ext (4 * g + j) (i % 32))) (fun j => 4 * g + j < ext))

/-- Index of slot `r`, column `n` in an index array. -/
def idxAt (arr : List Nat) (r n : Nat) : Nat := bits (leNat ((arr.drop (8 * r)).take 8)) (2 * n) 2

/-- One tile of BITMAP mode. -/
def compressBitmap (w : Who) (t : Ti) (z : SpSum × State) (i : Nat) : Run (SpSum × State) := do
  let r ← uRead w z.2 (t.d 8 8 + 1024 * i) 1024
  let b := bitmapTile (t.d 1 1) r.1
  let s ← uWrite w r.2 (t.d 0x10 8 + z.1.bytes) b.1
  let s := if b.2 then finc s w.b10 KB10.TILES_DENSE else s
  pure ({ z.1 with bytes := z.1.bytes + b.1.length, dense := z.1.dense + b2n b.2 }, finc s w.b10 KB10.TILES_IN)

/-- Write a tile's values and metadata. -/
def putTile (w : Who) (t : Ti) (z : SpSum × State) (i form ext : Nat) (vals idx : List Nat) : Run (SpSum × State) := do
  let s ← uWrite w z.2 (t.d 0x10 8 + 2048 * i) vals
  let s ← uWrite w s (t.d 0x18 8 + 384 * i) (w24Meta form ext (t.d 0x28 4) idx)
  pure ({ z.1 with bytes := z.1.bytes + vals.length, dense := z.1.dense + form }, finc s w.b10 KB10.TILES_IN)

/-- One tile of S24 mode (R288). -/
def compressS24 (w : Who) (t : Ti) (z : SpSum × State) (i : Nat) : Run (SpSum × State) := do
  let r ← uRead w z.2 (t.d 8 8 + 2048 * i) 2048
  let ext := t.d 2 1
  let gs := s24Slots (t.d 1 1) ext r.1
  if gs.all Option.isSome then
    let tl := sparseTile (fun g n => ((gs.getD (32 * g + n) none).getD ((0, 0), (0, 0))))
    putTile w t (z.1, r.2) i 0 ext tl.1 tl.2
  else
    let s := raiseInt (finc r.2 w.b10 KB10.OVER24) w.b10 1
    putTile w t ({ z.1 with excess := z.1.excess + 1 }, s) i 1 ext
      ((List.range 2048).map (fun j => weightAt r.1 ext (j / 32) (j % 32))) (List.replicate 32 0)

/-- One tile of MASKED mode (R289). -/
def compressMasked (w : Who) (t : Ti) (z : SpSum × State) (i : Nat) : Run (SpSum × State) := do
  let r ← uRead w z.2 (t.d 8 8 + 2048 * i) 2048
  let x ← uRead w r.2 (t.d 0x20 8 + 384 * i + 0x80) 256
  let ext := t.d 2 1
  let tl := sparseTile (fun g n =>
    let a := idxAt x.1 (2 * g) n
    let b := idxAt x.1 (2 * g + 1) n
    ((a, weightAt r.1 ext (4 * g + a) n), (b, if a = b then 0 else weightAt r.1 ext (4 * g + b) n)))
  let dropped := ((List.range 2048).filter (fun j =>
    let k := j / 32
    let n := j % 32
    !weightZero (t.d 1 1) (weightAt r.1 ext k n) &&
      idxAt x.1 (2 * (k / 4)) n ≠ k % 4 && idxAt x.1 (2 * (k / 4) + 1) n ≠ k % 4)).length
  putTile w t ({ z.1 with drop := z.1.drop + dropped }, fadd x.2 w.b10 KB10.MASKED_DROP dropped) i 0 ext tl.1
    ((chunks 8 32 x.1).map leNat)

/-- Values and index arrays of the two SPARSE tiles of a pair. -/
structure Pair where
  v0 : List Nat
  v1 : List Nat
  x0 : List Nat
  x1 : List Nat

/-- Index of slot `sl` of group `g`, column `n` (0 to 63) of a pair. -/
def Pair.idx (p : Pair) (g n sl : Nat) : Nat := idxAt (if n < 32 then p.x0 else p.x1) (2 * g + sl) (n % 32)

/-- Weight of slot `sl` of group `g`, column `n`. -/
def Pair.val (p : Pair) (g n sl : Nat) : Nat := (if n < 32 then p.v0 else p.v1).getD (32 * (2 * g + sl) + n % 32) 0

/-- Column `n` names logical K `k`. -/
def Pair.names (p : Pair) (k n : Nat) : Bool := p.idx (k / 4) n 0 = k % 4 || p.idx (k / 4) n 1 = k % 4

/-- The weight at (k, n): one slot's, or a free value where both slots name K and both hold a weight. -/
def Pair.weight (p : Pair) (fmt free k n : Nat) : Nat :=
  let a := if p.idx (k / 4) n 0 = k % 4 then p.val (k / 4) n 0 else 0
  let b := if p.idx (k / 4) n 1 = k % 4 then p.val (k / 4) n 1 else 0
  if weightZero fmt b then a
  else if weightZero fmt a then b
  else (Config.freeByte (free + 64 * k + n)).toNat

/-- R290: the pair is transposable. -/
def Pair.transposable (p : Pair) : Bool :=
  (List.range 16).all (fun g => (List.range 16).all (fun h =>
    (List.range 4).all (fun j => p.idx g (4 * h + j) 0 ≠ p.idx g (4 * h + j) 1) &&
    (List.range 4).all (fun i => ((List.range 4).filter (fun j => p.names (4 * g + i) (4 * h + j))).length = 2)))

/-- One pair of TRANSPOSE mode (R290). -/
def compressTranspose (w : Who) (t : Ti) (z : SpSum × State) (i : Nat) : Run (SpSum × State) := do
  let a ← uRead w z.2 (t.d 8 8 + 4096 * i) 1024
  let b ← uRead w a.2 (t.d 8 8 + 4096 * i + 2048) 1024
  let x ← uRead w b.2 (t.d 0x20 8 + 768 * i + 0x80) 256
  let y ← uRead w x.2 (t.d 0x20 8 + 768 * i + 384 + 0x80) 256
  let p : Pair := ⟨a.1, b.1, x.1, y.1⟩
  let s := y.2
  if p.transposable then
    let tile := fun (j : Nat) => sparseTile (fun h n =>
      let k := 32 * j + n
      let ns := (List.range 4).filter (fun c => p.names k (4 * h + c))
      let at_ := fun (c : Nat) => (c, p.weight (t.d 1 1) 0 k (4 * h + c))
      (at_ (ns.getD 0 0), at_ (ns.getD 1 0)))
    let z ← putTile w t (z.1, s) (2 * i) 0 64 (tile 0).1 (tile 0).2
    putTile w t z (2 * i + 1) 0 64 (tile 1).1 (tile 1).2
  else
    let s := raiseInt (finc s w.b10 KB10.NOT_TRANSPOSABLE) w.b10 2
    let tile := fun (j : Nat) => (List.range 2048).map (fun q => p.weight (t.d 1 1) s.free (32 * j + q % 32) (q / 32))
    let vals := (tile 0, tile 1)
    let z0 : SpSum × State := ({ z.1 with notT := z.1.notT + 1 }, { s with free := s.free + 4096 })
    let z ← putTile w t z0 (2 * i) 1 64 vals.1 (List.replicate 32 0)
    putTile w t z (2 * i + 1) 1 64 vals.2 (List.replicate 32 0)

/-- A compression's work (R287 to R291). -/
def compressWork (w : Who) (t : Ti) (s : State) : Run (List UnitOut × State) := do
  if compressBad t then
    pure ([.write (t.d 0x30 8) [1]], raiseInt (finc s w.b10 KB10.SP_REFUSED) w.b10 4)
  else
    let one := match t.d 0 1 with
      | 0 => compressBitmap w t
      | 1 => compressS24 w t
      | 2 => compressMasked w t
      | _ => compressTranspose w t
    let z ← (List.range (t.d 4 4)).foldlM one (⟨0, 0, 0, 0, 0⟩, s)
    pure ([.write (t.d 0x30 8) ([0, 0, 0, 0] ++ toLe 4 z.1.bytes ++ toLe 4 z.1.dense ++ toLe 4 z.1.excess ++
      toLe 4 z.1.drop ++ toLe 4 z.1.notT ++ List.replicate 8 0)], z.2)

/-- SP_COMPRESS run by the sparse unit. -/
def compressRun (s : State) (slot id : Nat) : Host.Outcome State Fault Refusal := unitRun s slot id 0xC3 compressWork

/-- The declared ranges of a compression beside its descriptor (R436). -/
def compressRanges (s : State) (slot : Nat) (t : Ti) : List Range :=
  let res := hullRange s slot false true [(t.d 0x30 8, 32)]
  if compressBad t then res
  else
    let n := t.d 4 4
    let m := t.d 0 1
    let two := if m = 3 then 2 else 1
    hullRange s slot true false [(t.d 8 8, n * (if m = 0 then 1024 else 2048 * two))] ++
    (if m ≥ 2 then hullRange s slot true false [(t.d 0x20 8, n * 384 * two)] else []) ++
    hullRange s slot false true [(t.d 0x10 8, n * (if m = 0 then 1152 else 2048 * two))] ++
    (if m = 0 then [] else hullRange s slot false true [(t.d 0x18 8, n * 384 * two)]) ++ res

/-! ### SP_GATHER (R292 to R298) -/

/-- A FLAGS bit of a gather. -/
def Ti.gFlag (t : Ti) (i : Nat) : Bool := bit (t.d 1 1) i
/-- MAX_ROWS. -/
def Ti.gMax (t : Ti) : Nat := t.d 4 2
/-- The engines of a gather. -/
def Ti.gEngines (t : Ti) : List Nat := bitList 4 (t.d 2 1)
/-- Bytes of a row. -/
def Ti.gRow (t : Ti) : Nat := if t.gFlag 2 then 64 else fmtVec (t.d 0 1)

/-- A cluster queue lies in the scratchpad of another core of the cluster (R298). -/
def cqueueOk (s : State) (slot g : Nat) : Bool :=
  match spmPlace s g 32 with
  | some (k, _) => k ≠ slot && slotCl k = slotCl slot
  | none => false

/-- A descriptor that R298 refuses. -/
def gatherBad (s : State) (slot : Nat) (t : Ti) : Bool :=
  t.gMax > 4096 || t.d 3 1 > 4 || !fmtValid (t.d 0 1) || t.d 0 1 = 8 || (t.gFlag 2 && (t.d 0 1 < 1 || t.d 0 1 > 3)) ||
  bits (t.d 1 1) 5 3 ≠ 0 || bits (t.d 2 1) 4 4 ≠ 0 || !t.dZero 6 2 || !t.dZero 0x60 32 ||
  (List.range (min 4 (t.d 3 1))).any (fun i => !cqueueOk s slot (t.d (0x40 + 8 * i) 8))

/-- A misaligned address of a gather. -/
def gatherMisaligned (t : Ti) : Bool :=
  t.d 12 4 % 32 ≠ 0 || (t.d 8 4 ≠ 0xFFFFFFFF && t.d 8 4 % 128 ≠ 0) || t.gEngines.any (fun e =>
    t.d (0x10 + 4 * e) 4 % 32 ≠ 0 || t.d (0x20 + 4 * e) 4 % 128 ≠ 0 || t.d (0x30 + 4 * e) 4 % 8 ≠ 0)

/-- A row taken from a queue: its number, the queue's code, SRC and MASK. -/
structure TakenRow where
  row : Nat
  queue : Nat
  src : Nat
  mask : Nat

/-- Take the first or last row of the queue at `g` (R295): HEAD and TAIL change by a compare-and-swap of 64 bits. -/
def takeRow (w : Who) (s : State) (g code : Nat) (tail : Bool) : Run (Option TakenRow × State) := do
  let q ← uRead w s g 32
  let at_ := fun (o n : Nat) => leNat ((q.1.drop o).take n)
  let h := at_ 0 4
  let e := at_ 4 4
  if h ≥ e then pure (none, q.2)
  else
    let new := if tail then h + (e - 1) * 2 ^ 32 else h + 1 + e * 2 ^ 32
    match coreAmo q.2 w.rq (some w.slot) 5 8 g new (at_ 0 8) with
    | (.ok, _, s) => pure (some ⟨if tail then e - 1 else h, code, at_ 8 8, at_ 16 8⟩, finc s w.b10 KB10.ROWS_READ)
    | (.wait, _, _) => .error .wait
    | (.need _ _, _, s) => .error (.fault fAccess s)
    | (r, _, s) => .error (.fault r.fault s)

/-- The first row that one of some queues (address, code, tail, stolen from the cluster) gives. -/
def takeFirst (w : Who) (s : State) : List (Nat × Nat × Bool × Bool) → Run (Option TakenRow × State)
  | [] => pure (none, s)
  | q :: qs => do
    let r ← takeRow w s q.1 q.2.1 q.2.2.1
    match r.1 with
    | some x =>
      let s := if !q.2.2.1 then r.2
        else if q.2.2.2 then finc r.2 w.b10 KB10.ROWS_STOLEN_CLUSTER
        else finc r.2 w.b10 KB10.ROWS_STOLEN_CORE
      pure (some x, s)
    | none => takeFirst w r.2 qs

/-- The queues that engine `e` takes from, in order (R294). -/
def queuesOf (w : Who) (t : Ti) (s : State) (e : Nat) : List (Nat × Nat × Bool × Bool) :=
  let own := fun (i : Nat) => ownAt w s (t.d (0x10 + 4 * i) 4)
  [(own e, e, false, false)] ++
  (if t.gFlag 3 then ([1, 2, 3].map (fun d => (e + d) % 4)).filterMap (fun i =>
      if t.gEngines.contains i then some (own i, i, true, false) else none) else []) ++
  (if t.gFlag 4 then (List.range (t.d 3 1)).map (fun c => (t.d (0x40 + 8 * c) 8, 4 + c, true, true)) else [])

/-- A gather in progress: rows kept by engine (bytes, row number, queue), rows dropped and stolen. -/
structure Gather where
  kept : List (List (List Nat × Nat × Nat))
  dropped : Nat
  stolen : Nat
  moved : Bool

/-- One engine's turn of a round (R294). -/
def gatherTurn (w : Who) (t : Ti) (z : Gather × State) (e : Nat) : Run (Gather × State) := do
  let mine := z.1.kept.getD e []
  if mine.length ≥ t.gMax then pure z
  else
    let r ← takeFirst w z.2 (queuesOf w t z.2 e)
    match r.1 with
    | none => pure (z.1, r.2)
    | some x =>
      let g := { z.1 with moved := true, stolen := z.1.stolen + b2n (x.queue ≠ e) }
      let d ← uRead w r.2 (x.src + x.row * t.gRow) t.gRow
      if t.gFlag 0 && (elements (t.d 0 1) true true d.1).all Fv.isZero then
        pure ({ g with dropped := g.dropped + 1 }, finc d.2 w.b10 KB10.ROWS_ZERO)
      else
        let m ← if t.gFlag 1 && x.mask ≠ 0 then uRead w d.2 (x.mask + x.row / 8) 1 else pure ([255], d.2)
        if !bit (m.1.headD 0) (x.row % 8) then
          pure ({ g with dropped := g.dropped + 1 }, finc m.2 w.b10 KB10.ROWS_PRED_SKIP)
        else pure ({ g with kept := setAt g.kept e (mine ++ [(d.1, x.row, x.queue)]) }, m.2)

/-- The rounds, until one makes no progress or every engine is full. -/
def gatherRounds (w : Who) (t : Ti) : Nat → Gather × State → Run (Gather × State)
  | 0, z => pure z
  | n + 1, z => do
    let r ← t.gEngines.foldlM (gatherTurn w t) ({ z.1 with moved := false }, z.2)
    if !r.1.moved || t.gEngines.all (fun e => (r.1.kept.getD e []).length ≥ t.gMax) then pure r
    else gatherRounds w t n r

/-- Write one engine's stream and row map, padded to STEPS (R297); the ROW of a padding entry is free. -/
def putStream (w : Who) (t : Ti) (steps : Nat) (kept : List (List (List Nat × Nat × Nat))) (s : State) (e : Nat) :
    Run State := do
  let mine := kept.getD e []
  let pad := steps - mine.length
  let vs := mine.map Prod.fst ++ List.replicate pad (List.replicate t.gRow 0)
  let ss := if t.gFlag 2 then pairOf vs else stairOf (t.d 0 1) (t.gRow / 32) vs
  let entries := mine.flatMap (fun x => toLe 4 x.2.1 ++ [x.2.2, 0, 0, 0]) ++
    (List.range pad).flatMap (fun i => toLe 4 (Config.freeWord (s.free + i)).toNat ++ [0xFF, 0, 0, 0])
  let s := fadd { s with free := s.free + pad } w.b10 KB10.ROWS_PAD pad
  if steps = 0 then pure s
  else
    let s ← ownWrite w s (t.d (0x20 + 4 * e) 4) ss.flatten
    ownWrite w s (t.d (0x30 + 4 * e) 4) entries

/-- A bound on the rows that the queues of a gather hold. -/
def gatherFuel : Nat := 2 ^ 36

/-- Write STEPS into a pass descriptor (R297). -/
def putSteps (w : Who) (s : State) (desc steps : Nat) : Run State :=
  if desc = 0xFFFFFFFF then pure s else ownWrite w s (desc + 8) (toLe 2 steps)

/-- A gather's work (R294 to R298). -/
def gatherWork (w : Who) (t : Ti) (s : State) : Run (List UnitOut × State) := do
  let res := fun (s : State) (bs : List Nat) =>
    if t.d 12 4 + 32 > 0x600000 then .error (.fault fAccess (viol s (.core w.slot 8)))
    else pure ([UnitOut.write (ownAt w s (t.d 12 4)) bs], s)
  if gatherMisaligned t then .error (.fault fAlign s)
  else if gatherBad s w.slot t then
    res (raiseInt (finc s w.b10 KB10.SP_REFUSED) w.b10 4) [1]
  else
    let z ← gatherRounds w t gatherFuel (⟨[[], [], [], []], 0, 0, false⟩, s)
    let steps := (t.gEngines.map (fun e => (z.1.kept.getD e []).length)).foldl max 0
    let s ← t.gEngines.foldlM (putStream w t steps z.1.kept) z.2
    let s ← putSteps w s (t.d 8 4) steps
    res s ([0, 0, 0, 0] ++ toLe 4 steps ++ (List.range 4).flatMap (fun e => toLe 4 (z.1.kept.getD e []).length) ++
      toLe 4 z.1.dropped ++ toLe 4 z.1.stolen)

/-- SP_GATHER run by the sparse unit. -/
def gatherRun (s : State) (slot id : Nat) : Host.Outcome State Fault Refusal := unitRun s slot id 0xC2 gatherWork

/-- Bytes of a stream of `n` rows (R222, R277). -/
def streamBytes (paired : Bool) (v n : Nat) : Nat := if paired then up128 ((n + 30) * 64) else up128 ((n + 31) * v)

/-- The declared ranges of a gather beside its descriptor (R436). -/
def gatherRanges (s : State) (slot : Nat) (t : Ti) : List Range :=
  let res := mkRange false true (t.d 12 4) 32
  if gatherMisaligned t || gatherBad s slot t || t.gMax = 0 then res
  else
    t.gEngines.flatMap (fun e => mkRange false true (t.d (0x20 + 4 * e) 4) (streamBytes (t.gFlag 2) t.gRow t.gMax) ++
      mkRange false true (t.d (0x30 + 4 * e) 4) (8 * t.gMax)) ++
    (if t.d 8 4 = 0xFFFFFFFF then [] else mkRange false true (t.d 8 4 + 8) 2) ++ res

end Sys2Proof.Machine
end

