-- ==== Sys2Proof/Machine/Conv.lean ====
section
/-!
DEFINITION. Sparse convolution and the bird's-eye map (R304 to R326, R333 to R338): RULE_GATHER, RULE_SCATTER, CELL_FINISH and
MAP_SCATTER.
-/

namespace Sys2Proof.Machine

/-! ### Feature maps (R304 to R306) -/

/-- A feature map. -/
structure FMap where
  fmt : Nat
  kind : Nat
  vecs : Nat
  cap : Nat
  base : List Nat

/-- FP32 accumulators. -/
def FMap.fp (m : FMap) : Bool := bit m.kind 0
/-- 16-bit-mode vectors. -/
def FMap.lanes16 (m : FMap) : Bool := bit m.kind 1
/-- Bytes of a vector. -/
def FMap.v (m : FMap) : Nat := if m.fmt = 8 ∧ m.lanes16 then 64 else fmtVec m.fmt

/-- The address of vector `vec` of a row (R305). -/
def FMap.at_ (m : FMap) (ref vec : Nat) : Nat :=
  m.base.getD (ref / 2 ^ 31) 0 + (ref % 2 ^ 21) * (m.vecs * m.v) + m.v * vec

/-- R306: the cell number is at or above CELLS_CAP. -/
def FMap.beyond (m : FMap) (ref : Nat) : Bool := ref % 2 ^ 31 ≥ m.cap

/-- A feature map from its descriptor; none when it breaks R304. -/
def FMap.ofBytes (bs : List Nat) : Option FMap :=
  let f := fun (o n : Nat) => leNat ((bs.drop o).take n)
  let m : FMap := ⟨f 0 1, f 1 1, f 2 1, f 4 4, [f 8 8, f 16 8]⟩
  if fmtValid m.fmt && (if m.fmt = 8 then m.kind ≤ 3 else m.kind = 0) && decide (1 ≤ m.vecs ∧ m.vecs ≤ 16) && f 3 1 = 0 &&
      decide (1 ≤ m.cap ∧ m.cap ≤ 2097152) && (bs.drop 24).all (· = 0) then some m else none

/-- Read a feature map's descriptor (64-byte aligned, its bases 128-byte aligned). -/
def readMap (w : Who) (s : State) (g : Nat) : Run (Option FMap × State) := do
  if g % 64 ≠ 0 then .error (.fault fAlign s)
  else
    let r ← uRead w s g 64
    match FMap.ofBytes r.1 with
    | none => pure (none, r.2)
    | some m => if m.base.any (fun b => b % 128 ≠ 0) then .error (.fault fAlign r.2) else pure (some m, r.2)

/-- The map that an entering instruction's descriptor names, as its ranges need it (R397), where it lies on this package. -/
def peekMap (s : State) (g : Nat) : Option FMap :=
  match locate s g 64 with
  | .dram d off => FMap.ofBytes (rdBytes s (dramBase d + off) 64)
  | .spm k off => FMap.ofBytes (rdBytes s (spmBase k + off) 64)
  | _ => none

/-! ### Rulebook headers as units read them (R194 to R196) -/

/-- What a unit reads of a rulebook header. -/
structure RbHead where
  addr : Nat
  die : Nat
  code : Nat
  offsets : Nat
  frame : Nat
  outGrid : Nat

/-- Read a rulebook header. -/
def readHead (w : Who) (s : State) (g : Nat) : Run (RbHead × State) := do
  let r ← uRead w s g 256
  let f := fun (o n : Nat) => leNat ((r.1.drop o).take n)
  pure (⟨g, bits g 43 1, f 6 1, f 7 1, f 8 4, f 13 1⟩, r.2)

/-- The tread count that a header names. -/
def RbHead.treads (h : RbHead) : Nat := if h.code > 4 then 0 else treadCount h.code

/-- The tread list of a tread of a grid on a die (R163, R198). -/
def treadList (s : State) (d f id k : Nat) : List Nat :=
  let read := fun (table list : Nat) =>
    (List.range (rdN s (table + 16 * k + 4) 4)).map (fun i => rdN s (list + 4 * (rdN s (table + 16 * k) 4 + i)) 4)
  if id = 0 then
    match slotFor s d f with
    | some _ => read (slotBase s d (f % 4) + 0x100) (slotBase s d (f % 4) + 0x4100000)
    | none => []
  else
    match gridOf s f id with
    | some g => read (gridArea s d g + (gridParts g.cap).2.2.1) (gridArea s d g + (gridParts g.cap).2.1)
    | none => []

/-- The output cells of segment `k` of a rulebook: its die and their numbers (R324). -/
def segCells (s : State) (h : RbHead) (k : Nat) : Nat × List Nat :=
  let d := homeDie h.code k
  (d, if (slotFor s d h.frame).isNone then [] else treadList s d h.frame h.outGrid k)

/-! ### RULE_GATHER (R307 to R313) -/

/-- The engines named. -/
def Ti.rgEngines (t : Ti) : List Nat := bitList 4 (t.d 2 1)

/-- A descriptor field of a rule gather out of range on its face. -/
def ruleGatherBad (t : Ti) : Bool :=
  bits (t.d 2 1) 4 4 ≠ 0 || t.d 4 2 > 4096 || t.d 6 1 > 1 || !t.dZero 7 1 || !t.dZero 0x44 60

/-- A misaligned address of a rule gather. -/
def ruleGatherMisaligned (t : Ti) : Bool :=
  t.d 0x40 4 % 32 ≠ 0 || (t.d 12 4 ≠ 0xFFFFFFFF && t.d 12 4 % 128 ≠ 0) ||
  t.rgEngines.any (fun e => t.d (0x20 + 4 * e) 4 % 128 ≠ 0 || t.d (0x30 + 4 * e) 4 % 8 ≠ 0)

/-- The record of a unit at an offset of its own scratchpad, written last. -/
def ownRecord (w : Who) (s : State) (off : Nat) (bs : List Nat) : Run (List UnitOut × State) :=
  if off + 32 > 0x600000 then .error (.fault fAccess (viol s (.core w.slot 8)))
  else .ok ([.write (ownAt w s off) bs], s)

/-- A refusal with BAD_DESC: only STATUS is written, and SP_REFUSED counts. -/
def refuseSp (w : Who) (s : State) (off : Nat) : Run (List UnitOut × State) :=
  ownRecord w (raiseInt (finc s w.b10 KB10.SP_REFUSED) w.b10 4) off [1]

/-- The record of R310. -/
def ruleRecord (t : Ti) (status flags steps taken range : Nat) : List Nat :=
  [status, flags, 0, 0] ++ toLe 4 steps ++ toLe 4 taken ++ toLe 4 (t.d 8 4 + taken) ++ toLe 4 range ++ List.replicate 12 0

/-- One engine's stream and row map (R308, R309). -/
def ruleStream (w : Who) (t : Ti) (m : FMap) (steps : Nat) (z : Nat × State) (e : Nat) (ps : List (Nat × Nat)) :
    Run (Nat × State) := do
  let paired := t.d 6 1 = 1
  let len := if paired then 2 * m.v else m.v
  let r ← ps.foldlM (fun (acc : List (List Nat) × (Nat × State)) p => do
    if m.beyond p.1 then pure (acc.1 ++ [List.replicate len 0], (acc.2.1 + 1, acc.2.2))
    else
      let row ← uRead w acc.2.2 (m.at_ p.1 (t.d 3 1)) len
      pure (acc.1 ++ [row.1], (acc.2.1, finc row.2 w.b10 KB10.ROWS_READ))) ([], z)
  let pad := steps - ps.length
  let vs := r.1 ++ List.replicate pad (List.replicate len 0)
  let ss := if paired then pairOf vs else stairOf m.fmt (len / 32) vs
  let entries := ps.flatMap (fun p => toLe 4 p.2 ++ toLe 4 p.1) ++ List.replicate (8 * pad) 0xFF
  let s ← ownWrite w r.2.2 (t.d (0x20 + 4 * e) 4) ss.flatten
  let s ← ownWrite w s (t.d (0x30 + 4 * e) 4) entries
  pure (r.2.1, s)

/-- Work whose outputs in the own scratchpad are undefined when it ends in fault `code` (R311). -/
def undefinedOn {α : Type} (w : Who) (code : Nat) (ps : List (Nat × Nat)) (r : Run α) : Run α :=
  match r with
  | .error (.fault c s') =>
    .error (.fault c (if c = code then uScramble w s' (ps.map (fun p => (ownAt w s' p.1, p.2))) else s'))
  | r => r

/-- A rule gather's work. -/
def ruleGatherWork (w : Who) (t : Ti) (s : State) : Run (List UnitOut × State) := do
  let res := t.d 0x40 4
  let desc := t.d 12 4
  let seg := t.d 1 1
  if ruleGatherMisaligned t then .error (.fault fAlign s)
  else if ruleGatherBad t then refuseSp w s res
  else
    let mm ← readMap w s (t.d 0x18 8)
    match mm.1 with
    | none => refuseSp w mm.2 res
    | some m =>
      let paired := t.d 6 1 = 1
      if m.fmt = 8 ∨ (if paired then t.d 3 1 + 1 ≥ m.vecs ∨ m.fmt < 1 ∨ m.fmt > 3 else t.d 3 1 ≥ m.vecs) then
        refuseSp w mm.2 res
      else
        let h ← readHead w mm.2 (t.d 0x10 8)
        let hd := h.1
        if t.d 0 1 ≥ hd.offsets ∨ seg ≥ hd.treads then refuseSp w h.2 res
        else if (slotFor s hd.die hd.frame).isNone then
          let s ← putSteps w h.2 desc 0
          ownRecord w s res (ruleRecord t 3 0 0 0 0)
        else
          let e ← uRead w h.2 (hd.addr + 0x100 + 16 * seg) 16
          let fl := e.1.getD 12 0
          if !bit fl 0 then
            let s ← putSteps w e.2 desc 0
            ownRecord w s res (ruleRecord t 2 0 0 0 0)
          else if bit fl 1 then
            let s ← putSteps w e.2 desc 0
            ownRecord w s res (ruleRecord t 0 (1 + 2 * b2n (bit fl 3)) 0 0 0)
          else
            let heap := hd.addr + leNat (e.1.take 4)
            let c ← uRead w e.2 heap (4 * hd.offsets)
            let counts := (chunks 4 hd.offsets c.1).map leNat
            let g := counts.getD (t.d 0 1) 0
            let first := t.d 8 4
            let p := g - first
            let es := t.rgEngines
            let steps := if es.isEmpty then 0 else min (t.d 4 2) ((p + es.length - 1) / es.length)
            let base := heap + (4 * hd.offsets + 63) / 64 * 64 + 8 * (counts.take (t.d 0 1)).sum
            let taken := min p (steps * es.length)
            let ps ← uRead w c.2 (base + 8 * first) (8 * taken)
            let pairs := (chunks 8 taken ps.1).map (fun b => (leNat (b.take 4), leNat (b.drop 4)))
            let z ← undefinedOn w fTargetReset
              (es.map (fun e => (t.d (0x20 + 4 * e) 4, streamBytes paired m.v steps)))
              (es.zipIdx.foldlM (fun (z : Nat × State) x =>
                if steps = 0 then pure z
                else ruleStream w t m steps z x.1 ((pairs.drop (x.2 * steps)).take steps)) (0, ps.2))
            let s ← putSteps w z.2 desc steps
            ownRecord w s res (ruleRecord t 0 (2 * b2n (bit fl 3) + 4 * b2n (z.1 ≠ 0) + 8 * b2n (first + taken < g))
              steps taken z.1)

/-- RULE_GATHER run by the sparse unit. -/
def ruleGatherRun (s : State) (slot id : Nat) : Host.Outcome State Fault Refusal := unitRun s slot id 0xC4 ruleGatherWork

/-- The declared ranges of a rule gather beside its descriptor (R312): streams of the input map's vectors, the widest where
the map cannot be seen at entry. -/
def ruleGatherRanges (s : State) (_ : Nat) (t : Ti) : List Range :=
  let n := t.d 4 2
  let res := mkRange false true (t.d 0x40 4) 32
  if ruleGatherMisaligned t || ruleGatherBad t || n = 0 then res
  else
    let v := ((peekMap s (t.d 0x18 8)).map FMap.v).getD 64
    t.rgEngines.flatMap (fun e =>
      mkRange false true (t.d (0x20 + 4 * e) 4) (streamBytes (t.d 6 1 = 1) v n) ++
      mkRange false true (t.d (0x30 + 4 * e) 4) (8 * n)) ++
    (if t.d 12 4 = 0xFFFFFFFF then [] else mkRange false true (t.d 12 4 + 8) 2) ++ res

/-! ### RULE_SCATTER (R314 to R322) -/

/-- Bytes of one lane that LANES names: an element of a 16-bit format, a 32-bit value, else a byte. -/
def laneBytes (fmt : Nat) : Nat := if fmt = 8 then 4 else if fmt = 5 ∨ fmt = 6 then 2 else 1

/-- The lanes of a vector that LANES can name. -/
def laneCount (m : FMap) : Nat := if m.fmt = 4 then 32 else m.v / laneBytes m.fmt

/-- Update one vector of a row (R317): `new` gives the vector's bytes. -/
def scatterVec (w : Who) (m : FMap) (op lanes : Nat) (s : State) (g : Nat) (new : List Nat) : Run State :=
  let ls := (List.range (laneCount m)).filter (bit lanes)
  if op = 2 then
    if ls.length = laneCount m then uWrite w s g new
    else if m.fmt = 4 then do
      let old ← uRead w s g 64
      let mix := (List.range 32).map (fun i => laneOf 4 0 (if bit lanes i then new else old.1) i)
      uWrite w old.2 g (vecOf 4 0 mix)
    else
      let lb := laneBytes m.fmt
      ls.foldlM (fun s i => uWrite w s (g + lb * i) ((new.drop (lb * i)).take lb)) s
  else
    let code := if op = 0 then (if m.fp then 6 else 0) else (if m.fp then 7 else 2)
    ls.foldlM (fun s i => uLane w s code (g + 4 * i) (leNat ((new.drop (4 * i)).take 4))) s

/-- One engine's rows (R315). -/
def scatterEngine (w : Who) (t : Ti) (m : FMap) (steps : Nat) (pd : List Nat) (z : (Nat × Nat) × State) (e : Nat) :
    Run ((Nat × Nat) × State) := do
  let out := leNat ((pd.drop (0x40 + 4 * e)).take 4)
  let a ← ownRead w z.2 out ((steps + 31) * m.v)
  let b ← ownRead w a.2 (t.d (0x10 + 4 * e) 4) (8 * steps)
  let ss := chunks m.v (steps + 31) a.1
  let lw := m.v / 32
  (List.range steps).foldlM (fun (z : (Nat × Nat) × State) j => do
    let ref := leNat ((b.1.drop (8 * j)).take 4)
    if ref = 0xFFFFFFFF then pure z
    else if m.beyond ref then pure ((z.1.1, z.1.2 + 1), z.2)
    else
      let s ← scatterVec w m (t.d 0 1) (t.d 4 4) z.2 (m.at_ ref (t.d 1 1)) (unstairAt m.fmt lw ss j)
      pure ((z.1.1 + 1, z.1.2), s)) (z.1, b.2)

/-- One engine's rows of a scatter that stops (R322): which updates have been performed is open, so free words choose the
lanes; the first fault met stands. -/
def scatterSome (w : Who) (t : Ti) (m : FMap) (steps : Nat) (pd : List Nat) (z : Option Nat × State) (e : Nat) :
    Option Nat × State :=
  let keep := fun (z : Option Nat × State) (c : Nat) (s : State) => if z.1.isSome then z else (some c, s)
  let out := leNat ((pd.drop (0x40 + 4 * e)).take 4)
  match ownRead w z.2 out ((steps + 31) * m.v) with
  | .ok a =>
    match ownRead w a.2 (t.d (0x10 + 4 * e) 4) (8 * steps) with
    | .ok b =>
      let ss := chunks m.v (steps + 31) a.1
      (List.range steps).foldl (fun (z : Option Nat × State) j =>
        let ref := leNat ((b.1.drop (8 * j)).take 4)
        if ref = 0xFFFFFFFF || m.beyond ref then z
        else
          let new := unstairAt m.fmt (m.v / 32) ss j
          let g := m.at_ ref (t.d 1 1)
          match scatterVec w m (t.d 0 1) (t.d 4 4) z.2 g new with
          | .ok _ =>
            let some_ := Nat.land (t.d 4 4) (Config.freeWord z.2.free).toNat
            match scatterVec w m (t.d 0 1) some_ (tickFree z.2) g new with
            | .ok s => (z.1, s)
            | .error _ => z
          | .error (.fault c s) => keep z c s
          | .error _ => z) (z.1, b.2)
    | .error (.fault c s) => keep z c s
    | .error _ => z
  | .error (.fault c s) => keep z c s
  | .error _ => z

/-- A rule scatter's work. -/
def ruleScatterWork (w : Who) (t : Ti) (s : State) : Run (List UnitOut × State) := do
  let res := t.d 12 4
  let engines := fun (pd : List Nat) => bitList 4 (pd.getD 6 0)
  if res % 32 ≠ 0 ∨ t.d 8 4 % 128 ≠ 0 then .error (.fault fAlign s)
  else
    let mm ← readMap w s (t.d 0x20 8)
    let q ← ownRead w mm.2 (t.d 8 4) 128
    let pd := q.1
    let steps := leNat ((pd.drop 8).take 2)
    let wide := pd.getD 1 0 = 5 ∨ pd.getD 1 0 = 6
    match mm.1 with
    | none => refuseSp w q.2 res
    | some m =>
      let bad := t.d 0 1 > 2 || t.d 1 1 ≥ m.vecs || t.d 2 2 < 1 || t.d 2 2 > 4096 || !t.dZero 0x28 24 ||
        pd.getD 3 0 ≠ m.fmt || (m.fmt = 8 && (m.fp ≠ decide (pd.getD 1 0 ≥ 2) || m.lanes16 ≠ decide wide)) ||
        (t.d 0 1 < 2 && m.fmt ≠ 8) || steps > t.d 2 2 || (m.fmt = 8 && m.lanes16 && bits (t.d 4 4) 16 16 ≠ 0)
      if bad then refuseSp w q.2 res
      else if (engines pd).any (fun e => t.d (0x10 + 4 * e) 4 % 8 ≠ 0) then .error (.fault fAlign q.2)
      else
        let z ← if steps = 0 ∨ t.d 4 4 = 0 then pure ((0, 0), q.2)
          else
            match (engines pd).foldlM (scatterEngine w t m steps pd) ((0, 0), q.2) with
            | .error (.fault c _) =>
              let r := (engines pd).foldl (scatterSome w t m steps pd) (none, q.2)
              .error (.fault (r.1.getD c) r.2)
            | r => r
        ownRecord w z.2 res ([0, 0, 0, 0] ++ toLe 4 z.1.1 ++ toLe 4 z.1.2 ++ List.replicate 20 0)

/-- RULE_SCATTER run by the skew mover. -/
def ruleScatterRun (s : State) (slot id : Nat) : Host.Outcome State Fault Refusal := unitRun s slot id 0xC5 ruleScatterWork

/-- The declared ranges of a rule scatter beside its descriptor (R320). The pass descriptor names the engines and outputs
when the scatter enters. -/
def ruleScatterRanges (s : State) (slot : Nat) (t : Ti) : List Range :=
  let n := min (t.d 2 2) 4096
  let pd := rdBytes s (spmBase slot + t.d 8 4 % 2 ^ 23) 128
  let v := if pd.getD 3 0 = 8 then (if pd.getD 1 0 = 5 ∨ pd.getD 1 0 = 6 then 64 else 128) else fmtVec (pd.getD 3 0)
  mkRange true false (t.d 8 4) 128 ++
  (bitList 4 (pd.getD 6 0)).flatMap (fun e =>
    mkRange true false (t.d (0x10 + 4 * e) 4) (8 * n) ++
    mkRange true false (leNat ((pd.drop (0x40 + 4 * e)).take 4)) (up128 ((n + 31) * v))) ++
  mkRange false true (t.d 12 4) 32

/-! ### CELL_FINISH (R323 to R326) -/

/-- The activation of step 3. -/
def activate (act clamp v : Nat) : Nat :=
  if act = 0 then (if f32nan v then fp32.nan else v)
  else if act = 1 then f32max v 0
  else f32min (f32max v 0) clamp

/-- One source vector of a cell: lanes with BIAS added, brought to FP32, activated (steps 1 to 3). -/
def finishVec (m : FMap) (act clamp : Nat) (src bias : List Nat) : List Fv :=
  ((chunks 4 (m.v / 4) src).zip (chunks 4 (m.v / 4) bias)).map (fun p =>
    let a := leNat p.1
    let b := leNat p.2
    let x := if m.fp then f32add a b else f32ofInt (sext 32 ((a + b) % 2 ^ 32))
    f32v (activate act clamp x))

/-- Finish one cell (R324). Without a bias the source lane stands. -/
def finishCell (w : Who) (t : Ti) (src : FMap) (dst : Option FMap) (bias : List Nat) (z : Nat × State) (ref : Nat) :
    Run (Nat × State) := do
  if src.beyond ref || (dst.map (fun m => m.beyond ref)).getD false then pure (z.1 + 1, z.2)
  else
    let s ← (List.range src.vecs).foldlM (fun (s : State) v => do
      let r ← uRead w s (src.at_ ref v) src.v
      let s ← match dst with
        | none => pure r.2
        | some m => do
          let b := if bias.isEmpty then List.replicate src.v 0 else (bias.drop (src.v * v)).take src.v
          let vs := finishVec src (t.d 0 1) (t.d 8 4) r.1 b
          let rs := roundings r.2 (bit (t.d 1 1) 1) vs.length
          uWrite w rs.2 (m.at_ ref v) (convertRow m.fmt false rs.1 (t.d 4 4) vs).1
      if bit (t.d 1 1) 0 then uWrite w s (src.at_ ref v) (List.replicate src.v 0) else pure s) z.2
    pure (z.1, s)

/-- A cell finish's work. -/
def cellFinishWork (w : Who) (t : Ti) (s : State) : Run (List UnitOut × State) := do
  let res := t.d 0x28 4
  let bias := t.d 12 4
  if res % 32 ≠ 0 ∨ (bias ≠ 0xFFFFFFFF ∧ bias % 128 ≠ 0) then .error (.fault fAlign s)
  else if t.d 0 1 > 2 || t.d 1 1 > 3 || !t.dZero 3 1 || !t.dZero 0x2C 20 then refuseSp w s res
  else
    let sm ← readMap w s (t.d 0x18 8)
    let dm ← if t.d 0x20 8 = 0 then pure (none, sm.2) else readMap w sm.2 (t.d 0x20 8)
    match sm.1 with
    | none => refuseSp w dm.2 res
    | some m =>
      let dstBad := t.d 0x20 8 ≠ 0 && (match dm.1 with
        | none => true
        | some q => q.vecs ≠ m.vecs || (if m.lanes16 then q.fmt ≠ 5 && q.fmt ≠ 6 else q.fmt < 1 || q.fmt > 4))
      let h ← readHead w dm.2 (t.d 0x10 8)
      if m.fmt ≠ 8 ∨ dstBad ∨ t.d 2 1 ≥ h.1.treads then refuseSp w h.2 res
      else
        let cs := segCells h.2 h.1 (t.d 2 1)
        let b ← if bias = 0xFFFFFFFF ∨ cs.2.isEmpty then pure ([], h.2) else ownRead w h.2 bias (m.vecs * m.v)
        let z ← cs.2.foldlM (fun z n => finishCell w t m dm.1 b.1 z (cellRef cs.1 n)) (0, b.2)
        ownRecord w z.2 res ([0, 0, 0, 0] ++ toLe 4 cs.2.length ++ toLe 4 z.1 ++ List.replicate 20 0)

/-- CELL_FINISH run by the skew mover. -/
def cellFinishRun (s : State) (slot id : Nat) : Host.Outcome State Fault Refusal := unitRun s slot id 0xC6 cellFinishWork

/-- The declared ranges of a cell finish beside its descriptor (R436): BIAS, one row of the source map, and RESULT. -/
def cellFinishRanges (s : State) (_ : Nat) (t : Ti) : List Range :=
  let row := ((peekMap s (t.d 0x18 8)).map (fun m => m.vecs * m.v)).getD 2048
  (if t.d 12 4 = 0xFFFFFFFF then [] else mkRange true false (t.d 12 4) row) ++ mkRange false true (t.d 0x28 4) 32

/-! ### MAP_SCATTER (R333 to R338) -/

/-- The key of a cell of a rulebook's OUT_GRID. -/
def keyOf (s : State) (h : RbHead) (d n : Nat) : List Int := ((cellOf s d h.frame h.outGrid n).map Prod.fst).getD [0, 0, 0]

/-- The map column of a key (R334); none outside the map. -/
def bevColumn (t : Ti) (key : List Int) : Option (Nat × Nat) :=
  let sh : Int := ((2 ^ t.d 2 1 : Nat) : Int)
  let bx := (key.getD 0 0 - sext 16 (t.d 4 2)).fdiv sh
  let by_ := (key.getD 1 0 - sext 16 (t.d 6 2)).fdiv sh
  if 0 ≤ bx ∧ bx < t.d 8 2 ∧ 0 ≤ by_ ∧ by_ < t.d 10 2 then some (bx.toNat, by_.toNat) else none

/-- The address of map vector `cv` of a column (R335). -/
def bevAt (t : Ti) (bx by_ cv : Nat) : Nat :=
  t.d 0x20 8 + ((((by_ / 32) * (t.d 8 2 / 32) + bx / 32) * t.d 13 1 + cv) * 1024 + by_ % 32 * 32 + bx % 32) * 128

/-- The lane values of a source vector in BEV_KIND (R336). -/
def bevLanes (m : FMap) (fp : Bool) (src : List Nat) : List Nat :=
  let vs := elements m.fmt true m.fp src
  vs.map (fun v => if fp then f32r v else match v with | .fin x e => wrap 32 (Fv.toInt .nearest x e) | _ => 0)

/-- Counts of a map scatter: OUTSIDE, FEATURE_RANGE. -/
abbrev BevSum := Nat × Nat

/-- Scatter one cell (R334). -/
def mapCell (w : Who) (t : Ti) (m : FMap) (h : RbHead) (d : Nat) (z : BevSum × State) (n : Nat) : Run (BevSum × State) := do
  match bevColumn t (keyOf z.2 h d n) with
  | none => pure ((z.1.1 + 1, z.1.2), z.2)
  | some c =>
    if m.beyond (cellRef d n) then pure ((z.1.1, z.1.2 + 1), z.2)
    else
      let fp := t.d 3 1 = 1
      let code := if t.d 0 1 = 0 then (if fp then 6 else 0) else (if fp then 7 else 2)
      let s ← (List.range (t.d 13 1)).foldlM (fun (s : State) cv => do
        let r ← uRead w s (m.at_ (cellRef d n) (t.d 12 1 + cv)) m.v
        (bevLanes m fp r.1).zipIdx.foldlM (fun s x => uLane w s code (bevAt t c.1 c.2 cv + 4 * x.2) x.1) r.2) z.2
      pure (z.1, s)

/-- A map scatter's work. -/
def mapScatterWork (w : Who) (t : Ti) (s : State) : Run (List UnitOut × State) := do
  let res := t.d 0x28 4
  if res % 32 ≠ 0 ∨ t.d 0x20 8 % 128 ≠ 0 then .error (.fault fAlign s)
  else
    let side := fun (v : Nat) => v < 32 || v > 2048 || v % 32 ≠ 0
    if t.d 0 1 > 1 || t.d 2 1 > 4 || t.d 3 1 > 1 || side (t.d 8 2) || side (t.d 10 2) || t.d 13 1 > 16 || !t.dZero 14 2 ||
        !t.dZero 0x2C 20 then refuseSp w s res
    else
      let sm ← readMap w s (t.d 0x18 8)
      match sm.1 with
      | none => refuseSp w sm.2 res
      | some m =>
        let h ← readHead w sm.2 (t.d 0x10 8)
        let srcOk := if t.d 3 1 = 0 then m.fmt = 1 || (m.fmt = 8 && !m.fp && !m.lanes16)
          else m.fmt = 1 || m.fmt = 2 || m.fmt = 3 || (m.fmt = 8 && !m.lanes16)
        if !srcOk || decide (t.d 12 1 + t.d 13 1 > m.vecs) || decide (t.d 1 1 ≥ h.1.treads) then refuseSp w h.2 res
        else
          let cs := segCells h.2 h.1 (t.d 1 1)
          let ns := if t.d 13 1 = 0 then [] else cs.2
          let z ← ns.foldlM (mapCell w t m h.1 cs.1) ((0, 0), h.2)
          ownRecord w z.2 res ([0, 0, 0, 0] ++ toLe 4 ns.length ++ toLe 4 z.1.1 ++ toLe 4 z.1.2 ++ List.replicate 16 0)

/-- MAP_SCATTER run by the skew mover. -/
def mapScatterRun (s : State) (slot id : Nat) : Host.Outcome State Fault Refusal := unitRun s slot id 0xC7 mapScatterWork

/-- The declared ranges of a map scatter beside its descriptor (R338). -/
def mapScatterRanges (_ : State) (_ : Nat) (t : Ti) : List Range := mkRange false true (t.d 0x28 4) 32

end Sys2Proof.Machine
end

