-- ==== Sys2Proof/Machine/HallQuery.lean ====
section
/-!
DEFINITION. HALL_QUERY (R437 to R440): lookups of keys in the Voxel Halls.
-/

namespace Sys2Proof.Machine

/-- What a lookup of one key gives: its result, or a home Hall that answers TARGET_RESET. -/
def queryKey (s : State) (slot f : Nat) (bs : List Nat) : Option Nat :=
  match frameSlot s (slotDie slot) f with
  | none => some 0xFFFFFFFE
  | some x =>
    let key := (chunks 2 3 bs).map (fun b => sext 16 (leNat b))
    let d := homeDie x.code (treadOf x.b x.code (voxelCentre x.voxel key))
    if outOfService s (.point d) then (if x.live then none else some 0xFFFFFFFE)
    else
      match hallLookup s d f key with
      | .cell n => some (cellRef d n)
      | .none_ => some 0xFFFFFFFF
      | .expired => some 0xFFFFFFFE

/-- A query descriptor that R440 calls BAD_DESC. -/
def hallQueryBad (t : Ti) : Bool := t.d 4 4 > 65536 || !t.dZero 0x1C 4

/-- HALL_QUERY's work. -/
def hallQueryWork (w : Who) (t : Ti) (s : State) : Run (List UnitOut × State) := do
  let n := t.d 4 4
  let out := t.d 0x10 8
  let res := t.d 0x18 4
  let record := fun (s : State) (bs : List Nat) =>
    if res + 32 > 0x600000 then .error (.fault fAccess (viol s (.core w.slot 8)))
    else .ok ([UnitOut.write (ownAt w s res) bs], s)
  if t.d 8 8 % 8 ≠ 0 ∨ out % 4 ≠ 0 ∨ res % 32 ≠ 0 then .error (.fault fAlign s)
  else if hallQueryBad t then record s [1]
  else
    let ks ← uRead w s (t.d 8 8) (8 * n)
    let rs := (chunks 8 n ks.1).map (queryKey ks.2 w.slot (t.d 0 4))
    let good := rs.takeWhile Option.isSome
    let s ← uWrite w ks.2 out (good.flatMap (fun r => toLe 4 (r.getD 0)))
    if good.length < rs.length then
      .error (.fault fTargetReset (uScramble w (stubAnswered s) [(out + 4 * good.length, 4 * (rs.length - good.length))]))
    else
      let count := fun (p : Nat → Bool) => (good.filter (fun r => p (r.getD 0))).length
      let miss := count (· = 0xFFFFFFFF)
      let gone := count (· = 0xFFFFFFFE)
      record s (toLe 4 0 ++ toLe 4 (n - miss - gone) ++ toLe 4 miss ++ toLe 4 gone ++ List.replicate 16 0)

/-- HALL_QUERY run by the Voxel Halls. -/
def hallQueryRun (s : State) (slot id : Nat) : Host.Outcome State Fault Refusal := unitRun s slot id 0xCA hallQueryWork

/-- The declared ranges of HALL_QUERY (R436). -/
def hallQueryRanges (s : State) (slot : Nat) (t : Ti) : List Range :=
  let n := if hallQueryBad t then 0 else t.d 4 4
  hullRange s slot true false [(t.d 8 8, 8 * n)] ++ hullRange s slot false true [(t.d 0x10 8, 4 * n)] ++
  mkRange false true (t.d 0x18 4) 32

end Sys2Proof.Machine
end

