-- ==== Sys2Proof/Machine/Mover.lean ====
section
/-!
DEFINITION. MOVE (R451 to R459, R476): the skew mover's copies, fills, layouts, expansions and splits.
-/

namespace Sys2Proof.Machine

/-- OP of a move. -/
def Ti.mvOp (t : Ti) : Nat := t.d 0 1
/-- A FLAGS bit of a move. -/
def Ti.mvFlag (t : Ti) (i : Nat) : Bool := bit (t.d 3 1) i
/-- ROWS. -/
def Ti.mvRows (t : Ti) : Nat := t.d 8 4
/-- ROW_BYTES. -/
def Ti.mvRow (t : Ti) : Nat := t.d 12 4
/-- RESULT. -/
def Ti.mvResult (t : Ti) : Nat := t.d 0x38 4

/-- The bytes of a plain destination row: the same elements in DST_FMT (R451). -/
def Ti.mvOutRow (t : Ti) : Nat :=
  if t.mvOp = 6 then t.mvRow / 2
  else if t.mvOp = 7 then t.mvRow / 4 * 2
  else if t.mvOp = 1 then t.mvRow
  else t.mvRow * 8 / fmtBits (t.d 1 1) * fmtBits (t.d 2 1) / 8

/-- Bytes of a vector of the source in stair layout; an ACC32 row of 64 bytes is one of 16-bit mode (R223). -/
def Ti.mvVec (t : Ti) : Nat := if t.d 1 1 = 8 ∧ t.mvRow = 64 then 64 else fmtVec (t.d 1 1)

/-- A descriptor that R453 refuses. -/
def moveBad (t : Ti) : Bool :=
  let op := t.mvOp
  let sf := t.d 1 1
  let df := t.d 2 1
  let rows := t.mvRows
  let rb := t.mvRow
  let big := op = 2 || op = 3 || op = 4
  op > 7 || bits (t.d 3 1) 5 3 ≠ 0 || t.d 4 1 > 63 || !t.dZero 5 3 || !t.dZero 0x3C 68 ||
  rows > (if big then 4096 else 1048576) || rb > 1048576 || !fmtValid sf || !fmtValid df ||
  ((op = 1 || op = 6 || op = 7) && (sf ≠ 0 || df ≠ 0)) ||
  (op = 5 && (df ≠ sf || !fmtBitmap sf)) ||
  (op ≠ 1 && op < 6 && (rb * 8 % fmtBits sf ≠ 0 || ((sf = 4 || df = 4) && rb * 8 / fmtBits sf % 32 ≠ 0))) ||
  (op = 6 && rb % 2 ≠ 0) || (op = 7 && rb % 4 ≠ 0) ||
  ((op = 0 || op = 1) && (rb % 4 ≠ 0 || rb * 8 / fmtBits sf * fmtBits df % 32 ≠ 0)) ||
  (op = 2 && rb ≠ t.mvVec) || (op = 4 && rb ≠ 64) ||
  (op = 4 && (sf ≠ df || sf < 1 || sf > 3)) ||
  ((op = 2 || op = 4) && t.d 0x2C 4 ≠ 0) || ((op = 3 || op = 5) && t.d 0x28 4 ≠ 0) ||
  (op < 6 && t.d 0x20 8 ≠ 0) ||
  (t.mvFlag 1 && bits (t.d 0x18 8) 44 4 ≠ 1)

/-- An address or stride that R454 faults. -/
def moveMisaligned (t : Ti) : Bool :=
  let op := t.mvOp
  let line := fun (off : Nat) => t.d off 8 % 128 ≠ 0
  ((op = 2 || op = 4 || op = 5) && line 0x18) || ((op = 3 || op = 5) && line 0x10) ||
  (op ≠ 1 && (t.d 0x10 8 % 4 ≠ 0 || t.d 0x28 4 % 4 ≠ 0)) || t.d 0x18 8 % 4 ≠ 0 || t.d 0x2C 4 % 4 ≠ 0 ||
  (op ≥ 6 && t.d 0x20 8 % 4 ≠ 0)

/-- What a move has written: bytes, and elements that R268 marks. -/
structure MoveSum where
  bytes : Nat
  sat : Nat

/-- Write bytes of the destination and count them (MV_BYTES). -/
def mvPut (w : Who) (z : MoveSum × State) (g : Nat) (bs : List Nat) : Run (MoveSum × State) := do
  let s ← uWrite w z.2 g bs
  pure ({ z.1 with bytes := z.1.bytes + bs.length }, fadd64 s (.core w.slot 9) KB9.MV_BYTES_LO KB9.MV_BYTES_HI bs.length)

/-- Convert one row when the formats differ (R452, R263); FP32 and INT32, the two formats of an ACC32 side, differ too
(DEDUCED, assumption 49). -/
def mvConvert (w : Who) (t : Ti) (z : MoveSum × State) (row : List Nat) : List Nat × (MoveSum × State) :=
  let sf := t.d 1 1
  let df := t.d 2 1
  if sf = df ∧ (sf ≠ 8 ∨ t.mvFlag 2 = t.mvFlag 3) then (row, z)
  else
    let vs := elements sf true (t.mvFlag 2) row
    let rs := roundings z.2 (t.mvFlag 0) vs.length
    let r := convertRow df (t.mvFlag 3) rs.1 (t.d 0x30 4) vs
    (r.1, ({ z.1 with sat := z.1.sat + r.2 }, fadd rs.2 (.core w.slot 9) KB9.MV_SATURATED r.2))

/-- A vector of a stair destination is at least 32 bytes. -/
def padVec (v : List Nat) : List Nat := v ++ List.replicate (32 - v.length) 0

/-- Row `j` of the source. -/
def mvRowAt (w : Who) (t : Ti) (s : State) (j : Nat) : Run (List Nat × State) :=
  uRead w s (t.d 0x10 8 + j * t.d 0x28 4) t.mvRow

/-- The address of destination row `j` at a base. -/
def mvDst (t : Ti) (off j : Nat) : Nat := t.d off 8 + j * t.d 0x2C 4

/-- A bad tile head (R455). -/
def tileBad (fmt : Nat) (h : List Nat) : Bool :=
  let form := h.getD 0 0
  let nz := leNat ((h.drop 4).take 2)
  let size := leNat ((h.drop 8).take 4)
  form > 1 || h.getD 1 0 ≠ fmt || size ≠ (if form = 0 then 1152 else up128 (144 + nz))

/-- The bytes of a BITMAP tile from its map and the bytes that follow; a byte the tile does not hold takes a free value. -/
def tileBytes (free : Nat) (map_ : List Nat) : Nat → List Nat → List Nat
  | i, xs =>
    ((List.range 1024).foldl (fun (acc : List Nat × List Nat) k =>
      if bit (map_.getD (k / 8) 0) (k % 8) then
        match acc.2 with
        | x :: rest => (x :: acc.1, rest)
        | [] => ((Config.freeByte (free + i + k)).toNat :: acc.1, [])
      else (0 :: acc.1, acc.2)) ([], xs)).1.reverse

/-- EXPAND from tile `i` at address `g`, `n` tiles left (R452, R455); the number of the bad tile, if any. -/
def mvExpand (w : Who) (t : Ti) : Nat → Nat → Nat → MoveSum × State → Run (Option Nat × (MoveSum × State))
  | 0, _, _, z => pure (none, z)
  | n + 1, i, g, z => do
    let h ← uRead w z.2 g 16
    if tileBad (t.d 1 1) h.1 then pure (some i, (z.1, h.2))
    else
      let size := leNat ((h.1.drop 8).take 4)
      let b ← uRead w h.2 g size
      let tile :=
        if h.1.getD 0 0 = 0 then (b.1.drop 16).take 1024
        else tileBytes b.2.free ((b.1.drop 16).take 128) 0 (b.1.drop 144)
      let s := if h.1.getD 0 0 = 0 then b.2 else { b.2 with free := b.2.free + 1024 }
      let z ← mvPut w (z.1, s) (mvDst t 0x18 i) tile
      mvExpand w t n (i + 1) (g + size) z

/-- The source rows, converted. -/
def mvRows (w : Who) (t : Ti) (z : MoveSum × State) : Run (List (List Nat) × (MoveSum × State)) :=
  (List.range t.mvRows).foldlM (fun acc j => do
    let r ← mvRowAt w t acc.2.2 j
    let c := mvConvert w t (acc.2.1, r.2) r.1
    pure (acc.1 ++ [c.1], c.2)) ([], z)

/-- The effect of a move's OP (R452); the number of a bad tile, if any. -/
def mvPerform (w : Who) (t : Ti) (z : MoveSum × State) : Run (Option Nat × (MoveSum × State)) :=
  let rows := List.range t.mvRows
  match t.mvOp with
  | 0 => do
    let z ← rows.foldlM (fun z j => do
      let r ← mvRowAt w t z.2 j
      let c := mvConvert w t (z.1, r.2) r.1
      mvPut w c.2 (mvDst t 0x18 j) c.1) z
    pure (none, z)
  | 1 => do
    let row := (List.replicate (t.mvRow / 4) (toLe 4 (t.d 0x34 4))).flatten
    let z ← rows.foldlM (fun z j => mvPut w z (mvDst t 0x18 j) row) z
    pure (none, z)
  | 2 => do
    let r ← mvRows w t z
    let vs := r.1.map padVec
    let ss := stairOf (t.d 2 1) ((vs.headD []).length / 32) vs
    let z ← mvPut w r.2 (t.d 0x18 8) (pad128 ss.flatten)
    pure (none, z)
  | 3 => do
    let vb := t.mvVec
    let r ← uRead w z.2 (t.d 0x10 8) ((t.mvRows + 31) * vb)
    let ss := chunks vb (t.mvRows + 31) r.1
    let z ← rows.foldlM (fun z j => do
      let c := mvConvert w t z (unstairAt (t.d 1 1) (vb / 32) ss j)
      mvPut w c.2 (mvDst t 0x18 j) c.1) (z.1, r.2)
    pure (none, z)
  | 4 => do
    let r ← mvRows w t z
    let z ← mvPut w r.2 (t.d 0x18 8) (pad128 (pairOf r.1).flatten)
    pure (none, z)
  | 5 => mvExpand w t t.mvRows 0 (t.d 0x10 8) z
  | op => do
    let z ← rows.foldlM (fun z j => do
      let r ← mvRowAt w t z.2 j
      let hl :=
        if op = 6 then
          let ps := chunks 2 r.1.length r.1
          (ps.map (fun p => p.getD 1 0), ps.map (fun p => p.getD 0 0))
        else
          let ps := (chunks 4 r.1.length r.1).map (fun p => splitBf16 (leNat p))
          (ps.flatMap (fun p => toLe 2 p.1), ps.flatMap (fun p => toLe 2 p.2))
      let z ← mvPut w (z.1, r.2) (mvDst t 0x18 j) hl.1
      mvPut w z (mvDst t 0x20 j) hl.2) z
    pure (none, z)

/-- R458: the result record. -/
def moveRecord (w : Who) (t : Ti) (s : State) (status bytes sat tile : Nat) : List UnitOut :=
  if t.mvResult = 0xFFFFFFFF then []
  else [.write (ownAt w s t.mvResult)
    ([status, 0, 0, 0] ++ toLe 4 bytes ++ toLe 4 sat ++ toLe 4 tile ++ List.replicate 16 0)]

/-- A move's work (R452 to R458). -/
def moveWork (w : Who) (t : Ti) (s : State) : Run (List UnitOut × State) := do
  let p := Page.core w.slot 9
  let rec_ := t.mvResult ≠ 0xFFFFFFFF
  if rec_ ∧ t.mvResult % 32 ≠ 0 then .error (.fault fAlign s)
  else if moveBad t then
    if rec_ ∧ t.mvResult + 32 > 0x600000 then .error (.fault fAccess (viol s (.core w.slot 8)))
    else
    pure (if rec_ then [.write (ownAt w s t.mvResult) [1]] else [], raiseInt (finc s p KB9.MV_REFUSED) p 0)
  else if moveMisaligned t then .error (.fault fAlign s)
  else
    let z0 : MoveSum × State := (⟨0, 0⟩, s)
    let r ← if t.mvRow = 0 then pure (none, z0) else mvPerform w t z0
    let z := r.2
    let s := if r.1.isSome then raiseInt (finc z.2 p KB9.MV_BAD_TILE) p 1 else z.2
    if rec_ ∧ t.mvResult + 32 > 0x600000 then .error (.fault fAccess (viol s (.core w.slot 8)))
    else
    let arr := if t.mvFlag 1 then [UnitOut.arrive (t.d 0x18 8) (t.d 4 1)] else []
    pure (arr ++ moveRecord w t s (if r.1.isSome then 2 else 0) z.1.bytes z.1.sat (r.1.getD 0), s)

/-- The parts of the destination that a move has still to write once `n` bytes are written (R456). -/
def moveRest (t : Ti) (n : Nat) : List (Nat × Nat) :=
  let rows := t.mvRows
  let plain := fun (off len k : Nat) => ((List.range rows).drop k).map (fun j => (mvDst t off j, len))
  let vb := t.mvVec * 8 / fmtBits (t.d 1 1) * fmtBits (t.d 2 1) / 8
  match t.mvOp with
  | 0 | 1 => plain 0x18 t.mvOutRow (n / max 1 t.mvOutRow)
  | 2 => if n = 0 then [(t.d 0x18 8, up128 ((rows + 31) * max 32 t.mvOutRow))] else []
  | 3 => plain 0x18 vb (n / max 1 vb)
  | 4 => if n = 0 then [(t.d 0x18 8, up128 ((rows + 30) * 64))] else []
  | 5 => plain 0x18 1024 (n / 1024)
  | _ => plain 0x18 t.mvOutRow ((n + t.mvOutRow) / max 1 (2 * t.mvOutRow)) ++
      plain 0x20 t.mvOutRow (n / max 1 (2 * t.mvOutRow))

/-- The bytes that moves of a core have written (MV_BYTES). -/
def mvBytes (s : State) (slot : Nat) : Nat :=
  fget s (.core slot 9) KB9.MV_BYTES_LO + fget s (.core slot 9) KB9.MV_BYTES_HI * 2 ^ 32

/-- A move's work; after a fault of R456 the rest of the destination is undefined. -/
def moveTry (w : Who) (t : Ti) (s : State) : Run (List UnitOut × State) :=
  match moveWork w t s with
  | .error (.fault c s') =>
    if c = fTargetReset ∨ c = fEcc ∨ c = fParity then
      .error (.fault c (uScramble w s' (moveRest t ((mvBytes s' w.slot + 2 ^ 64 - mvBytes s w.slot) % 2 ^ 64))))
    else .error (.fault c s')
  | r => r

/-- MOVE run by the skew mover. -/
def moveRun (s : State) (slot id : Nat) : Host.Outcome State Fault Refusal := unitRun s slot id 0xC1 moveTry

/-- The declared ranges of a move beside its descriptor (R457). One that will be refused declares its record alone. -/
def moveRanges (s : State) (slot : Nat) (t : Ti) : List Range :=
  let rec_ := if t.mvResult = 0xFFFFFFFF then [] else mkRange false true t.mvResult 32
  if moveBad t || t.mvRows = 0 || t.mvRow = 0 then rec_
  else
    let n := t.mvRows
    let plain := fun (off stride len : Nat) => (List.range n).map (fun j => (t.d off 8 + j * t.d stride 4, len))
    let rd := fun ps => hullRange s slot true false ps
    let wr := fun ps => hullRange s slot false true ps
    let ob := t.mvOutRow
    match t.mvOp with
    | 0 => rd (plain 0x10 0x28 t.mvRow) ++ wr (plain 0x18 0x2C ob) ++ rec_
    | 1 => wr (plain 0x18 0x2C ob) ++ rec_
    | 2 => rd (plain 0x10 0x28 t.mvRow) ++ wr [(t.d 0x18 8, up128 ((n + 31) * max 32 ob))] ++ rec_
    | 3 => rd [(t.d 0x10 8, (n + 31) * t.mvVec)] ++
        wr (plain 0x18 0x2C (t.mvVec * 8 / fmtBits (t.d 1 1) * fmtBits (t.d 2 1) / 8)) ++ rec_
    | 4 => rd (plain 0x10 0x28 t.mvRow) ++ wr [(t.d 0x18 8, up128 ((n + 30) * 64))] ++ rec_
    | 5 => rd [(t.d 0x10 8, n * 1152)] ++ wr (plain 0x18 0x2C 1024) ++ rec_
    | _ => rd (plain 0x10 0x28 t.mvRow) ++ wr (plain 0x18 0x2C ob) ++ wr (plain 0x20 0x2C ob) ++ rec_

end Sys2Proof.Machine
end

