-- ==== Sys2Proof/Machine/Tensor.lean ====
section
/-!
DEFINITION. The life of a tensor instruction (R375, R397 to R405, R429 to R436): issue, entry to the scoreboard, admission to
its queue, the way to its unit, retirement, and the delivery of its fault.
-/

namespace Sys2Proof.Machine

/-! ### Descriptors and ranges (R397, R436) -/

/-- Bytes of an opcode's descriptor, which is also its alignment. -/
def descBytes (op : Nat) : Nat :=
  if op ≤ 0xC2 ∨ op = 0xC4 then 128
  else if op = 0xCA ∨ op = 0xCD ∨ op = 0xCE then 32
  else 64

/-- The declared ranges of an instruction beside its descriptor. -/
def declaredRanges (s : State) (slot : Nat) (t : Ti) : List Range :=
  match t.op with
  | 0xC0 => (passOf s slot t).ranges
  | 0xC1 => moveRanges s slot t
  | 0xC2 => gatherRanges s slot t
  | 0xC3 => compressRanges s slot t
  | 0xC4 => ruleGatherRanges s slot t
  | 0xC5 => ruleScatterRanges s slot t
  | 0xC6 => cellFinishRanges s slot t
  | 0xC7 => mapScatterRanges s slot t
  | 0xC8 => recordRange s slot 0x20 t
  | 0xC9 => nbrRanges s slot t
  | 0xCA => hallQueryRanges s slot t
  | 0xCB => embGatherRanges s slot t
  | 0xCC => embUpdateRanges s slot t
  | _ => embFlushRanges s slot t

/-- Two ranges share a line. -/
def Range.shares (a b : Range) : Bool := decide (a.start < b.start + b.lines) && decide (b.start < a.start + a.lines)

/-- R398: a new range conflicts with an earlier one. -/
def Range.conflicts (new old : Range) : Bool := new.shares old && ((new.rd && old.wr) || (new.wr && (old.wr || old.rd)))

/-- R400: a range that is written shares a line with another of the same instruction. -/
def selfOverlap (rs : List Range) : Bool :=
  rs.zipIdx.any (fun a => a.1.wr && rs.zipIdx.any (fun b => a.2 ≠ b.2 && a.1.shares b.1))

/-- The hazards that new ranges meet: 1 read after write, 2 write after write, 4 write after read. -/
def hazards (new old : List Range) : Nat :=
  let some_ := fun (f : Range → Range → Bool) => new.any (fun a => old.any (fun b => a.shares b && f a b))
  b2n (some_ (fun a b => a.rd && b.wr)) + 2 * b2n (some_ (fun a b => a.wr && b.wr)) + 4 * b2n (some_ (fun a b => a.wr && b.rd))

/-- Instructions that a queue holds (R375). -/
def queueRoom (q : Queue) : Nat :=
  match q with
  | .engine => 64 | .mover => 64 | .sparse => 32 | .embedding => 32

/-- Instructions of a queue entered and not yet with their unit. -/
def queueUsed (s : State) (slot : Nat) (q : Queue) : Nat :=
  ((coreAt s slot).tis.filter (fun t => queueOf t.op = q && (t.phase = .entered || t.isQueued))).length

/-! ### Issue and entry -/

/-- Issue the four words of a tensor instruction: the context is BLOCKED until it has entered (R430). -/
def tensorIssue (s : State) (op : Nat) (t : ThreadRef) (base : RegNum) (offset : Word) (notify : Byte) (w3 : Word) :
    Host.Outcome State Fault Refusal :=
  if mayIssue s t [base.val * 2 ^ 8 + op, offset.toNat, notify.toNat, w3.toNat] then
    let s := takeTurn s t
    let x := cref s t
    let desc := ((x.rget base.val).toNat + offset.toNat) % 2 ^ 64
    .next (setRef s t { x with st := .blocked, hold := .tensor ⟨op, desc, notify.toNat, w3.toNat, false⟩ })
  else .next s

/-- R431, R442: the checks before the descriptor is read. -/
def entryFault (i : Issuing) : Option Nat :=
  let n := descBytes i.op
  if bit i.notify 6 ∨ (i.op ≠ 0xC9 ∧ i.w3 ≠ 0) then some fAccess
  else if i.desc + n > 0x600000 then some fAccess
  else if i.desc % n ≠ 0 then some fAlign
  else if i.op = 0xC9 ∧ i.w3 ≠ 0xFFFFFFFF ∧ i.w3 % 32 ≠ 0 then some fAlign
  else none

/-- Older loads of the thread from lines that the instruction will write are performed first (R387). -/
def captureUnder (s : State) (slot c : Nat) (rs : List Range) : State :=
  (rs.filter Range.wr).foldl (fun s r =>
    (captureLoads s slot c (spmGlobal s slot (r.start * 128)) (r.lines * 128) 0 ((ctxAt s slot c).loads.length + 1)).2) s

/-- The instruction takes its entries. -/
def enterTi (s : State) (slot c : Nat) (t : Ti) : State :=
  let k := coreAt s slot
  let p := Page.core slot 2
  let hz := hazards t.ranges (entries s slot)
  let id := k.nextId + 1
  let t := { t with id := id, waited := hz }
  let s := setCore s slot { k with tis := k.tis ++ [t], nextId := id }
  let s := if bit hz 0 then finc s p KB2.SB_RAW_WAIT else s
  let s := if bit hz 1 then finc s p KB2.SB_WAW_WAIT else s
  let s := if bit hz 2 then finc s p KB2.SB_WAR_WAIT else s
  let used := entriesUsed s slot
  let s := if fget s p KB2.SB_PEAK < used then fset s p KB2.SB_PEAK used else s
  let x := ctxAt s slot c
  countIssue (setCtx s slot c { x with st := .ready, hold := .none, pc := (x.pc + 16) % 2 ^ 64, unretired := x.unretired + 1,
                                       since := s.now }) slot

/-- A tensor instruction faults at entry (R430). -/
def enterFault (s : State) (t : ThreadRef) (e : Nat) : Host.Outcome State Fault Refusal :=
  done (faultHere (countIssue s t.slot.val) t.slot.val t.ctx.val e)

/-- A tensor instruction as it enters, its descriptor `desc` read. -/
def enteringTi (x : Ctx) (c : Nat) (i : Issuing) (desc : List Nat) : Ti where
  id := 0
  op := i.op
  ctx := c
  domain := x.domain
  cls := x.cls
  pc := x.pc
  notify := i.notify
  w3 := i.w3
  descAt := i.desc
  desc := desc
  ranges := []
  phase := .entered
  waited := 0
  owned := true
  far := []
  owed := 0
  out := []
  fin := []
  prog := []

/-- Entry with the descriptor read in `s2` (R398, R400): a self-overlap faults, and a full scoreboard keeps it waiting in `s`,
counted once. -/
def enterRanges (s : State) (t : ThreadRef) (i : Issuing) (desc : List Nat) (s2 : State) :
    Host.Outcome State Fault Refusal :=
  let slot := t.slot.val
  let c := t.ctx.val
  let x := cref s t
  let p := Page.core slot 2
  let u := enteringTi x c i desc
  let rs := mkRange true false i.desc (descBytes i.op) ++ declaredRanges s slot u
  if selfOverlap rs then enterFault (raiseInt (finc s2 p KB2.SB_SELF_OVERLAP) p 0) t fScoreboard
  else if entriesUsed s slot + rs.length > 256 then
    if i.counted then .next s
    else done (setRef (raiseInt (finc s p KB2.SB_FULL_WAIT) p 1) t { x with hold := .tensor { i with counted := true } })
  else
    let s := captureUnder s2 slot c rs
    if (cref s t).st = .faulted then done s else done (enterTi s slot c { u with ranges := rs })

/-- Entry of an instruction whose queue has room: its checks, and its descriptor, which waits for a pending write (R431). -/
def enterChecked (s : State) (t : ThreadRef) (i : Issuing) : Host.Outcome State Fault Refusal :=
  let slot := t.slot.val
  let n := descBytes i.op
  match entryFault i with
  | some e => enterFault s t e
  | none =>
    if lineWritten s slot i.desc n then .next s
    else
      let r := coreRead s (cref s t).rq (some slot) (spmGlobal s slot i.desc) n
      match r.1 with
      | .ok => enterRanges s t i r.2.1 r.2.2
      | e => enterFault r.2.2 t e.fault

/-- TENSOR_ENTER (R430, R431, R400, R401): the BLOCKED thread's tensor instruction enters, once fewer than 16 of the thread's
are unretired, its queue has room, no entered instruction writes a line of its descriptor, and its entries are free. -/
def execTensorEnter (t : ThreadRef) (s : State) : Host.Outcome State Fault Refusal :=
  let slot := t.slot.val
  let x := cref s t
  match x.hold with
  | .tensor i =>
    if outOfService s (.core slot) || decide (16 ≤ x.unretired) ||
        decide (queueRoom (queueOf i.op) ≤ queueUsed s slot (queueOf i.op)) then .next s
    else enterChecked s t i
  | _ => .next s

/-! ### Admission and dispatch -/

/-- TENSOR_ADMIT (R398, R399): none of the instruction's ranges conflicts with one that entered before it, or with a held set. -/
def execTensorAdmit (slot : Fin 40) (id : Nat) (s : State) : Host.Outcome State Fault Refusal :=
  let n := slot.val
  let k := coreAt s n
  match tiAt s n id with
  | none => .next s
  | some t =>
    let before := (k.tis.takeWhile (fun u => u.id ≠ id)).flatMap Ti.ranges ++ k.kept.map Kept.range
    if t.phase ≠ .entered || outOfService s (.core n) || t.ranges.any (fun r => before.any r.conflicts) then .next s
    else
      let s := putTi s n { t with phase := .queued k.nextOrder }
      let s := setCore s n { coreAt s n with nextOrder := k.nextOrder + 1 }
      done (fadd64 s (.core n 2) KB2.SB_ADMITTED_LO KB2.SB_ADMITTED_HI 1)

/-- R302, R365, R475, R677: whether a unit's enables and quiesce requests let it take an instruction from its queue. -/
def unitTakes (s : State) (slot : Nat) (t : Ti) : Bool :=
  match queueOf t.op with
  | .engine => true
  | .mover => fbit s (.core slot 9) KB9.MV_CTRL && !quiescing s (.core slot 9)
  | .sparse => !quiescing s (.core slot 10) && (fbit s (.core slot 10) KB10.SP_CTRL_EN || (t.op ≠ 0xC2 && t.op ≠ 0xC3))
  | .embedding =>
    let p := Page.cl (slotDie slot) (slotCluster slot) 2
    !quiescing s p && (fbit s p CB2.RC_CTRL_UPD_EN || t.op = 0xCB)

/-- QUEUE_DISPATCH (R378, R432): a queue passes the next instruction to its unit: the highest class that is not held, in order
of admission. The mover and the core's sparse unit run one at a time; forwarded ones do not hold the sparse unit up. -/
def execQueueDispatch (slot : Fin 40) (q : Queue) (s : State) : Host.Outcome State Fault Refusal :=
  let n := slot.val
  if outOfService s (.core n) || s.sup.stopped then .next s
  else
    match q with
    | .engine => done (nextPass s n)
    | q =>
      let ready := (queued s n q).filter (fun t => !classHeld s n t.cls && unitTakes s n t)
      match (sortBy (fun t => t.cls * 2 ^ 64 + t.order) ready).head? with
      | none => .next s
      | some t =>
        let busy := (q = .mover || (q = .sparse && !forwarded t.op)) && !(runningOn s n q).isEmpty
        if busy then .next s else done (putTi s n { t with phase := .running })

/-! ### Retirement and faults -/

/-- An instruction leaves its core and its thread. -/
def removeTi (s : State) (slot : Nat) (t : Ti) : State :=
  let k := coreAt s slot
  let s := setCore s slot { k with tis := k.tis.filter (fun u => u.id ≠ t.id) }
  let x := ctxAt s slot t.ctx
  if t.owned then setCtx s slot t.ctx { x with unretired := x.unretired - 1 } else s

/-- The counter that a descriptor names for its own notification (R242, R286, R342, R354). -/
def descNotify (t : Ti) : Option Nat :=
  let flagged := fun (b : Nat) => if bit b 7 then some (b % 64) else none
  if t.op = 0xC0 then (if bit (t.d 0xA 1) 0 then some (t.d 0xB 1 % 64) else none)
  else if t.op = 0xC3 then flagged (t.d 3 1)
  else if t.op = 0xCB ∨ t.op = 0xCC then flagged (t.d 2 1)
  else none

/-- R402, R433: an instruction retires: its ranges are released, and the counters of word 2 and of its descriptor are
incremented. -/
def retireTi (s : State) (slot : Nat) (t : Ti) : State :=
  let s := removeTi s slot t
  let s := if bit t.notify 7 then ctrAdd s slot (t.notify % 64) 1 else s
  let s := match descNotify t with | some n => ctrAdd s slot n 1 | none => s
  if t.op = 0xC1 then finc s (.core slot 9) KB9.MV_MOVES
  else if t.op = 0xC9 ∧ t.prog = [1] ∧ bit (t.d 0x2A 1) 0 then notifyCore s (t.d 0x28 1, t.d 0x29 1) 1
  else s

/-- TENSOR_RETIRE (R232, R234, R433): a pass in flight writes its outputs and retires with the chain it ends; any other
instruction that has finished retires. -/
def execTensorRetire (slot : Fin 40) (id : Nat) (s : State) : Host.Outcome State Fault Refusal :=
  let n := slot.val
  if outOfService s (.core n) then .next s
  else
    match tiAt s n id with
    | none => .next s
    | some t =>
      match t.phase with
      | .retiring => done (retireTi (if t.op = 0xC0 then countRetired s n 1 else s) n t)
      | .running =>
        if t.op ≠ 0xC0 then .next s
        else
          match passRetire s n id with
          | none => .next s
          | some (ids, s) =>
            done (ids.foldl (fun s i => match tiAt s n i with | some u => retireTi s n u | none => s)
              (countRetired s n ids.length))
      | _ => .next s

/-- TENSOR_FAULT_DELIVER (R434, R435): the fault reaches the thread, and the instruction's ranges are released. -/
def execTensorFaultDeliver (slot : Fin 40) (id : Nat) (s : State) : Host.Outcome State Fault Refusal :=
  let n := slot.val
  if outOfService s (.core n) then .next s
  else
    match tiAt s n id with
    | none => .next s
    | some t =>
      match t.phase with
      | .faulting c =>
        let code := c % 256
        let s := removeTi { s with err.inj := decide (256 ≤ c) } n t
        let s := if t.op = 0xC1 ∧ (code = fTargetReset ∨ code = fEcc ∨ code = fParity) then
            raiseInt (finc s (.core n 9) KB9.MV_FAULTED) (.core n 9) 2
          else s
        if t.owned then done (faultCtx s n t.ctx code t.pc (ctxAt s n t.ctx).pc) else done s
      | _ => .next s

/-! ### The tensor opcodes (R436) -/

/-- PASS (R217, R436). A pass runs by PASS_NEXT, PASS_ISSUE and TENSOR_RETIRE; its unit has no command of its own. -/
def execPass (o : TensorOp) (s : State) : Host.Outcome State Fault Refusal :=
  match o with
  | .issue t base offset notify w3 => tensorIssue s 0xC0 t base offset notify w3
  | .run _ _ => .next s

/-- MOVE (R452, R436). -/
def execMove (o : TensorOp) (s : State) : Host.Outcome State Fault Refusal :=
  match o with
  | .issue t base offset notify w3 => tensorIssue s 0xC1 t base offset notify w3
  | .run slot id => moveRun s slot.val id

/-- SP_GATHER (R293, R436). -/
def execSpGather (o : TensorOp) (s : State) : Host.Outcome State Fault Refusal :=
  match o with
  | .issue t base offset notify w3 => tensorIssue s 0xC2 t base offset notify w3
  | .run slot id => gatherRun s slot.val id

/-- SP_COMPRESS (R286, R436). -/
def execSpCompress (o : TensorOp) (s : State) : Host.Outcome State Fault Refusal :=
  match o with
  | .issue t base offset notify w3 => tensorIssue s 0xC3 t base offset notify w3
  | .run slot id => compressRun s slot.val id

/-- RULE_GATHER (R307, R436). -/
def execRuleGather (o : TensorOp) (s : State) : Host.Outcome State Fault Refusal :=
  match o with
  | .issue t base offset notify w3 => tensorIssue s 0xC4 t base offset notify w3
  | .run slot id => ruleGatherRun s slot.val id

/-- RULE_SCATTER (R314, R436). -/
def execRuleScatter (o : TensorOp) (s : State) : Host.Outcome State Fault Refusal :=
  match o with
  | .issue t base offset notify w3 => tensorIssue s 0xC5 t base offset notify w3
  | .run slot id => ruleScatterRun s slot.val id

/-- CELL_FINISH (R323, R436). -/
def execCellFinish (o : TensorOp) (s : State) : Host.Outcome State Fault Refusal :=
  match o with
  | .issue t base offset notify w3 => tensorIssue s 0xC6 t base offset notify w3
  | .run slot id => cellFinishRun s slot.val id

/-- MAP_SCATTER (R333, R436). -/
def execMapScatter (o : TensorOp) (s : State) : Host.Outcome State Fault Refusal :=
  match o with
  | .issue t base offset notify w3 => tensorIssue s 0xC7 t base offset notify w3
  | .run slot id => mapScatterRun s slot.val id

/-- RB_BUILD (R181, R436). -/
def execRbBuild (o : TensorOp) (s : State) : Host.Outcome State Fault Refusal :=
  match o with
  | .issue t base offset notify w3 => tensorIssue s 0xC8 t base offset notify w3
  | .run slot id => rbBuildRun s slot.val id

/-- NBR_QUERY (R201, R436). -/
def execNbrQuery (o : TensorOp) (s : State) : Host.Outcome State Fault Refusal :=
  match o with
  | .issue t base offset notify w3 => tensorIssue s 0xC9 t base offset notify w3
  | .run slot id => nbrQueryRun s slot.val id

/-- HALL_QUERY (R437, R436). -/
def execHallQuery (o : TensorOp) (s : State) : Host.Outcome State Fault Refusal :=
  match o with
  | .issue t base offset notify w3 => tensorIssue s 0xCA t base offset notify w3
  | .run slot id => hallQueryRun s slot.val id

/-- EMB_GATHER (R342, R436). -/
def execEmbGather (o : TensorOp) (s : State) : Host.Outcome State Fault Refusal :=
  match o with
  | .issue t base offset notify w3 => tensorIssue s 0xCB t base offset notify w3
  | .run slot id => embGatherRun s slot.val id

/-- EMB_UPDATE (R354, R436). -/
def execEmbUpdate (o : TensorOp) (s : State) : Host.Outcome State Fault Refusal :=
  match o with
  | .issue t base offset notify w3 => tensorIssue s 0xCC t base offset notify w3
  | .run slot id => embUpdateRun s slot.val id

/-- EMB_FLUSH (R357, R441). -/
def execEmbFlush (o : TensorOp) (s : State) : Host.Outcome State Fault Refusal :=
  match o with
  | .issue t base offset notify w3 => tensorIssue s 0xCD t base offset notify w3
  | .run slot id => embFlushRun s slot.val id

/-- EMB_APPLY (R359, R441). -/
def execEmbApply (o : TensorOp) (s : State) : Host.Outcome State Fault Refusal :=
  match o with
  | .issue t base offset notify w3 => tensorIssue s 0xCE t base offset notify w3
  | .run slot id => embApplyRun s slot.val id

end Sys2Proof.Machine
end

