-- ==== Sys2Proof/Machine/Tread.lean ====
section
/-!
DEFINITION. The stair schedule's events (R73 to R79, R140, R151 to R163): frames open, treads are cut, merged and closed, and
land; the Point Front's reads of the ego-motion and replay rings (R133, R134, R167 to R169).
-/

namespace Sys2Proof.Machine

/-! ### Opening a frame (R140, R153, R160) -/

/-- A pinned job of frame `g` (R153): a rulebook build on grid 0, or a distance-engine request with GRID 0. -/
def pinnedJob (s : State) (g : Nat) : Bool :=
  s.bld.rbs.any (fun r => r.frame = g && r.inGrid = 0 && (!(unbuiltOn r 0).isEmpty || !(unbuiltOn r 1).isEmpty)) ||
    s.nbr.any (fun q => match tiAt s q.slot q.id with
      | some t => t.d 4 4 = g && t.d 8 1 = 0
      | none => false)

/-- R153: the index entries of frame `g` on a die are emptied, or wait for its pinned jobs. -/
def retireIndex (s : State) (d g : Nat) : State :=
  match slotFor s d g with
  | none => s
  | some x =>
    if !x.live then s
    else if pinnedJob s g then setHall s d { hallAt s d with emptying := some g }
    else emptyIndex s d g

/-- The frames whose slot a frame of number `f` claims (R160, R200, R209). -/
def claimedFrom (s : State) (f : Nat) : List Nat :=
  ((s.bld.rbs.map Rb.frame).filter (fun g => g % 4 = f % 4) ++
    [0, 1].filterMap (fun d => (SMap.find (hallAt s d).slots (f % 4)).map Slot.frame)).eraseDups

/-- A frame opens on one die: a captured B2 set governs it (R165), its slot is claimed, its index parity is freed, and its
Point Front counts it with the quotas of now (R144). A header carries HALL_DOWN while the other die is out (R552). -/
def openOn (g : StairFrame) (s : State) (d : Nat) : State :=
  if outOfService s (.point d) then s
  else
    let s := match capturedOf s (.die d 2) with | some c => takeCaptured s (.die d 2) c | none => s
    let s := retireIndex s d ((g.no + 2 ^ 32 - 2) % 2 ^ 32)
    let s := openSlot s d g
    let fr := frontAt s d
    let s := setFront s d { fr with frames := fr.frames.filter (fun e => e.1 ≠ g.no) ++ [(g.no, ⟨quotaLimits s d, [], []⟩)] }
    let s := (List.range 16).foldl (fun s m => fset s (.die d 1) (DB1.SENS_ADMITTED m) 0) s
    if outOfService s (.point (1 - d)) then flagSlot s d g.no 7 else s

/-- R140, R160: frame `g`, the newest of the schedule, opens on both dies; the frame that held its slot is reclaimed, and the
points held for the new one are admitted (R76). -/
def openFrame (s : State) (g : StairFrame) : State :=
  let s := (claimedFrom s g.no).foldl (fun s f => reclaimNbr (reclaimBooks s f) f) s
  let s := [0, 1].foldl (openOn g) s
  [0, 1].foldl (fun s d => releaseHeld s d g) s

/-- Frames of an earlier numbering are gone when numbering begins again at 0 (R79): their index entries, deferred points,
carries and jobs end, and their slots are EMPTY. The records that they left stand until their slot is claimed. -/
def endNumbering (s : State) : State :=
  let olds := ((s.bld.rbs.map Rb.frame) ++ s.nbr.filterMap (fun q => (tiAt s q.slot q.id).map (fun t => t.d 4 4)) ++
    [0, 1].flatMap (fun d => (hallAt s d).slots.map (fun e => e.2.frame))).eraseDups
  let s := olds.foldl (fun s f => reclaimNbr (reclaimBooks s f) f) s
  let s := [0, 1].foldl (fun s d =>
    let s := setHall s d ⟨[], [], [], [], [], none, []⟩
    let s := setFront s d { frontAt s d with frames := [], held := [] }
    fset s (.die d 2) DB2.SLOT_STATE 0) s
  { s with stair.prevClose := [] }

/-- FRAME0_OPEN (R140): the first crossing of TREAD0_ANGLE after EN was set. -/
def execFrame0Open (s : State) : Host.Outcome State Fault Refusal :=
  let p := Page.pkg 3
  match s.stair.first with
  | none => .next s
  | some a =>
    if ebit s p PB3.STAIR_CTRL_EN && decide (a ≤ s.stair.angle) then
      let g : StairFrame := ⟨0, a, eget s p PB3.TREAD0_ANGLE, eget s p PB3.STAIR_CTRL_TREADS, closeLag (eget s p),
        devNsCount s, [], false⟩
      let s := endNumbering s
      let s := { s with stair.first := none, stair.frame := some g, stair.ahead := none, stair.nextCut := 0,
                        stair.cutAhead := false, stair.closing := [] }
      done (openFrame (fsetb s p PB3.STAIR_STATUS_RUNNING true) g)
    else .next s

/-! ### Cuts, barriers and merges (R73, R151, R152) -/

/-- The frame whose tread is cut next: after the last cut of a frame, the frame open after it, unless that runs under
another tread layout, whose treads wait for the landing (R78). -/
def cutFrame (s : State) : Option StairFrame :=
  match s.stair.frame with
  | none => none
  | some f =>
    if !s.stair.cutAhead then some f
    else match s.stair.ahead with
      | some g => if g.code = f.code ∧ g.b = f.b ∧ s.stair.nextCut < treadsOf g.code then some g else none
      | none => none

/-- The unwrapped angle at which tread `k` of a frame is cut (R72, R73). -/
def cutAngle (g : StairFrame) (k : Nat) : Nat := g.start + ((k + 1) * widthOf g.code + g.lag) * 65536

/-- TREAD_CUT (R73, R11): the angle condition of the next tread holds; the cut is a safe point of the captured sets. -/
def execTreadCut (s : State) : Host.Outcome State Fault Refusal :=
  match cutFrame s with
  | none => .next s
  | some g =>
    let k := s.stair.nextCut
    if ebit s (.pkg 3) PB3.STAIR_CTRL_EN && decide (cutAngle g k ≤ s.stair.angle) then
      let c : Closing := ⟨g.no, k, homeDie g.code k, false, none⟩
      let s := noteCut { s with stair.closing := s.stair.closing ++ [c] }
      let last := decide (k + 1 = treadsOf g.code) && !s.stair.cutAhead
      done (if last then { s with stair.cutAhead := true, stair.nextCut := 0 } else { s with stair.nextCut := k + 1 })
    else .next s

/-- Replace the first tread being closed that a test picks. -/
def mapFirst (p : Closing → Bool) (f : Closing → Closing) : List Closing → List Closing
  | [] => []
  | c :: cs => if p c then f c :: cs else c :: mapFirst p f cs

/-- Every point of a tread that came before its cut is placed or deferred. -/
def barrierClear (s : State) (c : Closing) : Bool :=
  [0, 1].all (fun d => (hallAt s d).queue.all (fun e => !(e.1 = c.frame && e.2.tread = c.tread)))

/-- POINT_FRONT_BARRIER_DONE (R73): the barrier of the oldest tread that waits for it. -/
def execPointFrontBarrierDone (s : State) : Host.Outcome State Fault Refusal :=
  match s.stair.closing.find? (fun c => !c.barrier) with
  | none => .next s
  | some c =>
    if barrierClear s c then
      done { s with stair.closing := mapFirst (fun c => !c.barrier) (fun c => { c with barrier := true }) s.stair.closing }
    else .next s

/-- What the merge of a tread waits for beside its barrier (R153, R159): the emptying of an older frame of its parity, and
every carry from the frame before. -/
def mergeMay (s : State) (c : Closing) : Bool :=
  (hallAt s c.home).emptying.map (· % 2) ≠ some (c.frame % 2) &&
    [0, 1].all (fun d => (hallAt s d).carries.all (fun e => (e.1 + 1) % 2 ^ 32 ≠ c.frame))

/-- The bound of a merge in nanoseconds (R152); 0 with nothing deferred and no unindexed list. -/
def mergeBound (s : State) (c : Closing) : Nat :=
  let h := hallAt s c.home
  let mine := fun (e : Nat × Cell) => e.1 = c.frame && e.2.tread = c.tread
  let a := (h.alcove.filter mine).length
  let dd := (h.ovf.filter mine).length
  let l := ((slotFor s c.home c.frame).map Slot.unindexed).getD 0
  if a = 0 ∧ dd = 0 ∧ l = 0 then 0 else 1000 + 4 * a + 12 * dd + l

/-- The next tread whose merge runs on a die. -/
def mergesOn (d : Nat) (c : Closing) : Bool := c.barrier && c.home = d && c.merged.isNone

/-- ALCOVE_MERGE_DONE (R151, R152): the merge of the oldest tread with its barrier complete whose home is the die. How long it
took is open below its bound. -/
def execAlcoveMergeDone (d : Fin 2) (s : State) : Host.Outcome State Fault Refusal :=
  match s.stair.closing.find? (mergesOn d.val) with
  | none => .next s
  | some c =>
    if outOfService s (.point d.val) || !mergeMay s c then .next s
    else
      let ns := (Config.freeWord s.free).toNat % (mergeBound s c + 1)
      let r := mergeTread (tickFree s) d.val c.frame c.tread
      let p := Page.die d.val 2
      let s := fset r.2 p DB2.MERGE_MAX_NS (max (fget r.2 p DB2.MERGE_MAX_NS) ns)
      done { s with stair.closing := mapFirst (mergesOn d.val) (fun c => { c with merged := some r.1 }) s.stair.closing }

/-- INDEX_EMPTY (R153): the last pinned job of an older frame has ended. -/
def execIndexEmpty (d : Fin 2) (s : State) : Host.Outcome State Fault Refusal :=
  match (hallAt s d.val).emptying with
  | some g => if pinnedJob s g then .next s else done (emptyIndex s d.val g)
  | none => .next s

/-! ### Events and landings -/

/-- The head of the treads being closed may raise its event: its barrier and its merge are complete, and no older frame's
entries are pinned (R73, R153). A home die out of service merges nothing. -/
def eventMay (s : State) (c : Closing) : Bool :=
  ebit s (.pkg 3) PB3.STAIR_CTRL_EN && c.barrier && (c.merged.isSome || outOfService s (.point c.home)) &&
    [0, 1].all (fun d => outOfService s (.point d) || (hallAt s d).emptying.map (· % 2) ≠ some (c.frame % 2))

/-- R78: a captured set that changes TREADS or TREAD0_ANGLE takes effect at the event of a tread 0 after its safe point; the
frame now closing keeps its own. -/
def reshapeStair (s : State) : State :=
  match capturedOf s (.pkg 3) with
  | some c =>
    if c.cutSeen && stairReshapes s c.words then
      { takeCaptured s (.pkg 3) c with stair.frame := s.stair.frame }
    else s
  | none => s

/-- The frame that opens at the event of tread 0 of `f` (R78, R140). -/
def frameAfter (s : State) (f : StairFrame) : StairFrame :=
  let p := Page.pkg 3
  let b := eget s p PB3.TREAD0_ANGLE
  ⟨(f.no + 1) % 2 ^ 32, f.start + 2 ^ 32 + b * 65536 - f.b * 65536, b, eget s p PB3.STAIR_CTRL_TREADS,
    closeLag (eget s p), devNsCount s, [], false⟩

/-- R690: at a landing, a captured set that changes NEWEL_SRC and not the tread layout takes effect. -/
def resourceStair (s : State) : State :=
  match capturedOf s (.pkg 3) with
  | some c => if stairResources s c.words && !stairReshapes s c.words then takeCaptured s (.pkg 3) c else s
  | none => s

/-- The landing of frame `f` (R74, R162, R518): headers are completed, LANDING_OUT pulses, and the next frame's treads are
now those that close. -/
def landFrame (s : State) (f : StairFrame) : State :=
  let s := landSlot (landSlot s 0 f.no) 1 f.no
  let s := [0, 1].foldl (fun s d =>
    let fr := frontAt s d
    setFront s d { fr with frames := fr.frames.filter (fun e => e.1 ≠ f.no) }) s
  let excess : Bool := match s.stair.ahead with
    | some g => s.stair.cutAhead && decide (treadsOf g.code ≤ s.stair.nextCut)
    | none => false
  let s := { s with stair.frame := s.stair.ahead, stair.ahead := none, stair.cutAhead := excess,
                    stair.nextCut := if excess then 0 else s.stair.nextCut }
  let w := fget s (.pkg 3) PB3.LANDING_OUT_CTRL
  let s := if w = 0 then s else { s with stair.landUntil := s.now + w }
  let s := resourceStair (raiseInt s (.pkg 3) 1)
  if periodByLanding s then endPeriod s else s

/-- What the event of tread `k` of frame `f` does before anything opens or lands: its close time, the table and the tread
list on its home die, the flags of the headers, the energy of the tread, and the mailbox's trigger (R76, R92, R162, R163,
R517, R670). -/
def closeTread (s : State) (f : StairFrame) (c : Closing) : State :=
  let p := Page.pkg 3
  let hold := holdover s
  let ns := devNsCount s % 1000000000
  let s := { s with stair.closing := s.stair.closing.drop 1,
                    stair.prevClose := SMap.put s.stair.prevClose (f.no % 4 * 256 + c.tread) s.tb.dev,
                    stair.frame := some { f with holdover := f.holdover || hold } }
  let s := fset (fsetb (fset s p PB3.STAIR_STATUS_LAST_CLOSED c.tread) p PB3.STAIR_STATUS_CLOSED_ANY true) p PB3.CLOSE_NS ns
  let s := if hold then flagSlot (flagSlot s 0 f.no 4) 1 f.no 4 else s
  let s := writeTread s c.home f.no c.tread ns hold (f.late.contains c.tread) (c.merged.getD false)
  mbxTrigger (ledgerTread (raiseInt (supplyStep2 s) p 0) c.tread)

/-- The event of the oldest tread being closed. -/
def raiseTread (s : State) (f : StairFrame) (c : Closing) : State :=
  let s := closeTread s f c
  let s :=
    if c.tread = 0 then
      let s := reshapeStair s
      let g := frameAfter s f
      openFrame { s with stair.ahead := some g } g
    else s
  let s := match s.stair.ahead with
    | some g => if outOfService s (.point c.home) then s else carryTread s c.home f.no c.tread g
    | none => s
  let s := readySweep s
  if c.tread + 1 = treadsOf f.code then landFrame s f else s

/-- TREAD_EVENT (R73, R74): treads close strictly in order. -/
def execTreadEvent (s : State) : Host.Outcome State Fault Refusal :=
  match s.stair.frame, s.stair.closing with
  | some f, c :: _ => if eventMay s c then done (raiseTread s f c) else .next s
  | _, _ => .next s

/-! ### The ego-motion ring (R133, R134) -/

/-- The Point Front as a master (R620). -/
def rqFront : Requester := ⟨midPF, false, none⟩

/-- Read bytes for a Point Front; none where the access fails. Another node has no master kind for a Point Front (R492), so
that such an address is not served. -/
def frontRead (s : State) (g len : Nat) : Option (List Nat) × State :=
  match busRead s rqFront none g len with
  | (.ok, bs, s) => (some bs, s)
  | (_, _, s) => (none, s)

/-- An ego-motion sample from its bytes, with VALID. -/
def egoSample (b : List Nat) : Bool × EgoSample :=
  let f := fun i n => leNat ((b.drop i).take n)
  let fl := f 0xA 2
  (bit fl 0, ⟨(f 4 4 + f 8 2 * 2 ^ 32) * 1000000000 + f 0 4, bit fl 1, (List.range 6).map (fun i => f (0x10 + 4 * i) 4)⟩)

/-- R134: a sample later than the one before it is accepted; the newest 64 are held. -/
def takeEgo (s : State) (d : Nat) (r : Option (List Nat)) : State :=
  let fr := frontAt s d
  let bad := frontCount s d DB1.EGO_BAD 2
  match r with
  | none => bad
  | some b =>
    let (valid, e) := egoSample b
    let later : Bool := match fr.ego with | x :: _ => decide (x.t < e.t) | [] => true
    if valid && later then setFront s d { fr with ego := (e :: fr.ego).take 64 } else bad

/-- EGO_SAMPLE_READ (R134): the next sample that EGO_WR has passed. -/
def execEgoSampleRead (d : Fin 2) (s : State) : Host.Outcome State Fault Refusal :=
  let p := Page.die d.val 1
  let n := eget s p DB1.EGO_SIZE
  let i := (frontAt s d.val).egoRd % n
  if outOfService s (.point d.val) ∨ n = 0 ∨ i = fget s p DB1.EGO_WR % n then .next s
  else
    let base := eget s p DB1.EGO_BASE_LO + eget s p DB1.EGO_BASE_HI * 2 ^ 32
    let r := frontRead s (base + 48 * i) 48
    let fr := frontAt r.2 d.val
    done (takeEgo (setFront r.2 d.val { fr with egoRd := (i + 1) % n }) d.val r.1)

/-! ### The replay ring (R167 to R169) -/

/-- Read 64-byte blocks for a Point Front. -/
def frontBlocks (s : State) (g : Nat) : Nat → Option (List Nat) × State
  | 0 => (some [], s)
  | n + 1 =>
    match frontRead s g 64 with
    | (none, s) => (none, s)
    | (some b, s) =>
      match frontBlocks s (g + 64) n with
      | (some bs, s) => (some (b ++ bs), s)
      | (none, s) => (none, s)

/-- An entry that the Point Front does not use. -/
def dropReplay (s : State) (d : Nat) : State := frontCount s d DB1.REPLAY_DROP 5

/-- Move REPLAY_RD. -/
def setReplayRd (s : State) (d v : Nat) : State := fset s (.die d 1) DB1.REPLAY_RD v

/-- R100, R109, R169: a released frame, classified as a consumed frame of its port with a good FCS. -/
def replayFrame (s : State) (d n ingress : Nat) (shift : Int) (bs : List Nat) : State :=
  if n ≥ 4 ∨ (if n ≤ 1 then 0 else 1) ≠ d ∨ (ptpOffset bs).isSome then dropReplay s d
  else if bs.length + 4 > pget s n (PB4.PORT_CTRL_MAX_FRAME n) then portViolation s n (PB4.RX_OVERSIZE n)
  else if isLinkLocal bs then portViolation s n (PB4.RX_LINKLOCAL n)
  else if !isIpUdp bs then portViolation s n (PB4.RX_FILTER_MISS n)
  else match checkIpUdp bs with
    | .malformed => portViolation s n (PB4.RX_MALFORMED n)
    | .frag => portViolation s n (PB4.RX_FRAG n)
    | .good => match filterMatch s n bs with
      | some m => deliverPoints s d n m ingress shift (udpPayload bs)
      | none => portViolation s n (PB4.RX_FILTER_MISS n)

/-- REPLAY_RELEASE (R168): the entry at REPLAY_RD. One whose descriptor cannot be read counts in REPLAY_DROP, and REPLAY_RD
becomes 0, since its extent cannot be known. -/
def execReplayRelease (d : Fin 2) (s : State) : Host.Outcome State Fault Refusal :=
  let p := Page.die d.val 1
  let rd := fget s p DB1.REPLAY_RD
  let size := eget s p DB1.REPLAY_SIZE
  let base := eget s p DB1.REPLAY_BASE_LO + eget s p DB1.REPLAY_BASE_HI * 2 ^ 32
  let shift := sext 64 (eget s p DB1.REPLAY_SHIFT_LO + eget s p DB1.REPLAY_SHIFT_HI * 2 ^ 32)
  if outOfService s (.point d.val) ∨ quiescing s p ∨ !ebit s p DB1.PF_CTRL_REPLAY_EN ∨ rd = fget s p DB1.REPLAY_WR then .next s
  else
    match frontRead s (base + rd) 16 with
    | (none, s) => done (setReplayRd (dropReplay s d.val) d.val 0)
    | (some h, s1) =>
      let f := fun i n => leNat ((h.drop i).take n)
      let len := f 0xA 2
      let ext := (16 + len + 63) / 64 * 64
      if !bit (f 0xD 1) 0 then done (setReplayRd s1 d.val 0)
      else if len < 60 ∨ 9212 < len ∨ rd + ext > size then done (setReplayRd (dropReplay s1 d.val) d.val 0)
      else
        let at_ : Int := ((f 4 4 + f 8 2 * 2 ^ 32) * 1000000000 + f 0 4 : Nat) + shift
        if at_ > (devNsCount s : Int) then .next s
        else
          let nx := if rd + ext = size then 0 else rd + ext
          match frontBlocks s1 (base + rd) (ext / 64) with
          | (none, s) => done (setReplayRd (dropReplay s d.val) d.val nx)
          | (some bs, s) =>
            done (setReplayRd (replayFrame s d.val (f 0xC 1) (at_.toNat * 65536) shift ((bs.drop 16).take len)) d.val nx)

end Sys2Proof.Machine
end

