-- ==== Sys2Proof/Machine/Upkeep.lean ====
section
/-!
DEFINITION. Upkeep of scratchpads, DRAM and hops: write-backs and scrubs (R447 to R450), the patrol (R464), parity replay
(R468, R469), sparing and failed channels (R470 to R472), corridor lanes (R16), the DRAM's temperature and training, and
outbound completion timeouts (R504).
-/

namespace Sys2Proof.Machine

/-! ### Scratchpads -/

/-- ACLK cycles of the slot's die in `ns`. -/
def aclkCycles (s : State) (slot ns : Nat) : Nat :=
  let p := Page.die (slotDie slot) 10
  ns * fget s p (DB10.VF_POINT_MHZ (clkPoint s (slotDie slot))) / 1000

/-- A bank's scrub: rows read so far, 3,072 to a pass, and when it was last granted a rank-4 cycle. -/
def scrubAt (s : State) (slot bank : Nat) : Nat × Nat := SMap.getD s.scrub (slot * 16 + bank) (0, 0)

/-- Full passes that every bank of a slot has completed. -/
def scrubPasses (s : State) (slot : Nat) : Nat :=
  (List.range 16).foldl (fun m b => min m ((scrubAt s slot b).1 / 3072)) ((scrubAt s slot 0).1 / 3072)

/-- CORRECTED_WRITEBACK (R450): the word stands corrected, unless its line has been written since. -/
def execCorrectedWriteback (slot : Fin 40) (off : BitVec 23) (s : State) : Host.Outcome State Fault Refusal :=
  let a := spmBase slot.val + off.toNat / 8 * 8
  let m := SMap.getD s.ecc a 0
  if bit m 3 then
    let k := slot.val * 16 + off.toNat / 128 % 16
    done { eccMark s a 0 with scrub := SMap.put s.scrub k ((scrubAt s slot.val (off.toNat / 128 % 16)).1, s.now) }
  else .next s

/-- What a scrub read does with one marked word (R449). -/
def scrubWord (slot : Nat) (s : State) (e : Nat × Nat) : State :=
  let p := Page.core slot 8
  let off := e.1 - spmBase slot
  if e.2 % 4 = 2 then
    let s := raiseInt (finc s p KB8.SCRUB_UNCORR) p 2
    badLine (reportErr s p 0x03 (off / 128) (spmGlobal s slot off) (bit e.2 2)) slot (off / 128) (bit e.2 2)
  else eccMark (finc s p KB8.SCRUB_CORR) e.1 (setBits e.2 3 1 1)

/-- A bank reads its next row (R449). -/
def scrubRow (s : State) (slot bank : Nat) : State :=
  let (n, _) := scrubAt s slot bank
  let line := n % 3072 * 16 + bank
  let lo := spmBase slot + line * 128
  let (c, s) := takeCorrupt s (.core slot 8) 0x03
  let s := if c then eccMark s lo 6 else s
  let s := (eccIn s lo (lo + 128)).foldl (scrubWord slot) s
  let was := scrubPasses s slot
  let s := { s with scrub := SMap.put s.scrub (slot * 16 + bank) (n + 1, s.now) }
  if was < scrubPasses s slot then finc s (.core slot 8) KB8.SCRUB_PASSES else s

/-- The scrub of a slot runs. -/
def scrubs (s : State) (slot : Nat) : Bool :=
  fbit s (.core slot 8) KB8.SPM_CTRL && !inReset s (.core slot) && !fbit s (.core slot 8) KB8.SPM_STATUS_CLEARING

/-- SCRUB_READ (R449): a read at rank 4. -/
def execScrubRead (slot : Fin 40) (bank : Fin 16) (s : State) : Host.Outcome State Fault Refusal :=
  if scrubs s slot.val then done (scrubRow s slot.val bank.val) else .next s

/-- SCRUB_FORCE (R449): a bank that granted no rank-4 cycle for 2,048 ACLK cycles reads at rank 3. -/
def execScrubForce (slot : Fin 40) (bank : Fin 16) (s : State) : Host.Outcome State Fault Refusal :=
  if scrubs s slot.val && decide (2048 ≤ aclkCycles s slot.val (s.now - (scrubAt s slot.val bank.val).2)) then
    done (finc (scrubRow s slot.val bank.val) (.core slot.val 8) KB8.SCRUB_FORCED)
  else .next s

/-- SCRATCHPAD_CLEAR_DONE (R447). -/
def execScratchpadClearDone (slot : Fin 40) (s : State) : Host.Outcome State Fault Refusal :=
  let p := Page.core slot.val 8
  if fbit s p KB8.SPM_STATUS_CLEARING && !inReset s (.core slot.val) then done (fsetb s p KB8.SPM_STATUS_CLEARING false)
  else .next s

/-! ### DRAM -/

/-- The die-local address of burst `j` of logical channel `c` (R461). -/
def patrolAddr (c j : Nat) : Nat :=
  let g := j / 8
  g * 4096 + Nat.xor c (bits g 4 4) * 256 + j % 8 * 32

/-- Bursts patrolled so far on a logical channel, 2^25 to a pass. -/
def patrolAt (s : State) (d c : Nat) : Nat := SMap.getD s.patrol (d * 16 + c) 0

/-- Full patrols of a die's stack; a failed channel is not patrolled. -/
def patrolPasses (s : State) (d : Nat) : Nat :=
  let live := (List.range 16).filter (fun c => !bit (fget s (.die d 5) DB5.DRAM_STATUS_FAILED) (dramPhysical s d c))
  match live with
  | [] => 0
  | c :: cs => cs.foldl (fun m c => min m (patrolAt s d c / 2 ^ 25)) (patrolAt s d c / 2 ^ 25)

/-- The patrol reads the next burst of a channel (R464): a correctable one is written back, an uncorrectable one is a deferred
error. -/
def patrolBurst (s : State) (d c : Nat) : State :=
  let p := Page.die d 5
  let n := patrolAt s d c
  let a := dramBase d + patrolAddr c (n % 2 ^ 25)
  let g := ownNode s * 2 ^ 48 + a
  let phys := dramPhysical s d c
  let (x, s) := takeCorrupt s p 0x22
  let s := if x then eccMark s a 6 else s
  let m := SMap.getD s.ecc a 0
  let s :=
    if m % 4 = 2 then reportErr s p 0x22 phys g (bit m 2)
    else if m % 4 = 1 then reportErr (finc (eccMark s a 0) p (DB5.CH_CORR phys)) p 0x20 phys g (bit m 2)
    else s
  let was := patrolPasses s d
  let s := { s with patrol := SMap.put s.patrol (d * 16 + c) (n + 1) }
  if was < patrolPasses s d then finc s p DB5.PATROL_PASSES else s

/-- PATROL_READ (R464). -/
def execPatrolRead (d : Fin 2) (ch : Fin 16) (s : State) : Host.Outcome State Fault Refusal :=
  let p := Page.die d.val 5
  if fbit s p DB5.DRAM_CTRL && !inReset s (.die d.val) && !fbit s p DB5.DRAM_STATUS_SELF_REFRESH &&
      !bit (fget s p DB5.DRAM_STATUS_FAILED) (dramPhysical s d.val ch.val) then
    done (patrolBurst s d.val ch.val)
  else .next s

/-- The copy to the spare reads through the ECC (R471): a correctable burst of the channel is good there. -/
def copiedMark (d c : Nat) (e : Nat × Nat) : Bool :=
  decide (dramBase d ≤ e.1) && decide (e.1 < dramBase d + 2 ^ 34) && dramChannel (e.1 - dramBase d) = c && e.2 % 4 = 1

/-- SPARING_DONE (R471): the copy has ended; uncorrectable bursts stay so on the spare. -/
def execSparingDone (d : Fin 2) (s : State) : Host.Outcome State Fault Refusal :=
  let p := Page.die d.val 5
  if fbit s p DB5.DRAM_STATUS_SPARING && !inReset s (.die d.val) then
    let s := { s with ecc := s.ecc.filter (fun e => !copiedMark d.val (fget s p DB5.SPARE_CMD_CH) e) }
    let s := fsetb (fset s p DB5.DRAM_STATUS_SPARED_CH (fget s p DB5.SPARE_CMD_CH)) p DB5.DRAM_STATUS_SPARING false
    done (raiseInt (fset s p DB5.SPARE_CMD_CH 0) p 2)
  else .next s

/-- CHANNEL_FAIL (R472): firmware marks physical channel `ch` failed: on the spare already, or with the spare taken, it has
reached 3 persistent-parity errors. -/
def execChannelFail (d : Fin 2) (ch : Fin 17) (s : State) : Host.Outcome State Fault Refusal :=
  let p := Page.die d.val 5
  let sp := fget s p DB5.DRAM_STATUS_SPARED_CH
  let failed := fget s p DB5.DRAM_STATUS_FAILED
  if (ccRunning s 0 || ccRunning s 1) && decide (sp ≠ 0x1F) && decide (sp ≠ ch.val) && !bit failed ch.val &&
      decide (3 ≤ fget s p (DB5.CH_PERSIST ch.val)) then
    let s := raiseInt (fset s p DB5.DRAM_STATUS_FAILED (setBits failed ch.val 1 1)) p 3
    done (latchFault (reportErr s p 0x25 ch.val 0 false) 3)
  else .next s

/-- DRAM_TEMP_SAMPLE (R462, R477, R529): the hottest layer of a die. -/
def execDramTempSample (d : Fin 2) (t : BitVec 8) (s : State) : Host.Outcome State Fault Refusal :=
  let p := Page.die d.val 5
  let s := fset s p DB5.DRAM_TEMP t.toNat
  let hot := decide (t.toInt > 85)
  let s := if hot && !fbit s p DB5.DRAM_STATUS_REFRESH_2X then raiseInt s p 4 else s
  let s := fsetb s p DB5.DRAM_STATUS_REFRESH_2X hot
  let of_ := fun i => sext 8 (fget s (.die i 5) DB5.DRAM_TEMP)
  done (noteTherm (fset s (.pkg 12) PB12.TEMP_MAX_DRAM_C (wrap 8 (max (of_ 0) (of_ 1)))))

/-- DRAM_TRAINING_DONE (R466, R573, R575): training at a start after L0 ends on both dies, or the start fails. -/
def execDramTrainingDone (ok : Bool) (s : State) : Host.Outcome State Fault Refusal :=
  if s.boot.starting && decide (bootPhase s = 3) then
    if ok then
      done (setPhase (fsetb (fsetb s (.die 0 5) DB5.TRAINING true) (.die 1 5) DB5.TRAINING true) 4)
    else done (failStart s 7)
  else .next s

/-! ### Hops (R468, R469) -/

/-- The page on which a hop reports, its detectors for a replay and for a persistent error, and INFO. -/
def hopPage : Hop → Page × Nat × Nat × Nat
  | .port k => (.core k.val 8, 0x04, 0x05, 0)
  | .fabric d c => (.cl d.val c.val 3, 0x10, 0x11, 0)
  | .channel d ch => (.die d.val 5, 0x23, 0x24, ch.val)
  | .corridor g l => (.die (if g.val < 32 then 1 else 0) 6, 0x27, 0x28, g.val * 64 + l.val)

/-- Count a replay of a hop. -/
def hopReplay (s : State) : Hop → State
  | .port k => finc s (.core k.val 8) KB8.INBOUND_REPLAY
  | .fabric d c => finc s (.cl d.val c.val 3) CB3.FABRIC_REPLAY
  | .channel d ch => finc s (.die d.val 5) (DB5.CH_REPLAY ch.val)
  | .corridor g _ => finc s (.die (if g.val < 32 then 1 else 0) 6) DB6.CORR_REPLAY

/-- The key of a corridor lane. -/
def laneKey (g l : Nat) : Nat := g * 64 + l

/-- Count a persistent-parity error of a hop; an injected one counts neither in CHp_PERSIST nor against a lane, and fences
nothing (R470, R601, R611). -/
def hopPersist (s : State) (h : Hop) (inj : Bool) : State :=
  match h with
  | .port k =>
    let s := raiseInt (finc s (.core k.val 8) KB8.INBOUND_PERSIST) (.core k.val 8) 3
    if inj then s else askFence s k.val
  | .fabric d c => raiseInt (finc s (.cl d.val c.val 3) CB3.FABRIC_PERSIST) (.cl d.val c.val 3) 0
  | .channel d ch =>
    let p := Page.die d.val 5
    let s := if inj then s else fset s p (DB5.CH_PERSIST ch.val) (min 255 (fget s p (DB5.CH_PERSIST ch.val) + 1))
    raiseInt s p 1
  | .corridor g l =>
    let p := Page.die (if g.val < 32 then 1 else 0) 6
    let k := laneKey g.val l.val
    let s := if inj then s else { s with err.laneFails := SMap.put s.err.laneFails k (SMap.getD s.err.laneFails k 0 + 1) }
    raiseInt (finc s p DB6.CORR_PERSIST) p 0

/-- The transfer is abandoned: its thread or its unit receives FAULT_PARITY_PERSIST (R456, R469). -/
def hopVictim (s : State) : HopVictim → State
  | .other => s
  | .unit slot id => tiFault s slot.val id fParity
  | .thread t =>
    let x := cref s t
    match x.loads with
    | l :: rest =>
      faultCtx (setRef s t { x with loads := rest }) t.slot.val t.ctx.val fParity l.pc l.pc
    | [] => faultHere s t.slot.val t.ctx.val fParity

/-- HOP_PARITY_REPLAY (R468, R469, R610): a transfer fails its parity check on `fails` of its sends, the original one first.
Armed CORRUPT injection adds its own failures. -/
def execHopParityReplay (h : Hop) (fails : Fin 5) (v : HopVictim) (s : State) : Host.Outcome State Fault Refusal :=
  let (p, rep, per, info) := hopPage h
  if pageStubbed s p then .next s
  else
    let (ip, s) := takeCorrupt s p per
    let (ir, s) := takeCorrupt s p rep
    let n := if ip then 4 else if ir then max 1 fails.val else fails.val
    let inj := ip || ir
    let s := (List.range (min 3 n)).foldl (fun s _ => reportErr (hopReplay s h) p rep info 0 inj) s
    if n < 4 then done s else done (hopVictim (reportErr (hopPersist s h inj) p per info 0 inj) v)

/-- CORRIDOR_LANE_SPARE (R16): firmware switches in the spare of a group one of whose lanes has failed three times. -/
def execCorridorLaneSpare (group : Fin 64) (s : State) : Host.Outcome State Fault Refusal :=
  let g := group.val
  let f : Fld := if g < 32 then DB6.CORR_SPARED_LO else DB6.CORR_SPARED_HI
  let bad := s.err.laneFails.any (fun e => decide (e.1 / 64 = g) && decide (3 ≤ e.2))
  if (ccRunning s 0 || ccRunning s 1) && bad && !bit (fget s (.die 0 6) f) (g % 32) then
    done ([0, 1].foldl (fun s d =>
      raiseInt (fset s (.die d 6) f (setBits (fget s (.die d 6) f) (g % 32) 1 1)) (.die d 6) 1) s)
  else .next s

/-! ### Outbound reads (R504, R664) -/

/-- A global address lies in a host window of this package. -/
def isHostWindow (s : State) (g : Nat) : Bool :=
  match locate s g 1 with | .host _ _ => true | _ => false

/-- OUTBOUND_COMPLETION_TIMEOUT (R504): the reader receives TARGET_RESET. -/
def execOutboundCompletionTimeout (o : Outbound) (s : State) : Host.Outcome State Fault Refusal :=
  let p := Page.pkg 7
  match o with
  | .load t i =>
    match (cref s t).loads[i]? with
    | some l =>
      if l.tag.isNone && l.value.isNone && isHostWindow s l.addr then
        done (loadFault (raiseInt (finc s p PB7.OUT_TIMEOUT) p 1) t.slot.val t.ctx.val i fTargetReset l)
      else .next s
    | none => .next s
  | .node =>
    match s.gal.local_.find? (fun k => k.opc = 0x01 && isHostWindow s (ownNode s * 2 ^ 48 + k.addr)) with
    | some k => done (answerPkt (raiseInt (finc s p PB7.OUT_TIMEOUT) p 1) k 1 none)
    | none => .next s

end Sys2Proof.Machine
end

