-- ==== Sys2Proof/Machine/Dispatch.lean ====
section
/-!
DEFINITION. The meaning of every command: one arm per constructor of `Instr`, each one call of that command's meaning.
-/

namespace Sys2Proof.Machine

def exec (i : Instr) (s : State) : Host.Outcome State Fault Refusal :=
  match i with
  | .registerWrite rq addr width v => Sys2Proof.Machine.execRegisterWrite rq addr width v s
  | .rcRegisterRead rq addr width => Sys2Proof.Machine.execRcRegisterRead rq addr width s
  | .loRegisterRead rq addr width => Sys2Proof.Machine.execLoRegisterRead rq addr width s
  | .timeSecHiRead rq => Sys2Proof.Machine.execTimeSecHiRead rq s
  | .capHeadHiRead rq n => Sys2Proof.Machine.execCapHeadHiRead rq n s
  | .histSelWrite rq v => Sys2Proof.Machine.execHistSelWrite rq v s
  | .pageCommit rq p v => Sys2Proof.Machine.execPageCommit rq p v s
  | .commitTakeEffect p => Sys2Proof.Machine.execCommitTakeEffect p s
  | .portSetTakeEffect n => Sys2Proof.Machine.execPortSetTakeEffect n s
  | .set rq => Sys2Proof.Machine.execSet rq s
  | .armPps rq => Sys2Proof.Machine.execArmPps rq s
  | .sync port m ing eg => Sys2Proof.Machine.execSync port m ing eg s
  | .followUp port m => Sys2Proof.Machine.execFollowUp port m s
  | .followUpRelease port m ing eg => Sys2Proof.Machine.execFollowUpRelease port m ing eg s
  | .announce port m => Sys2Proof.Machine.execAnnounce port m s
  | .delayResp port m => Sys2Proof.Machine.execDelayResp port m s
  | .pdelayReq port m ing eg => Sys2Proof.Machine.execPdelayReq port m ing eg s
  | .pdelayResp port m ing => Sys2Proof.Machine.execPdelayResp port m ing s
  | .pdelayRespFollowUp port m => Sys2Proof.Machine.execPdelayRespFollowUp port m s
  | .encoderEdge a b => Sys2Proof.Machine.execEncoderEdge a b s
  | .alcoveMergeDone d => Sys2Proof.Machine.execAlcoveMergeDone d s
  | .indexEmpty d => Sys2Proof.Machine.execIndexEmpty d s
  | .carryDone d => Sys2Proof.Machine.execCarryDone d s
  | .waitComplete t => Sys2Proof.Machine.execWaitComplete t s
  | .waitDeadlineExpire t => Sys2Proof.Machine.execWaitDeadlineExpire t s
  | .triggerFire n => Sys2Proof.Machine.execTriggerFire n s
  | .captureEdge n rising => Sys2Proof.Machine.execCaptureEdge n rising s
  | .ethernetFrameReceive n f => Sys2Proof.Machine.execEthernetFrameReceive n f s
  | .relayStart e arriving => Sys2Proof.Machine.execRelayStart e arriving s
  | .portLinkChange n up => Sys2Proof.Machine.execPortLinkChange n up s
  | .bypassForceChange high => Sys2Proof.Machine.execBypassForceChange high s
  | .pointProbe d => Sys2Proof.Machine.execPointProbe d s
  | .egoWrWrite rq d v => Sys2Proof.Machine.execEgoWrWrite rq d v s
  | .egoWrBothWrite rq v => Sys2Proof.Machine.execEgoWrBothWrite rq v s
  | .egoSampleRead d => Sys2Proof.Machine.execEgoSampleRead d s
  | .replayWrWrite rq d v => Sys2Proof.Machine.execReplayWrWrite rq d v s
  | .replayRelease d => Sys2Proof.Machine.execReplayRelease d s
  | .hallQuery o => Sys2Proof.Machine.execHallQuery o s
  | .rbBuild o => Sys2Proof.Machine.execRbBuild o s
  | .segmentBuildDone d => Sys2Proof.Machine.execSegmentBuildDone d s
  | .nbrQuery o => Sys2Proof.Machine.execNbrQuery o s
  | .nbrRequestRun d => Sys2Proof.Machine.execNbrRequestRun d s
  | .pass o => Sys2Proof.Machine.execPass o s
  | .move o => Sys2Proof.Machine.execMove o s
  | .spGather o => Sys2Proof.Machine.execSpGather o s
  | .spCompress o => Sys2Proof.Machine.execSpCompress o s
  | .ruleGather o => Sys2Proof.Machine.execRuleGather o s
  | .ruleScatter o => Sys2Proof.Machine.execRuleScatter o s
  | .cellFinish o => Sys2Proof.Machine.execCellFinish o s
  | .mapScatter o => Sys2Proof.Machine.execMapScatter o s
  | .embGather o => Sys2Proof.Machine.execEmbGather o s
  | .missFill d c => Sys2Proof.Machine.execMissFill d c s
  | .embUpdate o => Sys2Proof.Machine.execEmbUpdate o s
  | .embFlush o => Sys2Proof.Machine.execEmbFlush o s
  | .embApply o => Sys2Proof.Machine.execEmbApply o s
  | .instructionFetch t => Sys2Proof.Machine.execInstructionFetch t s
  | .add t dst src1 src2 => Sys2Proof.Machine.execAdd t dst src1 src2 s
  | .sub t dst src1 src2 => Sys2Proof.Machine.execSub t dst src1 src2 s
  | .and t dst src1 src2 => Sys2Proof.Machine.execAnd t dst src1 src2 s
  | .or t dst src1 src2 => Sys2Proof.Machine.execOr t dst src1 src2 s
  | .xor t dst src1 src2 => Sys2Proof.Machine.execXor t dst src1 src2 s
  | .sll t dst src1 src2 => Sys2Proof.Machine.execSll t dst src1 src2 s
  | .srl t dst src1 src2 => Sys2Proof.Machine.execSrl t dst src1 src2 s
  | .sra t dst src1 src2 => Sys2Proof.Machine.execSra t dst src1 src2 s
  | .slt t dst src1 src2 => Sys2Proof.Machine.execSlt t dst src1 src2 s
  | .sltu t dst src1 src2 => Sys2Proof.Machine.execSltu t dst src1 src2 s
  | .min t dst src1 src2 => Sys2Proof.Machine.execMin t dst src1 src2 s
  | .max t dst src1 src2 => Sys2Proof.Machine.execMax t dst src1 src2 s
  | .minu t dst src1 src2 => Sys2Proof.Machine.execMinu t dst src1 src2 s
  | .maxu t dst src1 src2 => Sys2Proof.Machine.execMaxu t dst src1 src2 s
  | .mul t dst src1 src2 => Sys2Proof.Machine.execMul t dst src1 src2 s
  | .mulh t dst src1 src2 => Sys2Proof.Machine.execMulh t dst src1 src2 s
  | .mulhu t dst src1 src2 => Sys2Proof.Machine.execMulhu t dst src1 src2 s
  | .div t dst src1 src2 => Sys2Proof.Machine.execDiv t dst src1 src2 s
  | .divu t dst src1 src2 => Sys2Proof.Machine.execDivu t dst src1 src2 s
  | .rem t dst src1 src2 => Sys2Proof.Machine.execRem t dst src1 src2 s
  | .remu t dst src1 src2 => Sys2Proof.Machine.execRemu t dst src1 src2 s
  | .fadd t dst src1 src2 => Sys2Proof.Machine.execFadd t dst src1 src2 s
  | .fsub t dst src1 src2 => Sys2Proof.Machine.execFsub t dst src1 src2 s
  | .fmul t dst src1 src2 => Sys2Proof.Machine.execFmul t dst src1 src2 s
  | .fmin t dst src1 src2 => Sys2Proof.Machine.execFmin t dst src1 src2 s
  | .fmax t dst src1 src2 => Sys2Proof.Machine.execFmax t dst src1 src2 s
  | .feq t dst src1 src2 => Sys2Proof.Machine.execFeq t dst src1 src2 s
  | .flt t dst src1 src2 => Sys2Proof.Machine.execFlt t dst src1 src2 s
  | .fle t dst src1 src2 => Sys2Proof.Machine.execFle t dst src1 src2 s
  | .fcvtFi t dst src1 => Sys2Proof.Machine.execFcvtFi t dst src1 s
  | .fcvtIf t dst src1 => Sys2Proof.Machine.execFcvtIf t dst src1 s
  | .addi t dst src1 imm => Sys2Proof.Machine.execAddi t dst src1 imm s
  | .andi t dst src1 imm => Sys2Proof.Machine.execAndi t dst src1 imm s
  | .ori t dst src1 imm => Sys2Proof.Machine.execOri t dst src1 imm s
  | .xori t dst src1 imm => Sys2Proof.Machine.execXori t dst src1 imm s
  | .slti t dst src1 imm => Sys2Proof.Machine.execSlti t dst src1 imm s
  | .sltiu t dst src1 imm => Sys2Proof.Machine.execSltiu t dst src1 imm s
  | .slli t dst src1 count => Sys2Proof.Machine.execSlli t dst src1 count s
  | .srli t dst src1 count => Sys2Proof.Machine.execSrli t dst src1 count s
  | .srai t dst src1 count => Sys2Proof.Machine.execSrai t dst src1 count s
  | .lui t dst imm => Sys2Proof.Machine.execLui t dst imm s
  | .pcadd t dst imm => Sys2Proof.Machine.execPcadd t dst imm s
  | .ldpc t dst imm => Sys2Proof.Machine.execLdpc t dst imm s
  | .ld8 t dst src1 imm => Sys2Proof.Machine.execLd8 t dst src1 imm s
  | .ld8u t dst src1 imm => Sys2Proof.Machine.execLd8u t dst src1 imm s
  | .ld16 t dst src1 imm => Sys2Proof.Machine.execLd16 t dst src1 imm s
  | .ld16u t dst src1 imm => Sys2Proof.Machine.execLd16u t dst src1 imm s
  | .ld32 t dst src1 imm => Sys2Proof.Machine.execLd32 t dst src1 imm s
  | .ld32u t dst src1 imm => Sys2Proof.Machine.execLd32u t dst src1 imm s
  | .ld64 t dst src1 imm => Sys2Proof.Machine.execLd64 t dst src1 imm s
  | .st8 t src1 src2 imm => Sys2Proof.Machine.execSt8 t src1 src2 imm s
  | .st16 t src1 src2 imm => Sys2Proof.Machine.execSt16 t src1 src2 imm s
  | .st32 t src1 src2 imm => Sys2Proof.Machine.execSt32 t src1 src2 imm s
  | .st64 t src1 src2 imm => Sys2Proof.Machine.execSt64 t src1 src2 imm s
  | .stc t src1 src2 width ctr => Sys2Proof.Machine.execStc t src1 src2 width ctr s
  | .loadComplete t n => Sys2Proof.Machine.execLoadComplete t n s
  | .scalarAccessRelease t => Sys2Proof.Machine.execScalarAccessRelease t s
  | .inboundWriteRelease slot n => Sys2Proof.Machine.execInboundWriteRelease slot n s
  | .amoAdd t dst src1 src2 f => Sys2Proof.Machine.execAmoAdd t dst src1 src2 f s
  | .amoMin t dst src1 src2 f => Sys2Proof.Machine.execAmoMin t dst src1 src2 f s
  | .amoMax t dst src1 src2 f => Sys2Proof.Machine.execAmoMax t dst src1 src2 f s
  | .amoMinu t dst src1 src2 f => Sys2Proof.Machine.execAmoMinu t dst src1 src2 f s
  | .amoMaxu t dst src1 src2 f => Sys2Proof.Machine.execAmoMaxu t dst src1 src2 f s
  | .amoCas t dst src1 src2 f => Sys2Proof.Machine.execAmoCas t dst src1 src2 f s
  | .amoFadd t dst src1 src2 f => Sys2Proof.Machine.execAmoFadd t dst src1 src2 f s
  | .beq t src1 src2 imm => Sys2Proof.Machine.execBeq t src1 src2 imm s
  | .bne t src1 src2 imm => Sys2Proof.Machine.execBne t src1 src2 imm s
  | .blt t src1 src2 imm => Sys2Proof.Machine.execBlt t src1 src2 imm s
  | .bge t src1 src2 imm => Sys2Proof.Machine.execBge t src1 src2 imm s
  | .bltu t src1 src2 imm => Sys2Proof.Machine.execBltu t src1 src2 imm s
  | .bgeu t src1 src2 imm => Sys2Proof.Machine.execBgeu t src1 src2 imm s
  | .jal t dst imm => Sys2Proof.Machine.execJal t dst imm s
  | .jalr t dst src1 imm => Sys2Proof.Machine.execJalr t dst src1 imm s
  | .fenceAcq t => Sys2Proof.Machine.execFenceAcq t s
  | .fenceRel t => Sys2Proof.Machine.execFenceRel t s
  | .fenceFull t => Sys2Proof.Machine.execFenceFull t s
  | .fenceComplete t => Sys2Proof.Machine.execFenceComplete t s
  | .ifence t => Sys2Proof.Machine.execIfence t s
  | .exit t => Sys2Proof.Machine.execExit t s
  | .contextFree t => Sys2Proof.Machine.execContextFree t s
  | .arrive t src1 src2 => Sys2Proof.Machine.execArrive t src1 src2 s
  | .spawn t dst src1 src2 a => Sys2Proof.Machine.execSpawn t dst src1 src2 a s
  | .selfThreadId t dst => Sys2Proof.Machine.execSelfThreadId t dst s
  | .selfNodeId t dst => Sys2Proof.Machine.execSelfNodeId t dst s
  | .selfLogicalCore t dst => Sys2Proof.Machine.execSelfLogicalCore t dst s
  | .selfContext t dst => Sys2Proof.Machine.execSelfContext t dst s
  | .selfDomain t dst => Sys2Proof.Machine.execSelfDomain t dst s
  | .selfClass t dst => Sys2Proof.Machine.execSelfClass t dst s
  | .selfDeviceTime t dst => Sys2Proof.Machine.execSelfDeviceTime t dst s
  | .selfFrameNo t dst => Sys2Proof.Machine.execSelfFrameNo t dst s
  | .waitTread t dst src1 src2 => Sys2Proof.Machine.execWaitTread t dst src1 src2 s
  | .waitLanding t dst src1 src2 => Sys2Proof.Machine.execWaitLanding t dst src1 src2 s
  | .waitTime t dst src1 src2 => Sys2Proof.Machine.execWaitTime t dst src1 src2 s
  | .waitCount t dst src1 src2 n => Sys2Proof.Machine.execWaitCount t dst src1 src2 n s
  | .waitHalo t dst src1 src2 j => Sys2Proof.Machine.execWaitHalo t dst src1 src2 j s
  | .treadMark t src1 j => Sys2Proof.Machine.execTreadMark t src1 j s
  | .treadMarkEffect t => Sys2Proof.Machine.execTreadMarkEffect t s
  | .starvationPromote t => Sys2Proof.Machine.execStarvationPromote t s
  | .tensorEnter t => Sys2Proof.Machine.execTensorEnter t s
  | .tensorAdmit slot id => Sys2Proof.Machine.execTensorAdmit slot id s
  | .queueDispatch slot q => Sys2Proof.Machine.execQueueDispatch slot q s
  | .tensorRetire slot id => Sys2Proof.Machine.execTensorRetire slot id s
  | .tensorFaultDeliver slot id => Sys2Proof.Machine.execTensorFaultDeliver slot id s
  | .passNext slot => Sys2Proof.Machine.execPassNext slot s
  | .passLedgerAdmit slot => Sys2Proof.Machine.execPassLedgerAdmit slot s
  | .passIssue slot cycle => Sys2Proof.Machine.execPassIssue slot cycle s
  | .chainAbandon slot cycle => Sys2Proof.Machine.execChainAbandon slot cycle s
  | .correctedWriteback slot off => Sys2Proof.Machine.execCorrectedWriteback slot off s
  | .scrubRead slot bank => Sys2Proof.Machine.execScrubRead slot bank s
  | .scrubForce slot bank => Sys2Proof.Machine.execScrubForce slot bank s
  | .scratchpadClearDone slot => Sys2Proof.Machine.execScratchpadClearDone slot s
  | .patrolRead d ch => Sys2Proof.Machine.execPatrolRead d ch s
  | .hopParityReplay h fails v => Sys2Proof.Machine.execHopParityReplay h fails v s
  | .spareCmdGo rq d ch => Sys2Proof.Machine.execSpareCmdGo rq d ch s
  | .sparingDone d => Sys2Proof.Machine.execSparingDone d s
  | .channelFail d ch => Sys2Proof.Machine.execChannelFail d ch s
  | .corridorLaneSpare group => Sys2Proof.Machine.execCorridorLaneSpare group s
  | .galleryDetect p seen => Sys2Proof.Machine.execGalleryDetect p seen s
  | .equaliseDone p locked => Sys2Proof.Machine.execEqualiseDone p locked s
  | .alignDone p => Sys2Proof.Machine.execAlignDone p s
  | .exchange p node port x y z => Sys2Proof.Machine.execExchange p node port x y z s
  | .laneLockLoss p => Sys2Proof.Machine.execLaneLockLoss p s
  | .retrainTimeout p => Sys2Proof.Machine.execRetrainTimeout p s
  | .flitTransmit p => Sys2Proof.Machine.execFlitTransmit p s
  | .flitReceive p flit => Sys2Proof.Machine.execFlitReceive p flit s
  | .nakRepeat p => Sys2Proof.Machine.execNakRepeat p s
  | .galleryRoute p => Sys2Proof.Machine.execGalleryRoute p s
  | .galleryRequestTimeout tag => Sys2Proof.Machine.execGalleryRequestTimeout tag s
  | .msgPop rq => Sys2Proof.Machine.execMsgPop rq s
  | .ledgerSample rails => Sys2Proof.Machine.execLedgerSample rails s
  | .frequencyStepLock d => Sys2Proof.Machine.execFrequencyStepLock d s
  | .frequencyStepSwitch d => Sys2Proof.Machine.execFrequencyStepSwitch d s
  | .frequencyStepAbandon d => Sys2Proof.Machine.execFrequencyStepAbandon d s
  | .clusterTempSample m t => Sys2Proof.Machine.execClusterTempSample m t s
  | .marginSample m slacks drifts => Sys2Proof.Machine.execMarginSample m slacks drifts s
  | .replan derate0 derate1 => Sys2Proof.Machine.execReplan derate0 derate1 s
  | .ageCmdReplan rq => Sys2Proof.Machine.execAgeCmdReplan rq s
  | .watchdogExpire d n => Sys2Proof.Machine.execWatchdogExpire d n s
  | .pornChange high => Sys2Proof.Machine.execPornChange high s
  | .resetnChange high => Sys2Proof.Machine.execResetnChange high s
  | .perstnChange high => Sys2Proof.Machine.execPerstnChange high s
  | .trstnChange high => Sys2Proof.Machine.execTrstnChange high s
  | .brownout r => Sys2Proof.Machine.execBrownout r s
  | .brownoutRelease r => Sys2Proof.Machine.execBrownoutRelease r s
  | .clkGoodRise c => Sys2Proof.Machine.execClkGoodRise c s
  | .clkLoss c => Sys2Proof.Machine.execClkLoss c s
  | .swResetPulse rq level scope => Sys2Proof.Machine.execSwResetPulse rq level scope s
  | .swResetAssert rq level scope => Sys2Proof.Machine.execSwResetAssert rq level scope s
  | .swResetRelease rq level scope => Sys2Proof.Machine.execSwResetRelease rq level scope s
  | .stubAnswer rq wr addr => Sys2Proof.Machine.execStubAnswer rq wr addr s
  | .blockRelease b => Sys2Proof.Machine.execBlockRelease b s
  | .releaseDone b => Sys2Proof.Machine.execReleaseDone b s
  | .accessTableRestore d => Sys2Proof.Machine.execAccessTableRestore d s
  | .bootImageCheck src img => Sys2Proof.Machine.execBootImageCheck src img s
  | .bootDoneSet fw => Sys2Proof.Machine.execBootDoneSet fw s
  | .bootCmdGo rq => Sys2Proof.Machine.execBootCmdGo rq s
  | .bootCmdRecoveryExit rq => Sys2Proof.Machine.execBootCmdRecoveryExit rq s
  | .detectorEvent u => Sys2Proof.Machine.execDetectorEvent u s
  | .slotFenceWrite rq d c v => Sys2Proof.Machine.execSlotFenceWrite rq d c v s
  | .injectWrite rq p v => Sys2Proof.Machine.execInjectWrite rq p v s
  | .ctxCmdFree rq slot => Sys2Proof.Machine.execCtxCmdFree rq slot s
  | .ctxCmdKill rq slot => Sys2Proof.Machine.execCtxCmdKill rq slot s
  | .ctrWrite rq slot n v => Sys2Proof.Machine.execCtrWrite rq slot n v s
  | .quiesceReqWrite rq p on => Sys2Proof.Machine.execQuiesceReqWrite rq p on s
  | .quoteCmdGo rq => Sys2Proof.Machine.execQuoteCmdGo rq s
  | .extendCmdGo rq slot => Sys2Proof.Machine.execExtendCmdGo rq slot s
  | .debugEnSet rq => Sys2Proof.Machine.execDebugEnSet rq s
  | .samplePreload cells => Sys2Proof.Machine.execSamplePreload cells s
  | .jtagBypass code => Sys2Proof.Machine.execJtagBypass code s
  | .dbgAccessUpdate wr addr data => Sys2Proof.Machine.execDbgAccessUpdate wr addr data s
  | .smbWrite cmd data => Sys2Proof.Machine.execSmbWrite cmd data s
  | .slidingWindowAccess wr off len data => Sys2Proof.Machine.execSlidingWindowAccess wr off len data s
  | .hostIrqSetWrite rq v => Sys2Proof.Machine.execHostIrqSetWrite rq v s
  | .msixUnmask v addr data => Sys2Proof.Machine.execMsixUnmask v addr data s
  | .pcieDstateChange d3 => Sys2Proof.Machine.execPcieDstateChange d3 s
  | .pcieLinkChange up speed width => Sys2Proof.Machine.execPcieLinkChange up speed width s
  | .outboundCompletionTimeout o => Sys2Proof.Machine.execOutboundCompletionTimeout o s
  | .mbxNudge rq v => Sys2Proof.Machine.execMbxNudge rq v s
  | .avsbusTransactionDone d ok mv => Sys2Proof.Machine.execAvsbusTransactionDone d ok mv s
  | .dramTempSample d t => Sys2Proof.Machine.execDramTempSample d t s
  | .dramTrainingDone ok => Sys2Proof.Machine.execDramTrainingDone ok s
  | .ptpRequestInterval => Sys2Proof.Machine.execPtpRequestInterval s
  | .residenceEntryExpire => Sys2Proof.Machine.execResidenceEntryExpire s
  | .discTimeoutExpire => Sys2Proof.Machine.execDiscTimeoutExpire s
  | .ppsInEdge => Sys2Proof.Machine.execPpsInEdge s
  | .ppsOutPulse => Sys2Proof.Machine.execPpsOutPulse s
  | .encoderIndex => Sys2Proof.Machine.execEncoderIndex s
  | .newelTimeoutExpire => Sys2Proof.Machine.execNewelTimeoutExpire s
  | .catchupDone => Sys2Proof.Machine.execCatchupDone s
  | .frame0Open => Sys2Proof.Machine.execFrame0Open s
  | .treadCut => Sys2Proof.Machine.execTreadCut s
  | .pointFrontBarrierDone => Sys2Proof.Machine.execPointFrontBarrierDone s
  | .treadEvent => Sys2Proof.Machine.execTreadEvent s
  | .violationRecordSecond => Sys2Proof.Machine.execViolationRecordSecond s
  | .holdoffExpire => Sys2Proof.Machine.execHoldoffExpire s
  | .rd => Sys2Proof.Machine.execRd s
  | .wr => Sys2Proof.Machine.execWr s
  | .wrc => Sys2Proof.Machine.execWrc s
  | .amo => Sys2Proof.Machine.execAmo s
  | .galleryArrive => Sys2Proof.Machine.execGalleryArrive s
  | .msg => Sys2Proof.Machine.execMsg s
  | .reset => Sys2Proof.Machine.execReset s
  | .contrib => Sys2Proof.Machine.execContrib s
  | .cpl => Sys2Proof.Machine.execCpl s
  | .cplData => Sys2Proof.Machine.execCplData s
  | .ledgerPeriodEnd => Sys2Proof.Machine.execLedgerPeriodEnd s
  | .throttleTick => Sys2Proof.Machine.execThrottleTick s
  | .thermalTripRelease => Sys2Proof.Machine.execThermalTripRelease s
  | .supplyWarnFall => Sys2Proof.Machine.execSupplyWarnFall s
  | .holdDeadlineExpire => Sys2Proof.Machine.execHoldDeadlineExpire s
  | .supplyHoldEnter => Sys2Proof.Machine.execSupplyHoldEnter s
  | .supplyWarnRise => Sys2Proof.Machine.execSupplyWarnRise s
  | .supplyRelease => Sys2Proof.Machine.execSupplyRelease s
  | .poweredHour => Sys2Proof.Machine.execPoweredHour s
  | .pcieHotReset => Sys2Proof.Machine.execPcieHotReset s
  | .pcieFlr => Sys2Proof.Machine.execPcieFlr s
  | .resetSourceTimer => Sys2Proof.Machine.execResetSourceTimer s
  | .vddAonLoss => Sys2Proof.Machine.execVddAonLoss s
  | .mirrorResyncDone => Sys2Proof.Machine.execMirrorResyncDone s
  | .bootTimerExpire => Sys2Proof.Machine.execBootTimerExpire s
  | .errorRecordSecond => Sys2Proof.Machine.execErrorRecordSecond s
  | .historyRecordWrite => Sys2Proof.Machine.execHistoryRecordWrite s
  | .coreFence => Sys2Proof.Machine.execCoreFence s
  | .quoteDone => Sys2Proof.Machine.execQuoteDone s
  | .extest => Sys2Proof.Machine.execExtest s
  | .idcode => Sys2Proof.Machine.execIdcode s
  | .dbgAccessCapture => Sys2Proof.Machine.execDbgAccessCapture s
  | .smbReadPkgInfo => Sys2Proof.Machine.execSmbReadPkgInfo s
  | .smbReadStatus => Sys2Proof.Machine.execSmbReadStatus s
  | .smbReadTemperature => Sys2Proof.Machine.execSmbReadTemperature s
  | .smbReadFaultLatch => Sys2Proof.Machine.execSmbReadFaultLatch s
  | .smbReadFail => Sys2Proof.Machine.execSmbReadFail s
  | .smbReadPoweredHours => Sys2Proof.Machine.execSmbReadPoweredHours s
  | .mbxScan => Sys2Proof.Machine.execMbxScan s
  | .nop => Sys2Proof.Machine.execNop s
  | .mbxSpawn => Sys2Proof.Machine.execMbxSpawn s
  | .kill => Sys2Proof.Machine.execKill s
  | .free => Sys2Proof.Machine.execFree s
  | .identityKeyDerived => Sys2Proof.Machine.execIdentityKeyDerived s
  | .vddAonReturn => Sys2Proof.Machine.execVddAonReturn s

end Sys2Proof.Machine
end

