-- ==== Sys2Proof/Machine/Tick.lean ====
section
/-!
DEFINITION. One TCLK cycle without a command: time goes on (R43, R65), the control cores' heartbeats rise (R541), and armed
REPORT injections report (R609).
-/

namespace Sys2Proof.Machine

/-- The counter and the INT_RAW bit that an event of a detector counts in and raises (R609, R611), where it has them. A
detector with a counter for each channel or port counts in that of channel or port 0, since INJECT names none (assumption 48).
CHp_PERSIST does not count injected events. -/
def detectorCounts (p : Page) (det : Nat) : Option Fld × Option Nat :=
  match p, det with
  | .core _ _, 0x01 => (some KB8.SPM_ECC_CORR, some 0)
  | .core _ _, 0x02 => (some KB8.SPM_ECC_UNCORR, some 1)
  | .core _ _, 0x03 => (some KB8.SCRUB_UNCORR, some 2)
  | .core _ _, 0x04 => (some KB8.INBOUND_REPLAY, none)
  | .core _ _, 0x05 => (some KB8.INBOUND_PERSIST, some 3)
  | .core _ _, 0x06 => (some KB3.GRP_ECC_CORR, some 2)
  | .core _ _, 0x07 => (some KB4.ENG_PARITY, some 0)
  | .core _ _, 0x09 => (some KB12.ICACHE_PARITY, some 0)
  | .core _ _, 0x0A => (some KB12.CTX_PARITY, some 1)
  | .core _ _, 0x0B => (some KB12.SB_PARITY, some 2)
  | .cl _ _ _, 0x10 => (some CB3.FABRIC_REPLAY, none)
  | .cl _ _ _, 0x11 => (some CB3.FABRIC_PERSIST, some 0)
  | .cl _ _ _, 0x12 => (some CB3.RC_PARITY, none)
  | .cl _ _ _, 0x13 => (some CB3.UPD_ECC, some 1)
  | .die _ _, 0x20 => (some (DB5.CH_CORR 0), none)
  | .die _ _, 0x21 => (some (DB5.CH_UNCORR 0), some 0)
  | .die _ _, 0x23 => (some (DB5.CH_REPLAY 0), none)
  | .die _ _, 0x24 => (none, some 1)
  | .die _ _, 0x25 => (none, some 3)
  | .die _ _, 0x27 => (some DB6.CORR_REPLAY, none)
  | .die _ _, 0x28 => (some DB6.CORR_PERSIST, some 0)
  | .die _ _, 0x2B => (some DB8.CC_MEM_CORR, none)
  | .die _ _, 0x2C => (some DB8.CC_MEM_UNCORR, some 0)
  | .die _ _, 0x2D => (some DB9.WDT_EXPIRIES, some 0)
  | .pkg _, 0x32 => (some PB1.CLK_LOSS_COUNT, some 1)
  | .pkg _, 0x34 => (some (PB8.GP_REPLAYS 0), none)
  | .pkg _, 0x35 => (some (PB8.GP_LOST 0), some 12)
  | .pkg _, 0x36 => (some PB8.TIMEOUTS, some 7)
  | .pkg _, 0x37 => (some PB7.AER_CORR, none)
  | .pkg _, 0x38 => (some PB7.AER_UNCORR, some 3)
  | _, _ => (none, none)

/-- One event counted and raised. -/
def countDetector (s : State) (p : Page) (det : Nat) : State :=
  let c := detectorCounts p det
  let s := match c.1 with | some f => finc s p f | none => s
  match c.2 with | some i => raiseInt s p i | none => s

/-- R609: in REPORT mode the armed detector of a page reports one event; a block in reset makes none (R589). -/
def reportInjected (s : State) (p : Page) : State :=
  if fget s p HDR.INJECT_MODE = 0 ∧ fget s p HDR.INJECT_COUNT ≠ 0 ∧ !pageStubbed s p then
    let det := fget s p HDR.INJECT_DETECTOR
    reportErr (countDetector (fset s p HDR.INJECT_COUNT (fget s p HDR.INJECT_COUNT - 1)) p det) p det 0 0 true
  else s

/-- The pages whose INJECT register has been written since their reset. -/
def injectPages (s : State) : List Page :=
  s.reg.regs.filterMap (fun e => if e.1 % 0x1000 = 0x20 then pageAt e.1 else none)

/-- R541: CCn_HEARTBEAT rises once per millisecond while core `n` runs. -/
def heartbeats (s : State) : State :=
  if s.now % 1000000 ≠ 0 then s
  else
    [0, 1].foldl (fun s d =>
      (List.range 4).foldl (fun s n =>
        if ccRunning s d && bit (fget s (.die d 9) DB9.CC_STATUS_RUNNING) n then
          finc s (.die d 9) (DB9.CC_HEARTBEAT n)
        else s) s) s

/-- One TCLK cycle. Values that are open may change with it. -/
def idleTick (s : State) : State :=
  let s := tickFree (tick s)
  heartbeats ((injectPages s).foldl reportInjected s)

end Sys2Proof.Machine
end

