-- ==== Sys2Proof/Machine/Encoding.lean ====
section
/-!
DEFINITION. The words of a thread instruction (R410, R414 to R431): the words that an instruction command stands for, and
the instruction that fetched words spell. INSTRUCTION_FETCH fetches the words; the command acts where they stand fetched.
-/

namespace Sys2Proof.Machine

/-- Format I with a register, a register and a signed immediate. -/
def wordI (op : Nat) (dst src1 : RegNum) (imm : BitVec 14) : List Nat := [fmtI op imm.toNat src1.val dst.val]

/-- Format S. -/
def wordS (op : Nat) (src1 src2 : RegNum) (imm : BitVec 14) : List Nat := [fmtS op imm.toNat src1.val src2.val]

/-- Format A. -/
def wordA (op fn : Nat) (dst src1 src2 : RegNum) : List Nat := [fmtA op fn dst.val src1.val src2.val]

/-- Format U. -/
def wordU (op : Nat) (dst : RegNum) (imm : BitVec 19) : List Nat := [fmtU op imm.toNat dst.val]

/-- FN of an atomic (R422): the operation, its width, ACQ and REL. -/
def amoFn (op : Nat) (f : AmoFlags) : Nat := op + 16 * b2n f.wide + 32 * b2n f.acq + 64 * b2n f.rel

/-- The four words of a tensor instruction that a thread issues (R429, R431). -/
def wordsT (op : Nat) : TensorOp → Option (List Nat)
  | .issue _ base offset notify result => some [op + 256 * base.val, offset.toNat, notify.toNat, result.toNat]
  | .run _ _ => none

/-- The thread of a tensor instruction that a thread issues. -/
def threadT : TensorOp → Option ThreadRef
  | .issue t _ _ _ _ => some t
  | .run _ _ => none

/-- The thread that an instruction command belongs to; none for every other command. -/
def threadOf : Instr → Option ThreadRef
  | .add t _ _ _ => some t
  | .sub t _ _ _ => some t
  | .and t _ _ _ => some t
  | .or t _ _ _ => some t
  | .xor t _ _ _ => some t
  | .sll t _ _ _ => some t
  | .srl t _ _ _ => some t
  | .sra t _ _ _ => some t
  | .slt t _ _ _ => some t
  | .sltu t _ _ _ => some t
  | .min t _ _ _ => some t
  | .max t _ _ _ => some t
  | .minu t _ _ _ => some t
  | .maxu t _ _ _ => some t
  | .mul t _ _ _ => some t
  | .mulh t _ _ _ => some t
  | .mulhu t _ _ _ => some t
  | .div t _ _ _ => some t
  | .divu t _ _ _ => some t
  | .rem t _ _ _ => some t
  | .remu t _ _ _ => some t
  | .fadd t _ _ _ => some t
  | .fsub t _ _ _ => some t
  | .fmul t _ _ _ => some t
  | .fmin t _ _ _ => some t
  | .fmax t _ _ _ => some t
  | .feq t _ _ _ => some t
  | .flt t _ _ _ => some t
  | .fle t _ _ _ => some t
  | .fcvtFi t _ _ => some t
  | .fcvtIf t _ _ => some t
  | .addi t _ _ _ => some t
  | .andi t _ _ _ => some t
  | .ori t _ _ _ => some t
  | .xori t _ _ _ => some t
  | .slti t _ _ _ => some t
  | .sltiu t _ _ _ => some t
  | .slli t _ _ _ => some t
  | .srli t _ _ _ => some t
  | .srai t _ _ _ => some t
  | .lui t _ _ => some t
  | .pcadd t _ _ => some t
  | .jal t _ _ => some t
  | .ldpc t _ _ => some t
  | .ld8 t _ _ _ => some t
  | .ld8u t _ _ _ => some t
  | .ld16 t _ _ _ => some t
  | .ld16u t _ _ _ => some t
  | .ld32 t _ _ _ => some t
  | .ld32u t _ _ _ => some t
  | .ld64 t _ _ _ => some t
  | .st8 t _ _ _ => some t
  | .st16 t _ _ _ => some t
  | .st32 t _ _ _ => some t
  | .st64 t _ _ _ => some t
  | .beq t _ _ _ => some t
  | .bne t _ _ _ => some t
  | .blt t _ _ _ => some t
  | .bge t _ _ _ => some t
  | .bltu t _ _ _ => some t
  | .bgeu t _ _ _ => some t
  | .stc t _ _ _ _ => some t
  | .amoAdd t _ _ _ _ => some t
  | .amoMin t _ _ _ _ => some t
  | .amoMax t _ _ _ _ => some t
  | .amoMinu t _ _ _ _ => some t
  | .amoMaxu t _ _ _ _ => some t
  | .amoCas t _ _ _ _ => some t
  | .amoFadd t _ _ _ _ => some t
  | .jalr t _ _ _ => some t
  | .fenceAcq t => some t
  | .fenceRel t => some t
  | .fenceFull t => some t
  | .ifence t => some t
  | .exit t => some t
  | .arrive t _ _ => some t
  | .spawn t _ _ _ _ => some t
  | .selfThreadId t _ => some t
  | .selfNodeId t _ => some t
  | .selfLogicalCore t _ => some t
  | .selfContext t _ => some t
  | .selfDomain t _ => some t
  | .selfClass t _ => some t
  | .selfDeviceTime t _ => some t
  | .selfFrameNo t _ => some t
  | .waitTread t _ _ _ => some t
  | .waitLanding t _ _ _ => some t
  | .waitTime t _ _ _ => some t
  | .waitCount t _ _ _ _ => some t
  | .waitHalo t _ _ _ _ => some t
  | .treadMark t _ _ => some t
  | .pass o => threadT o
  | .move o => threadT o
  | .spGather o => threadT o
  | .spCompress o => threadT o
  | .ruleGather o => threadT o
  | .ruleScatter o => threadT o
  | .cellFinish o => threadT o
  | .mapScatter o => threadT o
  | .rbBuild o => threadT o
  | .nbrQuery o => threadT o
  | .hallQuery o => threadT o
  | .embGather o => threadT o
  | .embUpdate o => threadT o
  | .embFlush o => threadT o
  | .embApply o => threadT o
  | _ => none

/-- The words of an instruction command; none for every other command. -/
def wordsOf : Instr → Option (List Nat)
  | .add _ d a b => some (wordA 0x01 0x00 d a b)
  | .sub _ d a b => some (wordA 0x01 0x01 d a b)
  | .and _ d a b => some (wordA 0x01 0x02 d a b)
  | .or _ d a b => some (wordA 0x01 0x03 d a b)
  | .xor _ d a b => some (wordA 0x01 0x04 d a b)
  | .sll _ d a b => some (wordA 0x01 0x05 d a b)
  | .srl _ d a b => some (wordA 0x01 0x06 d a b)
  | .sra _ d a b => some (wordA 0x01 0x07 d a b)
  | .slt _ d a b => some (wordA 0x01 0x08 d a b)
  | .sltu _ d a b => some (wordA 0x01 0x09 d a b)
  | .min _ d a b => some (wordA 0x01 0x0A d a b)
  | .max _ d a b => some (wordA 0x01 0x0B d a b)
  | .minu _ d a b => some (wordA 0x01 0x0C d a b)
  | .maxu _ d a b => some (wordA 0x01 0x0D d a b)
  | .mul _ d a b => some (wordA 0x01 0x10 d a b)
  | .mulh _ d a b => some (wordA 0x01 0x11 d a b)
  | .mulhu _ d a b => some (wordA 0x01 0x12 d a b)
  | .div _ d a b => some (wordA 0x01 0x13 d a b)
  | .divu _ d a b => some (wordA 0x01 0x14 d a b)
  | .rem _ d a b => some (wordA 0x01 0x15 d a b)
  | .remu _ d a b => some (wordA 0x01 0x16 d a b)
  | .fadd _ d a b => some (wordA 0x02 0x00 d a b)
  | .fsub _ d a b => some (wordA 0x02 0x01 d a b)
  | .fmul _ d a b => some (wordA 0x02 0x02 d a b)
  | .fmin _ d a b => some (wordA 0x02 0x03 d a b)
  | .fmax _ d a b => some (wordA 0x02 0x04 d a b)
  | .feq _ d a b => some (wordA 0x02 0x05 d a b)
  | .flt _ d a b => some (wordA 0x02 0x06 d a b)
  | .fle _ d a b => some (wordA 0x02 0x07 d a b)
  | .fcvtFi _ d a => some (wordA 0x02 0x08 d a 0)
  | .fcvtIf _ d a => some (wordA 0x02 0x09 d a 0)
  | .addi _ d a i => some (wordI 0x10 d a i)
  | .andi _ d a i => some (wordI 0x11 d a i)
  | .ori _ d a i => some (wordI 0x12 d a i)
  | .xori _ d a i => some (wordI 0x13 d a i)
  | .slti _ d a i => some (wordI 0x14 d a i)
  | .sltiu _ d a i => some (wordI 0x15 d a i)
  | .slli _ d a i => some [fmtI 0x16 i.toNat a.val d.val]
  | .srli _ d a i => some [fmtI 0x17 i.toNat a.val d.val]
  | .srai _ d a i => some [fmtI 0x18 i.toNat a.val d.val]
  | .lui _ d i => some (wordU 0x1C d i)
  | .pcadd _ d i => some (wordU 0x1D d i)
  | .jal _ d i => some (wordU 0x1E d i)
  | .ldpc _ d i => some (wordU 0x1F d i)
  | .ld8 _ d a i => some (wordI 0x20 d a i)
  | .ld8u _ d a i => some (wordI 0x21 d a i)
  | .ld16 _ d a i => some (wordI 0x22 d a i)
  | .ld16u _ d a i => some (wordI 0x23 d a i)
  | .ld32 _ d a i => some (wordI 0x24 d a i)
  | .ld32u _ d a i => some (wordI 0x25 d a i)
  | .ld64 _ d a i => some (wordI 0x26 d a i)
  | .st8 _ a b i => some (wordS 0x28 a b i)
  | .st16 _ a b i => some (wordS 0x29 a b i)
  | .st32 _ a b i => some (wordS 0x2A a b i)
  | .st64 _ a b i => some (wordS 0x2B a b i)
  | .beq _ a b i => some (wordS 0x38 a b i)
  | .bne _ a b i => some (wordS 0x39 a b i)
  | .blt _ a b i => some (wordS 0x3A a b i)
  | .bge _ a b i => some (wordS 0x3B a b i)
  | .bltu _ a b i => some (wordS 0x3C a b i)
  | .bgeu _ a b i => some (wordS 0x3D a b i)
  | .stc _ a b w c => some (wordA 0x2C (w.val * 128 + c.val) 0 a b)
  | .amoAdd _ d a b f => some (wordA 0x30 (amoFn 0 f) d a b)
  | .amoMin _ d a b f => some (wordA 0x30 (amoFn 1 f) d a b)
  | .amoMax _ d a b f => some (wordA 0x30 (amoFn 2 f) d a b)
  | .amoMinu _ d a b f => some (wordA 0x30 (amoFn 3 f) d a b)
  | .amoMaxu _ d a b f => some (wordA 0x30 (amoFn 4 f) d a b)
  | .amoCas _ d a b f => some (wordA 0x30 (amoFn 5 f) d a b)
  | .amoFadd _ d a b f => some (wordA 0x30 (amoFn 6 f) d a b)
  | .jalr _ d a i => some (wordI 0x3E d a i)
  | .fenceAcq _ => some (wordA 0x40 0 0 0 0)
  | .fenceRel _ => some (wordA 0x40 1 0 0 0)
  | .fenceFull _ => some (wordA 0x40 2 0 0 0)
  | .ifence _ => some (wordA 0x40 3 0 0 0)
  | .exit _ => some (wordA 0x40 4 0 0 0)
  | .arrive _ a b => some (wordA 0x40 5 0 a b)
  | .spawn _ d a b n => some (wordA 0x41 n.val d a b)
  | .selfThreadId _ d => some (wordA 0x42 0 d 0 0)
  | .selfNodeId _ d => some (wordA 0x42 1 d 0 0)
  | .selfLogicalCore _ d => some (wordA 0x42 2 d 0 0)
  | .selfContext _ d => some (wordA 0x42 3 d 0 0)
  | .selfDomain _ d => some (wordA 0x42 4 d 0 0)
  | .selfClass _ d => some (wordA 0x42 5 d 0 0)
  | .selfDeviceTime _ d => some (wordA 0x42 6 d 0 0)
  | .selfFrameNo _ d => some (wordA 0x42 7 d 0 0)
  | .waitTread _ d a b => some (wordA 0x48 0 d a b)
  | .waitLanding _ d a b => some (wordA 0x48 1 d a b)
  | .waitTime _ d a b => some (wordA 0x48 2 d a b)
  | .waitCount _ d a b n => some (wordA 0x48 (3 + 8 * n.val) d a b)
  | .waitHalo _ d a b j => some (wordA 0x48 (4 + 8 * j.val) d a b)
  | .treadMark _ a j => some (wordA 0x49 j.val 0 a 0)
  | .pass o => wordsT 0xC0 o
  | .move o => wordsT 0xC1 o
  | .spGather o => wordsT 0xC2 o
  | .spCompress o => wordsT 0xC3 o
  | .ruleGather o => wordsT 0xC4 o
  | .ruleScatter o => wordsT 0xC5 o
  | .cellFinish o => wordsT 0xC6 o
  | .mapScatter o => wordsT 0xC7 o
  | .rbBuild o => wordsT 0xC8 o
  | .nbrQuery o => wordsT 0xC9 o
  | .hallQuery o => wordsT 0xCA o
  | .embGather o => wordsT 0xCB o
  | .embUpdate o => wordsT 0xCC o
  | .embFlush o => wordsT 0xCD o
  | .embApply o => wordsT 0xCE o
  | _ => none

/-- A register number in a field of a word. -/
def regAt (w lo : Nat) : RegNum := Fin.ofNat 32 (w / 2 ^ lo)

/-- The integer instruction of an FN (R415). -/
def intOf (t : ThreadRef) (fn : Nat) (d a b : RegNum) : Option Instr :=
  match fn with
  | 0x00 => some (.add t d a b)
  | 0x01 => some (.sub t d a b)
  | 0x02 => some (.and t d a b)
  | 0x03 => some (.or t d a b)
  | 0x04 => some (.xor t d a b)
  | 0x05 => some (.sll t d a b)
  | 0x06 => some (.srl t d a b)
  | 0x07 => some (.sra t d a b)
  | 0x08 => some (.slt t d a b)
  | 0x09 => some (.sltu t d a b)
  | 0x0A => some (.min t d a b)
  | 0x0B => some (.max t d a b)
  | 0x0C => some (.minu t d a b)
  | 0x0D => some (.maxu t d a b)
  | 0x10 => some (.mul t d a b)
  | 0x11 => some (.mulh t d a b)
  | 0x12 => some (.mulhu t d a b)
  | 0x13 => some (.div t d a b)
  | 0x14 => some (.divu t d a b)
  | 0x15 => some (.rem t d a b)
  | 0x16 => some (.remu t d a b)
  | _ => none

/-- The FP32 instruction of an FN (R418). -/
def fpOf (t : ThreadRef) (fn : Nat) (d a b : RegNum) : Option Instr :=
  match fn with
  | 0x00 => some (.fadd t d a b)
  | 0x01 => some (.fsub t d a b)
  | 0x02 => some (.fmul t d a b)
  | 0x03 => some (.fmin t d a b)
  | 0x04 => some (.fmax t d a b)
  | 0x05 => some (.feq t d a b)
  | 0x06 => some (.flt t d a b)
  | 0x07 => some (.fle t d a b)
  | 0x08 => some (.fcvtFi t d a)
  | 0x09 => some (.fcvtIf t d a)
  | _ => none

/-- The atomic of an FN (R422). -/
def amoOf (t : ThreadRef) (fn : Nat) (d a b : RegNum) : Option Instr :=
  let f : AmoFlags := ⟨bit fn 4, bit fn 5, bit fn 6⟩
  match fn % 16 with
  | 0 => some (.amoAdd t d a b f)
  | 1 => some (.amoMin t d a b f)
  | 2 => some (.amoMax t d a b f)
  | 3 => some (.amoMinu t d a b f)
  | 4 => some (.amoMaxu t d a b f)
  | 5 => some (.amoCas t d a b f)
  | 6 => some (.amoFadd t d a b f)
  | _ => none

/-- The thread-control instruction of an FN (R424, R425). -/
def controlOf (t : ThreadRef) (fn : Nat) (a b : RegNum) : Option Instr :=
  match fn with
  | 0 => some (.fenceAcq t)
  | 1 => some (.fenceRel t)
  | 2 => some (.fenceFull t)
  | 3 => some (.ifence t)
  | 4 => some (.exit t)
  | 5 => some (.arrive t a b)
  | _ => none

/-- The SELF instruction of a selector (R426). -/
def selfOf (t : ThreadRef) (fn : Nat) (d : RegNum) : Option Instr :=
  match fn with
  | 0 => some (.selfThreadId t d)
  | 1 => some (.selfNodeId t d)
  | 2 => some (.selfLogicalCore t d)
  | 3 => some (.selfContext t d)
  | 4 => some (.selfDomain t d)
  | 5 => some (.selfClass t d)
  | 6 => some (.selfDeviceTime t d)
  | 7 => some (.selfFrameNo t d)
  | _ => none

/-- The WAIT instruction of an FN (R427). -/
def waitOf (t : ThreadRef) (fn : Nat) (d a b : RegNum) : Option Instr :=
  match fn % 8 with
  | 0 => some (.waitTread t d a b)
  | 1 => some (.waitLanding t d a b)
  | 2 => some (.waitTime t d a b)
  | 3 => some (.waitCount t d a b (Fin.ofNat 64 (fn / 8)))
  | 4 => some (.waitHalo t d a b (Fin.ofNat 32 (fn / 8)))
  | _ => none

/-- The tensor instruction of an opcode (R430). -/
def tensorOf (op : Nat) (o : TensorOp) : Option Instr :=
  match op with
  | 0xC0 => some (.pass o)
  | 0xC1 => some (.move o)
  | 0xC2 => some (.spGather o)
  | 0xC3 => some (.spCompress o)
  | 0xC4 => some (.ruleGather o)
  | 0xC5 => some (.ruleScatter o)
  | 0xC6 => some (.cellFinish o)
  | 0xC7 => some (.mapScatter o)
  | 0xC8 => some (.rbBuild o)
  | 0xC9 => some (.nbrQuery o)
  | 0xCA => some (.hallQuery o)
  | 0xCB => some (.embGather o)
  | 0xCC => some (.embUpdate o)
  | 0xCD => some (.embFlush o)
  | 0xCE => some (.embApply o)
  | _ => none

/-- The scalar instruction of an opcode whose registers stand in bits [12:8] and [17:13] (formats I, S and U). -/
def immOf (t : ThreadRef) (op w : Nat) : Option Instr :=
  let x := regAt w 8
  let y := regAt w 13
  let i := BitVec.ofNat 14 (w / 2 ^ 18)
  let c := BitVec.ofNat 6 (w / 2 ^ 18)
  let u := BitVec.ofNat 19 (w / 2 ^ 13)
  match op with
  | 0x10 => some (.addi t x y i)
  | 0x11 => some (.andi t x y i)
  | 0x12 => some (.ori t x y i)
  | 0x13 => some (.xori t x y i)
  | 0x14 => some (.slti t x y i)
  | 0x15 => some (.sltiu t x y i)
  | 0x16 => some (.slli t x y c)
  | 0x17 => some (.srli t x y c)
  | 0x18 => some (.srai t x y c)
  | 0x1C => some (.lui t x u)
  | 0x1D => some (.pcadd t x u)
  | 0x1E => some (.jal t x u)
  | 0x1F => some (.ldpc t x u)
  | 0x20 => some (.ld8 t x y i)
  | 0x21 => some (.ld8u t x y i)
  | 0x22 => some (.ld16 t x y i)
  | 0x23 => some (.ld16u t x y i)
  | 0x24 => some (.ld32 t x y i)
  | 0x25 => some (.ld32u t x y i)
  | 0x26 => some (.ld64 t x y i)
  | 0x28 => some (.st8 t y x i)
  | 0x29 => some (.st16 t y x i)
  | 0x2A => some (.st32 t y x i)
  | 0x2B => some (.st64 t y x i)
  | 0x38 => some (.beq t y x i)
  | 0x39 => some (.bne t y x i)
  | 0x3A => some (.blt t y x i)
  | 0x3B => some (.bge t y x i)
  | 0x3C => some (.bltu t y x i)
  | 0x3D => some (.bgeu t y x i)
  | 0x3E => some (.jalr t x y i)
  | _ => none

/-- The instruction that the fetched words of a thread spell. -/
def instrOf (t : ThreadRef) (ws : List Nat) : Option Instr :=
  match ws with
  | [w] =>
    let fn := wFn w
    let d := regAt w 17
    let a := regAt w 22
    let b := regAt w 27
    match w % 256 with
    | 0x01 => intOf t fn d a b
    | 0x02 => fpOf t fn d a b
    | 0x2C => some (.stc t a b (Fin.ofNat 4 (fn / 128)) (Fin.ofNat 64 fn))
    | 0x30 => amoOf t fn d a b
    | 0x40 => controlOf t fn a b
    | 0x41 => some (.spawn t d a b (Fin.ofNat 29 fn))
    | 0x42 => selfOf t fn d
    | 0x48 => waitOf t fn d a b
    | 0x49 => some (.treadMark t a (Fin.ofNat 32 fn))
    | op => immOf t op w
  | [w, offset, notify, result] =>
    tensorOf (w % 256) (.issue t (regAt w 8) (BitVec.ofNat 32 offset) (BitVec.ofNat 8 notify) (BitVec.ofNat 32 result))
  | _ => none

end Sys2Proof.Machine
end

