-- ==== Sys2Proof/WellFormed.lean ====
section
/-!
DEFINITION. Well-formed commands: the operands that the spec's own layouts can give a command. A page, a block and a master
are ones that exist; every other bound is already a type of Syntax.
-/

namespace Sys2Proof

/-- R678: the register pages. -/
def Page.wf : Page → Bool
  | .pkg b => decide (b < 14)
  | .die d b => decide (d < 2) && decide (b < 11)
  | .cl d c b => decide (d < 2) && decide (c < 4) && decide (b < 4)
  | .core n b => decide (n < 40) && decide (b < 13)

/-- R547: the blocks of a package. -/
def Block.wf : Block → Bool
  | .pkg => true
  | .pcie => true
  | .tap => true
  | .die d => decide (d < 2)
  | .point d => decide (d < 2)
  | .cc d => decide (d < 2)
  | .cluster d c => decide (d < 2) && decide (c < 4)
  | .core n => decide (n < 40)
  | .eng n => decide (n < 40)

/-- R622: the masters. Only a domain carries UNIT; a request from the Gallery names its node (R492). -/
def Requester.wf (r : Requester) : Bool :=
  decide (r.mid < 20) && (!r.unit || decide (r.mid < 16)) &&
    (match r.node with
     | some n => decide (n < 1024) && decide (r.mid < 18)
     | none => true)

/-- An upset of memory, or a detector that some page reports (R587). -/
def Upset.wf : Upset → Bool
  | .stored _ _ => true
  | .report p det _ _ => p.wf && decide (det < 64)

/-- A tensor instruction that its unit runs; a PASS has no such form, since PASS_NEXT, PASS_LEDGER_ADMIT and PASS_ISSUE carry
it out (R236, R245). -/
def TensorOp.issued : TensorOp → Bool
  | .issue _ _ _ _ _ => true
  | .run _ _ => false

/-- The well-formed commands. -/
def WellFormed : Instr → Bool
  | .registerWrite rq _ width _ => rq.wf && decide (0 < width)
  | .rcRegisterRead rq _ width => rq.wf && decide (0 < width)
  | .loRegisterRead rq _ width => rq.wf && decide (0 < width)
  | .timeSecHiRead rq => rq.wf
  | .capHeadHiRead rq _ => rq.wf
  | .histSelWrite rq _ => rq.wf
  | .pageCommit rq p _ => rq.wf && p.wf
  | .commitTakeEffect p => p.wf
  | .set rq => rq.wf
  | .armPps rq => rq.wf
  | .egoWrWrite rq _ _ => rq.wf
  | .egoWrBothWrite rq _ => rq.wf
  | .replayWrWrite rq _ _ => rq.wf
  | .pass o => o.issued
  | .amoFadd _ _ _ _ f => !f.wide
  | .spareCmdGo rq _ _ => rq.wf
  | .msgPop rq => rq.wf
  | .ageCmdReplan rq => rq.wf
  | .swResetPulse rq _ _ => rq.wf
  | .swResetAssert rq _ _ => rq.wf
  | .swResetRelease rq _ _ => rq.wf
  | .stubAnswer rq _ _ => rq.wf
  | .blockRelease b => b.wf
  | .releaseDone b => b.wf
  | .bootDoneSet fw => fw.all (fun e => e.1.wf && decide (e.2.1 < 0x1000))
  | .bootCmdGo rq => rq.wf
  | .bootCmdRecoveryExit rq => rq.wf
  | .detectorEvent u => u.wf
  | .slotFenceWrite rq _ _ _ => rq.wf
  | .injectWrite rq p _ => rq.wf && p.wf
  | .ctxCmdFree rq _ => rq.wf
  | .ctxCmdKill rq _ => rq.wf
  | .ctrWrite rq _ _ _ => rq.wf
  | .quiesceReqWrite rq p _ => rq.wf && p.wf
  | .quoteCmdGo rq => rq.wf
  | .extendCmdGo rq _ => rq.wf
  | .debugEnSet rq => rq.wf
  | .slidingWindowAccess wr _ len data => decide (len = data.length ∨ (wr = false ∧ data = [])) && decide (0 < len)
  | .hostIrqSetWrite rq _ => rq.wf
  | .mbxNudge rq _ => rq.wf
  | .ethernetFrameReceive _ f => decide (0 < f.bytes.length)
  | .flitReceive _ flit => decide (flit.length = 256)
  | .marginSample _ slacks drifts => !slacks.isEmpty && !drifts.isEmpty
  | _ => true

end Sys2Proof
end

