-- ==== Sys2Proof/Safety.lean ====
section
/-!
DEFINITION. What the statements speak of: a command that completes, what a command leaves alone, instructions that issue,
memory within reach of an access, the canonical form of memory, and interrupt vectors that are settled.
-/

namespace Sys2Proof.Machine

/-! ### Completion and frames -/

/-- The command completes in a state of which `P` holds. -/
def Completes (o : Host.Outcome State Fault Refusal) (P : State → Prop) : Prop := ∃ t, o = .next t ∧ P t

/-- Nothing is changed but register pages, the answer to the sender, the interrupt vectors that follow from the registers, and
the mark of an injected error, which a command's end clears. -/
def OnlyRegisters (s u : State) : Prop := { u with reg := s.reg, ans := s.ans, msix := s.msix, err.inj := s.err.inj } = s

/-- Of the register pages, only the words at the BAR0 offsets `but` may differ. -/
def WordsBut (but : List Nat) (s u : State) : Prop :=
  (∀ p off, pageBase p + off ∉ but → rawWord u p off = rawWord s p off) ∧ { u.reg with regs := s.reg.regs } = s.reg

/-- Field `f` of a page counts `k` more, modulo its width. -/
def Counts (s u : State) (p : Page) (f : Fld) (k : Nat) : Prop := fget u p f = (fget s p f + k) % 2 ^ f.w

/-- Bit `b` of the page's INT_RAW is set. -/
def Raised (u : State) (p : Page) (b : Nat) : Prop := bit (rawWord u p 0x14) b = true

/-- Every byte of the part's memory outside `n` bytes from `a` reads as before. -/
def BytesBut (a n : Nat) (s u : State) : Prop := ∀ b, b < a ∨ a + n ≤ b → rdByte u b = rdByte s b

/-- Memory reads as before at every address. -/
def SameBytes (s u : State) : Prop := ∀ b, rdByte u b = rdByte s b

/-! ### Instructions of a thread -/

/-- The thread of this command is READY and issues it now: its words stand fetched in the thread's context, and the turn is the
thread's (R376). -/
def Issues (s : State) (i : Instr) : Prop :=
  ∃ t ws, threadOf i = some t ∧ wordsOf i = some ws ∧ mayIssue s t ws = true ∧ (cref s t).st = .ready

/-- TE_ISSUED of a slot. -/
def issueCount (s : State) (n : Nat) : Nat :=
  fget s (.core n 1) KB1.TE_ISSUED_LO + 2 ^ 32 * fget s (.core n 1) KB1.TE_ISSUED_HI

/-- The words that the issue of an instruction counts in. -/
def issueWords (n : Nat) : List Nat := [pageBase (.core n 1) + 0x48, pageBase (.core n 1) + 0x4C]

/-- What the issue of a scalar instruction leaves outside its thread's own context: one more instruction counted, the turn
taken, and everything else as it was. -/
def IssuedElsewhere (t : ThreadRef) (s u : State) : Prop :=
  (∀ q, q ≠ t → cref u q = cref s q) ∧
  (∀ n, n ≠ t.slot.val → coreAt u n = coreAt s n) ∧
  { coreAt u t.slot.val with lastIssued := (coreAt s t.slot.val).lastIssued } = coreAt s t.slot.val ∧
  issueCount u t.slot.val = (issueCount s t.slot.val + 1) % 2 ^ 64 ∧
  WordsBut (issueWords t.slot.val) s u ∧
  { u with ctx := s.ctx, core := s.core, reg := s.reg } = s

/-- Register `d` of a context holds `v`, every other register what it held; a write to s0 is lost (R368). -/
def Wrote (d : RegNum) (v : Reg64) (x y : Ctx) : Prop :=
  y.rget d.val = (if d = 0 then 0 else v) ∧ ∀ r, r ≠ d.val → y.rget r = x.rget r

/-- What a scalar instruction that computes one register leaves: register `d` holds `v`, the context goes on at `pc`, and
loads issued earlier into `d` will no longer write it (R417). -/
def Result (t : ThreadRef) (d : RegNum) (v : Reg64) (pc : Nat) (s u : State) : Prop :=
  Wrote d v (cref s t) (cref u t) ∧
  { cref u t with regs := (cref s t).regs } =
    { cref s t with pc := pc, ir := [], promoted := false, since := s.now,
                    loads := (cref s t).loads.map (fun l => if l.dst = d.val then { l with dst := 0 } else l) } ∧
  IssuedElsewhere t s u

/-- The address of the thread's next instruction (R410). -/
def nextPc (s : State) (t : ThreadRef) : Nat := ((cref s t).pc + 4) % 2 ^ 64

/-- Issued, the instruction completes with `v` in `d`. -/
def Computes (s : State) (t : ThreadRef) (d : RegNum) (i : Instr) (v : Reg64) : Prop :=
  Issues s i → Completes (exec i s) (Result t d v (nextPc s t) s)

/-- What a scalar instruction that writes no register leaves: its context as it stood, but for `f`. -/
def ContextOnly (t : ThreadRef) (f : Ctx → Ctx) (s u : State) : Prop :=
  cref u t = f { cref s t with ir := [], promoted := false, since := s.now } ∧ IssuedElsewhere t s u

/-! ### Memory within reach -/

/-- The local address of a transfer in DRAM or a scratchpad of the package. -/
def placeAt : Place → Option Nat
  | .dram d off => some (dramBase d + off)
  | .spm k off => some (spmBase k + off)
  | _ => none

/-- A transfer of `n` bytes at global address `g` by the thread or unit of slot `own` as `rq` lies in DRAM or a scratchpad that
is in service, the access tables allow it, and no scoreboard of another core holds it (R382, R404, R560, R625). -/
def Reaches (s : State) (rq : Requester) (own g n : Nat) (rd wr : Bool) : Prop :=
  inboundOk s rq = true ∧
    match locate s g n with
    | .dram d off => dramAllows s d off n rq rd wr = true ∧ outOfService s (.die d) = false ∧ dramTouchesFailed s d off n = false
    | .spm k off => spmAllows s k off n rq rd wr = true ∧ (own = k ∨ wr = false ∨ mustWait s k off n = false)
    | _ => False

/-! ### Whole-machine properties -/

/-- Memory in its canonical form: addresses rise strictly, and no entry holds the byte that an unlisted address reads as. -/
def Memory.wf (m : List Host.Cell) : Bool := SMap.canon 0#8 m

/-- R665, R666: the vectors have been sent for the conditions that hold, and a pending bit stands only while its vector's
condition holds. -/
def Settled (s : State) : Prop := s.msix.cond = vectorConditions s ∧ s.msix.pend &&& ~~~ s.msix.cond = 0#64

end Sys2Proof.Machine
end

