-- ==== Sys2Proof/Certificates/Slice0/Obligations.lean ====
section
/-!
DEFINITION. The statements for the provers: what every command does and leaves alone, what reset leaves, and what holds of the
whole block.
-/

open Sys2Proof Sys2Proof.Machine

/-! ### Scalar instructions -/

/-- R415, R416: integer arithmetic on 64-bit registers, results modulo 2^64, shift counts taken from SRC2[5:0]; division never
faults. R419: immediates, sign-extended for ADDI, SLTI and SLTIU and zero-extended for ANDI, ORI and XORI, shifts by IMM[5:0],
and the constants LUI and PCADD. -/
def Obligations.IntegersAndImmediatesWriteTheirResult : Prop :=
  (∀ (s : State) (t : ThreadRef) (d a b : RegNum),
     let x := (cref s t).rget a.val
     let y := (cref s t).rget b.val
     Computes s t d (.add t d a b) (x + y) ∧
     Computes s t d (.sub t d a b) (x - y) ∧
     Computes s t d (.and t d a b) (x &&& y) ∧
     Computes s t d (.or t d a b) (x ||| y) ∧
     Computes s t d (.xor t d a b) (x ^^^ y) ∧
     Computes s t d (.sll t d a b) (x <<< (y.toNat % 64)) ∧
     Computes s t d (.srl t d a b) (x >>> (y.toNat % 64)) ∧
     Computes s t d (.sra t d a b) (BitVec.ofInt 64 (x.toInt / 2 ^ (y.toNat % 64))) ∧
     Computes s t d (.slt t d a b) (if x.toInt < y.toInt then 1 else 0) ∧
     Computes s t d (.sltu t d a b) (if x.toNat < y.toNat then 1 else 0) ∧
     Computes s t d (.min t d a b) (BitVec.ofInt 64 (min x.toInt y.toInt)) ∧
     Computes s t d (.max t d a b) (BitVec.ofInt 64 (max x.toInt y.toInt)) ∧
     Computes s t d (.minu t d a b) (BitVec.ofNat 64 (min x.toNat y.toNat)) ∧
     Computes s t d (.maxu t d a b) (BitVec.ofNat 64 (max x.toNat y.toNat)) ∧
     Computes s t d (.mul t d a b) (BitVec.ofNat 64 (x.toNat * y.toNat)) ∧
     Computes s t d (.mulh t d a b) (BitVec.ofInt 64 (x.toInt * y.toInt / 2 ^ 64)) ∧
     Computes s t d (.mulhu t d a b) (BitVec.ofNat 64 (x.toNat * y.toNat / 2 ^ 64)) ∧
     Computes s t d (.div t d a b) (if y = 0 then -1 else BitVec.ofInt 64 (x.toInt.tdiv y.toInt)) ∧
     Computes s t d (.divu t d a b) (if y = 0 then -1 else BitVec.ofNat 64 (x.toNat / y.toNat)) ∧
     Computes s t d (.rem t d a b) (if y = 0 then x else BitVec.ofInt 64 (x.toInt.tmod y.toInt)) ∧
     Computes s t d (.remu t d a b) (if y = 0 then x else BitVec.ofNat 64 (x.toNat % y.toNat)) ∧
     (x = BitVec.intMin 64 ∧ y = -1 →
       Computes s t d (.div t d a b) (BitVec.intMin 64) ∧ Computes s t d (.rem t d a b) 0)) ∧
  (∀ (s : State) (t : ThreadRef) (d a : RegNum) (i : BitVec 14) (n : BitVec 6) (u : BitVec 19),
     let x := (cref s t).rget a.val
     Computes s t d (.addi t d a i) (x + BitVec.ofInt 64 i.toInt) ∧
     Computes s t d (.andi t d a i) (x &&& BitVec.ofNat 64 i.toNat) ∧
     Computes s t d (.ori t d a i) (x ||| BitVec.ofNat 64 i.toNat) ∧
     Computes s t d (.xori t d a i) (x ^^^ BitVec.ofNat 64 i.toNat) ∧
     Computes s t d (.slti t d a i) (if x.toInt < i.toInt then 1 else 0) ∧
     Computes s t d (.sltiu t d a i) (if x.toNat < (BitVec.ofInt 64 i.toInt).toNat then 1 else 0) ∧
     Computes s t d (.slli t d a n) (x <<< n.toNat) ∧
     Computes s t d (.srli t d a n) (x >>> n.toNat) ∧
     Computes s t d (.srai t d a n) (BitVec.ofInt 64 (x.toInt / 2 ^ n.toNat)) ∧
     Computes s t d (.lui t d u) (BitVec.ofInt 64 (u.toInt * 2 ^ 14)) ∧
     Computes s t d (.pcadd t d u) (BitVec.ofInt 64 (((cref s t).pc : Int) + u.toInt * 2 ^ 14)))

/-- The address 4 × `imm` bytes on from the thread's instruction. -/
def pcPlus (s : State) (t : ThreadRef) (imm : Int) : Nat := (BitVec.ofInt 64 (((cref s t).pc : Int) + 4 * imm)).toNat

/-- A branch that issues goes to its target where its condition holds and to the next instruction where it does not; it
changes nothing else of its context. -/
def Branches (s : State) (t : ThreadRef) (imm : BitVec 14) (i : Instr) (c : Prop) : Prop :=
  Issues s i →
    (c → Completes (exec i s) (ContextOnly t (fun x => { x with pc := pcPlus s t imm.toInt }) s)) ∧
    (¬ c → Completes (exec i s) (ContextOnly t (fun x => { x with pc := nextPc s t }) s))

/-- R423: the branches and the jumps, the link being the address of the next instruction; a JALR whose target is no multiple
of 4 faults at itself with FAULT_ALIGN, and links nothing (R413). -/
def Obligations.BranchesAndJumpsGoWhereTheySay : Prop :=
  ∀ (s : State) (t : ThreadRef) (d a b : RegNum) (i : BitVec 14) (u : BitVec 19),
    let x := (cref s t).rget a.val
    let y := (cref s t).rget b.val
    let link := BitVec.ofNat 64 ((cref s t).pc + 4)
    let to_ := (x + BitVec.ofInt 64 i.toInt).toNat
    Branches s t i (.beq t a b i) (x = y) ∧
    Branches s t i (.bne t a b i) (x ≠ y) ∧
    Branches s t i (.blt t a b i) (x.toInt < y.toInt) ∧
    Branches s t i (.bge t a b i) (y.toInt ≤ x.toInt) ∧
    Branches s t i (.bltu t a b i) (x.toNat < y.toNat) ∧
    Branches s t i (.bgeu t a b i) (y.toNat ≤ x.toNat) ∧
    (Issues s (.jal t d u) → Completes (exec (.jal t d u) s) (Result t d link (pcPlus s t u.toInt) s)) ∧
    (Issues s (.jalr t d a i) → to_ % 4 = 0 → Completes (exec (.jalr t d a i) s) (Result t d link to_ s)) ∧
    (Issues s (.jalr t d a i) → to_ % 4 ≠ 0 → Completes (exec (.jalr t d a i) s) (fun v =>
      (cref v t).st = .faulted ∧ (cref v t).fault = fAlign ∧ (cref v t).pc = (cref s t).pc ∧ (cref v t).regs = (cref s t).regs ∧
      rawWord v (.core t.slot.val 1) 0x60 = fAlign * 2 ^ 24 + t.ctx.val ∧
      rawWord v (.core t.slot.val 1) 0x64 = (cref s t).pc % 2 ^ 32 ∧
      rawWord v (.core t.slot.val 1) 0x68 = (cref s t).pc / 2 ^ 32 % 2 ^ 26 ∧
      (∀ q, q ≠ t → cref v q = cref s q) ∧ SameBytes s v))

/-- R418: FP32 arithmetic on bits [31:0] of the sources; an FP32 result is written zero-extended, a comparison as 0 or 1, and
FCVT_FI as a signed INT32. What the FP32 operations themselves give is another statement's. R426: SELF writes the value that
its selector names. -/
def Obligations.Fp32AndSelfWriteTheirResult : Prop :=
  (∀ (s : State) (t : ThreadRef) (d a b : RegNum),
     let x := ((cref s t).rget a.val).toNat % 2 ^ 32
     let y := ((cref s t).rget b.val).toNat % 2 ^ 32
     Computes s t d (.fadd t d a b) (BitVec.ofNat 64 (f32add x y)) ∧
     Computes s t d (.fsub t d a b) (BitVec.ofNat 64 (f32sub x y)) ∧
     Computes s t d (.fmul t d a b) (BitVec.ofNat 64 (f32mul x y)) ∧
     Computes s t d (.fmin t d a b) (BitVec.ofNat 64 (f32min x y)) ∧
     Computes s t d (.fmax t d a b) (BitVec.ofNat 64 (f32max x y)) ∧
     Computes s t d (.feq t d a b) (if f32eq x y then 1 else 0) ∧
     Computes s t d (.flt t d a b) (if f32lt x y then 1 else 0) ∧
     Computes s t d (.fle t d a b) (if f32le x y then 1 else 0) ∧
     Computes s t d (.fcvtFi t d a) (BitVec.ofInt 64 (Fv.toIntSat .nearest (-2147483648) 2147483647 (f32v x))) ∧
     Computes s t d (.fcvtIf t d a) (BitVec.ofNat 64 (f32ofInt ((cref s t).rget a.val).toInt))) ∧
  (∀ (s : State) (t : ThreadRef) (d : RegNum),
     let logical := (slotLogical s t.slot.val).getD 0
     Computes s t d (.selfThreadId t d) (BitVec.ofNat 64 (logical * 2048 + t.ctx.val)) ∧
     Computes s t d (.selfNodeId t d) (BitVec.ofNat 64 (ownNode s)) ∧
     Computes s t d (.selfLogicalCore t d) (BitVec.ofNat 64 logical) ∧
     Computes s t d (.selfContext t d) (BitVec.ofNat 64 t.ctx.val) ∧
     Computes s t d (.selfDomain t d) (BitVec.ofNat 64 (cref s t).domain) ∧
     Computes s t d (.selfClass t d) (BitVec.ofNat 64 (cref s t).cls) ∧
     Computes s t d (.selfDeviceTime t d) (BitVec.ofNat 64 (s.tb.dev / 2 ^ 32)) ∧
     Computes s t d (.selfFrameNo t d) (BitVec.ofNat 64 (frameNo s)))

/-! ### Loads, stores and atomics -/

/-- The offsets of the words of a page. -/
def pageWords (p : Page) : List Nat := (List.range 0x1000).map (fun i => pageBase p + i)

/-- The words that count in a transfer to or from a place: those of page B8 of a scratchpad's core. -/
def placeWords : Place → List Nat
  | .spm k _ => pageWords (.core k 8)
  | _ => []

/-- No bit error is stored under a transfer, and none is to be injected there. -/
def Clean (s : State) (n : Nat) : Place → Prop
  | .dram d off =>
    eccIn s ((dramBase d + off) / 32 * 32) (dramBase d + off + n) = [] ∧ fget s (.die d 5) HDR.INJECT_COUNT = 0
  | .spm k off =>
    eccIn s ((spmBase k + off) / 128 * 128) ((spmBase k + off + n + 127) / 128 * 128) = [] ∧
      fget s (.core k 8) HDR.INJECT_COUNT = 0
  | _ => False

/-- Nothing of the thread's own that comes before an access to `n` bytes at `g` holds it: the scoreboard of its core (R403), an
access of the thread on its way to another node, or a load of the thread that shares a byte (R387). -/
def Unheld (s : State) (t : ThreadRef) (a : Access) : Prop :=
  accessHeld s t.slot.val a = false ∧ farOverlap s t.slot.val t.ctx.val a.at_ a.len = false ∧
    ∀ l ∈ (cref s t).loads, overlaps l.addr l.size a.at_ a.len = false

/-- The loads of a context once one more is outstanding: earlier ones into the same register no longer write it (R417). -/
def loadsWith (x : Ctx) (l : Load) : List Load :=
  x.loads.map (fun m => if m.dst = l.dst then { m with dst := 0 } else m) ++ [l]

/-- A load of `n` bytes at `g` into `d` that issues becomes outstanding; no register and no byte changes until it completes. -/
def LoadIssues (s : State) (t : ThreadRef) (d : RegNum) (n : Nat) (signed : Bool) (g : Nat) (i : Instr) : Prop :=
  let r := issued s t
  Issues s i → loadsOut (cref s t) < 8 → g % n = 0 → Reaches r (cref s t).rq t.slot.val g n true false →
  accessHeld r t.slot.val (.load d.val n signed g) = false → farOverlap r t.slot.val t.ctx.val g n = false →
  Completes (exec i s) (fun u =>
    cref u t = { cref s t with st := .ready, hold := .none, pc := nextPc s t, ir := [], promoted := false, since := s.now,
                               loads := loadsWith (cref s t) ⟨d.val, n, signed, g, (cref s t).pc, none, none, false, false⟩ } ∧
    IssuedElsewhere t s { u with msix := s.msix, err.inj := s.err.inj } ∧ SameBytes s u)

/-- SRC1 + IMM, the immediate sign-extended (R420). -/
def effAddr (s : State) (t : ThreadRef) (a : RegNum) (i : BitVec 14) : Nat :=
  ((cref s t).rget a.val + BitVec.ofInt 64 i.toInt).toNat

/-- The value that a load of `n` bytes delivers for the number `v` it has read (R420). -/
def extended (signed : Bool) (n v : Nat) : Reg64 := if signed then BitVec.ofInt 64 (sext (8 * n) v) else BitVec.ofNat 64 v

/-- R384, R420, R419: the loads issue, with their widths and extensions and SRC1 + IMM, or PC + 4 × IMM for LDPC, as address.
R384, R420: LOAD_COMPLETE delivers to the destination the bytes at the load's address, extended as the load says, or the value
that the load was performed with before; the load is outstanding no longer, and no other register and no byte of memory
changes. A load to s0 is lost (R368). -/
def Obligations.LoadsBecomeOutstandingAndDeliver : Prop :=
  (∀ (s : State) (t : ThreadRef) (d a : RegNum) (i : BitVec 14) (u : BitVec 19),
     let g := effAddr s t a i
     LoadIssues s t d 1 true g (.ld8 t d a i) ∧ LoadIssues s t d 1 false g (.ld8u t d a i) ∧
     LoadIssues s t d 2 true g (.ld16 t d a i) ∧ LoadIssues s t d 2 false g (.ld16u t d a i) ∧
     LoadIssues s t d 4 true g (.ld32 t d a i) ∧ LoadIssues s t d 4 false g (.ld32u t d a i) ∧
     LoadIssues s t d 8 false g (.ld64 t d a i) ∧ LoadIssues s t d 8 false (pcPlus s t u.toInt) (.ldpc t d u)) ∧
  (∀ (s : State) (t : ThreadRef) (i : Nat) (l : Load) (v : Nat),
     (cref s t).loads[i]? = some l → outOfService s (.core t.slot.val) = false →
     (l.value = some v ∨
       (l.value = none ∧ l.tag = none ∧ heldOverlap s t.slot.val t.ctx.val l.addr l.size = false ∧
         Reaches s (cref s t).rq t.slot.val l.addr l.size true false ∧ Clean s l.size (locate s l.addr l.size) ∧
         ∃ lo, placeAt (locate s l.addr l.size) = some lo ∧ v = rdN s lo l.size)) →
     Completes (exec (.loadComplete t i) s) (fun u =>
       (cref u t).rget l.dst = (if l.dst = 0 then 0 else extended l.signed l.size v) ∧
       (∀ r, r ≠ l.dst → (cref u t).rget r = (cref s t).rget r) ∧
       (cref u t).loads = (cref s t).loads.eraseIdx i ∧ (cref u t).pc = (cref s t).pc ∧
       (∀ q, q ≠ t → cref u q = cref s q) ∧ SameBytes s u ∧ WordsBut (placeWords (locate s l.addr l.size)) s u ∧
       { u with ctx := s.ctx, reg := s.reg, msix := s.msix, err.inj := s.err.inj } = s))

/-- What a write of the low `n` bytes of `v` at the place of `g` leaves: those bytes, every other byte as it was, and the words
of the target's page that count it. -/
def Writes (r : State) (g n v : Nat) (s u : State) : Prop :=
  ∀ lo, placeAt (locate r g n) = some lo → rdN u lo n = v % 2 ^ (8 * n) ∧ BytesBut lo n s u

/-- A store of the low `n` bytes of `v` at `g` that issues is performed at once where nothing holds it. -/
def StoreIssues (s : State) (t : ThreadRef) (n g v : Nat) (i : Instr) : Prop :=
  let r := issued s t
  Issues s i → g % n = 0 → Reaches r (cref s t).rq t.slot.val g n false true → Unheld r t (.store n g v none) →
  Completes (exec i s) (fun u =>
    Writes r g n v s u ∧
    cref u t = { cref s t with st := .ready, hold := .none, pc := nextPc s t, ir := [], promoted := false, since := s.now } ∧
    (∀ q, q ≠ t → cref u q = cref s q) ∧
    WordsBut (issueWords t.slot.val ++ placeWords (locate r g n)) s u ∧
    { u with ctx := s.ctx, core := s.core, mem := s.mem, ecc := s.ecc, reg := s.reg, msix := s.msix, err.inj := s.err.inj } = s)

/-- An atomic on the `n` bytes at the address in SRC1 that issues writes `f old` there in one step and becomes outstanding with
the old value, which its completion delivers. -/
def AtomicIssues (s : State) (t : ThreadRef) (d a b : RegNum) (fl : AmoFlags) (op : AmoOp) (i : Instr) (f : Nat → Nat) : Prop :=
  let r := issued s t
  let n := if fl.wide then 8 else 4
  let g := ((cref s t).rget a.val).toNat
  ∀ lo, placeAt (locate r g n) = some lo → Issues s i → (fl.rel = true → releaseReady (cref s t) = true) → g % n = 0 →
    Reaches r (cref s t).rq t.slot.val g n true true → Clean r n (locate r g n) → heldOverlap r t.slot.val t.ctx.val g n = false →
    Unheld r t (.amo op d.val n g ((cref s t).rget b.val).toNat ((cref s t).rget d.val).toNat fl.acq) →
    Completes (exec i s) (fun u =>
      rdN u lo n = f (rdN s lo n) % 2 ^ (8 * n) ∧ BytesBut lo n s u ∧
      cref u t = { cref s t with st := .ready, hold := .none, pc := nextPc s t, ir := [], promoted := false, since := s.now,
                                 loads := loadsWith (cref s t) ⟨d.val, n, false, g, (cref s t).pc, some (rdN s lo n), none, true, fl.acq⟩ } ∧
      (∀ q, q ≠ t → cref u q = cref s q) ∧
      WordsBut (issueWords t.slot.val ++ placeWords (locate r g n)) s u ∧
      { u with ctx := s.ctx, core := s.core, mem := s.mem, ecc := s.ecc, reg := s.reg, msix := s.msix, err.inj := s.err.inj } = s)

/-- R420, R421: the stores write the low bytes of SRC2 at SRC1 + IMM; a counted store writes at SRC1 and then adds 1 to the
counter it names of the core whose scratchpad holds the target. R390, R422: what each atomic writes, `x` being the operand and
the old word `o` both of the atomic's width. -/
def Obligations.StoresAndAtomicsUpdateMemory : Prop :=
  (∀ (s : State) (t : ThreadRef) (a b : RegNum) (i : BitVec 14) (w : Fin 4) (c : Fin 64),
     let g := effAddr s t a i
     let v := ((cref s t).rget b.val).toNat
     let h := ((cref s t).rget a.val).toNat
     let r := issued s t
     let n := 2 ^ w.val
     StoreIssues s t 1 g v (.st8 t a b i) ∧ StoreIssues s t 2 g v (.st16 t a b i) ∧
     StoreIssues s t 4 g v (.st32 t a b i) ∧ StoreIssues s t 8 g v (.st64 t a b i) ∧
     ∀ k off, locate r h n = .spm k off → Issues s (.stc t a b w c) → h % n = 0 →
       Reaches r (cref s t).rq t.slot.val h n false true → Unheld r t (.store n h v (some c.val)) →
       Completes (exec (.stc t a b w c) s) (fun u =>
         Writes r h n v s u ∧
         fget u (.core k 1) (KB1.CTR c.val) = (fget s (.core k 1) (KB1.CTR c.val) + 1) % 2 ^ 32 ∧
         cref u t = { cref s t with st := .ready, hold := .none, pc := nextPc s t, ir := [], promoted := false, since := s.now } ∧
         (∀ q, q ≠ t → cref u q = cref s q) ∧
         WordsBut (issueWords t.slot.val ++ pageWords (.core k 8) ++ [pageBase (.core k 1) + 0x100 + 4 * c.val]) s u)) ∧
  (∀ (s : State) (t : ThreadRef) (d a b : RegNum) (fl : AmoFlags),
     let w := if fl.wide then 64 else 32
     let x := ((cref s t).rget b.val).toNat % 2 ^ w
     let c := ((cref s t).rget d.val).toNat % 2 ^ w
     AtomicIssues s t d a b fl .add (.amoAdd t d a b fl) (fun o => (o + x) % 2 ^ w) ∧
     AtomicIssues s t d a b fl .min (.amoMin t d a b fl) (fun o => if sext w x < sext w o then x else o) ∧
     AtomicIssues s t d a b fl .max (.amoMax t d a b fl) (fun o => if sext w o < sext w x then x else o) ∧
     AtomicIssues s t d a b fl .minu (.amoMinu t d a b fl) (fun o => min o x) ∧
     AtomicIssues s t d a b fl .maxu (.amoMaxu t d a b fl) (fun o => max o x) ∧
     AtomicIssues s t d a b fl .cas (.amoCas t d a b fl) (fun o => if o = c then x else o) ∧
     (fl.wide = false → AtomicIssues s t d a b fl .fadd (.amoFadd t d a b fl) (fun o => f32add o x)))

/-- R403: a BLOCKED store that nothing holds any more is performed as it would have been at issue; R404: so is a write held at
a scratchpad that no entered range and no earlier held write holds, and the counter it names counts it. R382, R412, R413, R384:
an access whose address is no multiple of its width faults with FAULT_ALIGN and has no effect; a ninth load leaves its thread
BLOCKED, its instruction still to issue. -/
def Obligations.AccessesAreCheckedHeldAndReleased : Prop :=
  ((∀ (s : State) (t : ThreadRef) (n g v : Nat),
     (cref s t).st = .blocked → (cref s t).hold = .access (.store n g v none) → outOfService s (.core t.slot.val) = false →
     Reaches s (cref s t).rq t.slot.val g n false true → Unheld s t (.store n g v none) →
     Completes (exec (.scalarAccessRelease t) s) (fun u =>
       Writes s g n v s u ∧
       cref u t = { cref s t with st := .ready, hold := .none, pc := nextPc s t, since := s.now } ∧
       (∀ q, q ≠ t → cref u q = cref s q) ∧ WordsBut (placeWords (locate s g n)) s u)) ∧
   (∀ (s : State) (n : Fin 40) (i : Nat) (w : Inbound),
     (coreAt s n.val).inbound[i]? = some w → i < 64 → outOfService s (.core n.val) = false →
     lineEntered s n.val w.off w.data.length = false →
     (∀ v ∈ (coreAt s n.val).inbound.take i,
       (⟨v.off / 128, linesOf v.off v.data.length, false, true, false⟩ : Range).meets w.off w.data.length = false) →
     (∀ p, w.reply = some p → p.1 ≠ ownNode s) →
     Completes (exec (.inboundWriteRelease n i) s) (fun u =>
       rdBytes u (spmBase n.val + w.off) w.data.length = w.data.map (· % 256) ∧
       BytesBut (spmBase n.val + w.off) w.data.length s u ∧
       (coreAt u n.val).inbound = (coreAt s n.val).inbound.eraseIdx i ∧
       ∀ c, w.ctr = some c → c < 64 → fget u (.core n.val 1) (KB1.CTR c) = (fget s (.core n.val 1) (KB1.CTR c) + 1) % 2 ^ 32))) ∧
  (∀ (s : State) (t : ThreadRef) (d a b : RegNum) (i : BitVec 14),
     let g := effAddr s t a i
     (∀ j, (j = .ld16 t d a i ∨ j = .st16 t a b i) → Issues s j → g % 2 ≠ 0 → loadsOut (cref s t) < 8 →
       Completes (exec j s) (fun u => (cref u t).st = .faulted ∧ (cref u t).fault = fAlign ∧ (cref u t).pc = (cref s t).pc ∧
         (cref u t).regs = (cref s t).regs ∧ (cref u t).loads = (cref s t).loads ∧ SameBytes s u)) ∧
     (∀ j, (j = .ld64 t d a i ∨ j = .ld32u t d a i) → Issues s j → 8 ≤ loadsOut (cref s t) →
       Completes (exec j s) (fun u => cref u t = { cref s t with st := .blocked, hold := .loads } ∧
         { u with ctx := s.ctx } = s)))

/-! ### Fetch, fences, thread control -/

/-- The context ends in a fault of this code at `pc`, as R413 says: it is FAULTED, nothing else of it but its hold changes, and
LAST_FAULT and LAST_FAULT_PC of its core record the fault. -/
def FaultsAt (t : ThreadRef) (code pc : Nat) (s u : State) : Prop :=
  (cref u t).st = .faulted ∧ (cref u t).fault = code ∧ (cref u t).pc = pc ∧ (cref u t).regs = (cref s t).regs ∧
  rawWord u (.core t.slot.val 1) 0x60 = code * 2 ^ 24 + t.ctx.val ∧
  rawWord u (.core t.slot.val 1) 0x64 = pc % 2 ^ 32 ∧ rawWord u (.core t.slot.val 1) 0x68 = pc / 2 ^ 32 % 2 ^ 26 ∧
  ∀ q, q ≠ t → cref u q = cref s q

/-- What a FENCE waits for (R389). -/
def FenceClear (m : FenceMode) (x : Ctx) : Prop :=
  (∀ l ∈ x.loads, l.value.isSome = true) ∧ (m ≠ .acq → x.stores = 0 ∧ x.unretired = 0)

/-- A FENCE of mode `m`: with nothing earlier outstanding it completes at once, else its thread is WAITING. -/
def Fences (s : State) (t : ThreadRef) (m : FenceMode) (i : Instr) : Prop :=
  Issues s i →
    (FenceClear m (cref s t) → Completes (exec i s) (ContextOnly t (fun x => { x with pc := nextPc s t }) s)) ∧
    (¬ FenceClear m (cref s t) → Completes (exec i s) (ContextOnly t (fun x => { x with st := .waiting, hold := .fence m }) s))

/-- R389, R424: the three FENCE modes and their completion; R385: IFENCE, once the thread's earlier stores are performed,
empties its core's instruction cache. -/
def Obligations.FencesHoldTheirThreads : Prop :=
  ∀ (s : State) (t : ThreadRef),
    Fences s t .acq (.fenceAcq t) ∧ Fences s t .rel (.fenceRel t) ∧ Fences s t .full (.fenceFull t) ∧
    (∀ m, (cref s t).hold = .fence m → FenceClear m (cref s t) → Completes (exec (.fenceComplete t) s) (fun u =>
      cref u t = { cref s t with st := .ready, hold := .none, since := s.now, pc := nextPc s t } ∧
      (∀ q, q ≠ t → cref u q = cref s q) ∧ { u with ctx := s.ctx } = s)) ∧
    (∀ m, (cref s t).hold = .fence m → ¬ FenceClear m (cref s t) → exec (.fenceComplete t) s = .next s) ∧
    (Issues s (.ifence t) → (cref s t).stores = 0 → Completes (exec (.ifence t) s) (fun u =>
      (coreAt u t.slot.val).icache = [] ∧
      cref u t = { cref s t with ir := [], promoted := false, since := s.now, pc := nextPc s t } ∧
      (∀ q, q ≠ t → cref u q = cref s q) ∧ (∀ n, n ≠ t.slot.val → coreAt u n = coreAt s n) ∧
      WordsBut (issueWords t.slot.val) s u ∧ { u with ctx := s.ctx, core := s.core, reg := s.reg } = s)) ∧
    (Issues s (.ifence t) → (cref s t).stores ≠ 0 → Completes (exec (.ifence t) s) (fun u =>
      (cref u t).st = .waiting ∧ coreAt u t.slot.val = coreAt s t.slot.val ∧ (cref u t).ir = (cref s t).ir))

/-- The control word of SPAWN (R425). -/
def spawnWord (core : Nat) (self : Bool) (cls ctr : Nat) (counted : Bool) : Nat :=
  core + 32 * b2n self + 2 ^ 8 * cls + 2 ^ 16 * ctr + 2 ^ 22 * b2n counted

/-- R374, R394, R424: EXIT leaves its context EXITING, and once everything it issued has retired or is performed CONTEXT_FREE
makes it FREE and adds 1 to the counter named at its spawn. ARRIVE adds its signed amount to a counter of a core of the package
in service once everything earlier of the thread is performed and retired. R371 to R373, R425: SPAWN starts the lowest FREE
context of the slot `k` that serves its target, READY at the entry PC with the arguments in s1 to s4, the parent's thread ID in
s5 and zero in every other register, and gives the child's thread ID; with no FREE context or no such core it gives a status
with bit 63 set and starts nothing; a class below the parent's faults. -/
def Obligations.ThreadsStartExitAndArrive : Prop :=
  ((∀ (s : State) (t : ThreadRef), Issues s (.exit t) →
     Completes (exec (.exit t) s) (ContextOnly t (fun x => { x with st := .exiting }) s)) ∧
   (∀ (s : State) (t : ThreadRef), (cref s t).st = .exiting → (cref s t).unretired = 0 → (cref s t).stores = 0 →
     (∀ l ∈ (cref s t).loads, l.amo = false ∨ l.value.isSome = true) → outOfService s (.core t.slot.val) = false →
     Completes (exec (.contextFree t) s) (fun u =>
       (cref u t).st = .free ∧ (∀ q, q ≠ t → cref u q = cref s q) ∧ SameBytes s u ∧
       ∀ core n k, (cref s t).spawnCtr = some (core, n) → n < 64 → coreInService s core = some k →
         fget u (.core k 1) (KB1.CTR n) = (fget s (.core k 1) (KB1.CTR n) + 1) % 2 ^ 32)) ∧
   (∀ (s : State) (t : ThreadRef) (a b : RegNum) (core n k : Nat),
     core < 32 → n < 64 → (cref s t).rget a.val = BitVec.ofNat 64 (ownNode s * 2 ^ 48 + core * 2 ^ 6 + n) → ownNode s < 1024 →
     Issues s (.arrive t a b) → (FenceClear .rel (cref s t)) → coreInService s core = some k →
     Completes (exec (.arrive t a b) s) (fun u =>
       fget u (.core k 1) (KB1.CTR n) = (fget s (.core k 1) (KB1.CTR n) + ((cref s t).rget b.val).toNat) % 2 ^ 32 ∧
       cref u t = { cref s t with ir := [], promoted := false, since := s.now, pc := nextPc s t } ∧
       (∀ q, q ≠ t → cref u q = cref s q) ∧
       WordsBut (issueWords t.slot.val ++ [pageBase (.core k 1) + 0x100 + 4 * n]) s u ∧ SameBytes s u)) ∧
   (∀ (s : State) (t : ThreadRef) (a b : RegNum) (core n : Nat),
     core < 32 → n < 64 → (cref s t).rget a.val = BitVec.ofNat 64 (ownNode s * 2 ^ 48 + core * 2 ^ 6 + n) → ownNode s < 1024 →
     Issues s (.arrive t a b) → FenceClear .rel (cref s t) → coreInService s core = none →
     Completes (exec (.arrive t a b) s) (fun u => FaultsAt t fTargetReset (cref s t).pc s u ∧ SameBytes s u))) ∧
  (∀ (s : State) (t : ThreadRef) (d a b : RegNum) (f : Fin 29) (core cls ctr pc : Nat) (self counted : Bool),
     core < 32 → cls < 4 → ctr < 64 → (self = true → core = 0) →
     (cref s t).rget b.val = BitVec.ofNat 64 (spawnWord core self cls ctr counted) →
     (cref s t).rget a.val = BitVec.ofNat 64 pc → pc < 2 ^ 64 → pc % 4 = 0 → Issues s (.spawn t d a b f) →
     let target := if self then some t.slot.val else coreInService s core
     (cls < (cref s t).cls →
       Completes (exec (.spawn t d a b f) s) (fun u => FaultsAt t fDomain (cref s t).pc s u ∧ SameBytes s u)) ∧
     ((cref s t).cls ≤ cls → target = none → Completes (exec (.spawn t d a b f) s) (fun u =>
       Wrote d (BitVec.ofNat 64 (2 ^ 63 + 2)) (cref s t) (cref u t) ∧ (∀ q, q ≠ t → cref u q = cref s q))) ∧
     (∀ k, (cref s t).cls ≤ cls → target = some k → k < 40 → (∀ c : Fin 2048, (ctxAt s k c.val).st ≠ .free) →
       Completes (exec (.spawn t d a b f) s) (fun u =>
         Wrote d (BitVec.ofNat 64 (2 ^ 63 + 1)) (cref s t) (cref u t) ∧ (∀ q, q ≠ t → cref u q = cref s q))) ∧
     (∀ (k : Fin 40) (c : Fin 2048), (cref s t).cls ≤ cls → target = some k.val → (ctxAt s k.val c.val).st = .free →
       (∀ e : Fin 2048, e.val < c.val → (ctxAt s k.val e.val).st ≠ .free) →
       Completes (exec (.spawn t d a b f) s) (fun u =>
         let x := ctxAt u k.val c.val
         Wrote d (BitVec.ofNat 64 (threadId s k.val c.val)) (cref s t) (cref u t) ∧ (cref u t).pc = nextPc s t ∧
         x.st = .ready ∧ x.pc = pc ∧ x.cls = cls ∧ x.domain = (cref s t).domain ∧
         (∀ j : Fin 4, x.rget (1 + j.val) = (cref s t).rget (f.val + j.val)) ∧
         x.rget 5 = BitVec.ofNat 64 (threadId s t.slot.val t.ctx.val) ∧ (∀ r, 5 < r → x.rget r = 0) ∧
         x.spawnCtr = (if counted then some ((slotLogical s t.slot.val).getD 0, ctr) else none) ∧
         (∀ q, q ≠ t → q ≠ ⟨k, c⟩ → cref u q = cref s q) ∧ SameBytes s u)))

/-! ### Waits and marks -/

/-- The status that a wait completes with at once, if it does: on its condition, else TIMEOUT where its deadline is past
(R379, R380). -/
def statusNow (s : State) (slot : Nat) (k : WaitKind) (deadline : Nat) : Option Nat :=
  match waitStatus s slot k with
  | some v => some v
  | none => if pastDeadline s deadline then some 3 else none

/-- A wait on `k` that issues gives its status at once or holds its thread WAITING. -/
def WaitIssues (s : State) (t : ThreadRef) (d b : RegNum) (k : WaitKind) (i : Instr) : Prop :=
  let deadline := ((cref s t).rget b.val).toNat
  Issues s i →
    (∀ v, statusNow s t.slot.val k deadline = some v →
      Completes (exec i s) (Result t d (BitVec.ofNat 64 v) (nextPc s t) s)) ∧
    (statusNow s t.slot.val k deadline = none →
      Completes (exec i s) (ContextOnly t (fun x => { x with st := .waiting, hold := .wait k deadline d.val }) s))

/-- What the completion of a wait with status `v` leaves: DST written, the thread READY after the instruction, nothing else. -/
def WaitEnds (t : ThreadRef) (dst v : Nat) (s u : State) : Prop :=
  (cref u t).rget dst = (if dst = 0 then 0 else BitVec.ofNat 64 v) ∧ (∀ r, r ≠ dst → (cref u t).rget r = (cref s t).rget r) ∧
  (cref u t).st = .ready ∧ (cref u t).hold = .none ∧ (cref u t).pc = nextPc s t ∧ (∀ q, q ≠ t → cref u q = cref s q) ∧
  { u with ctx := s.ctx } = s

/-- R379, R380, R427: the waits on treads, landings, device time and arrival counters, with what their SRC1 names. R379, R380,
R330: a pending wait completes with the status of its condition, or, where the deadline comes first, with TIMEOUT; before
either it goes on waiting. -/
def Obligations.WaitsHoldAndComplete : Prop :=
  (∀ (s : State) (t : ThreadRef) (d a b : RegNum) (n : Fin 64) (f k v : Nat), f < 2 ^ 32 → k < 2 ^ 8 → v < 2 ^ 64 →
     ((cref s t).rget a.val = BitVec.ofNat 64 (f + 2 ^ 32 * k) → WaitIssues s t d b (.tread f k) (.waitTread t d a b)) ∧
     ((cref s t).rget a.val = BitVec.ofNat 64 f → WaitIssues s t d b (.landing f) (.waitLanding t d a b)) ∧
     ((cref s t).rget a.val = BitVec.ofNat 64 v → WaitIssues s t d b (.time v) (.waitTime t d a b)) ∧
     ((cref s t).rget a.val = BitVec.ofNat 64 f → WaitIssues s t d b (.count n.val f) (.waitCount t d a b n)) ∧
     (waitStatus s t.slot.val (.time v) = some 0 ↔ v ≤ s.tb.dev / 2 ^ 32) ∧
     (waitStatus s t.slot.val (.count n.val f) = some 0 ↔
       (fget s (.core t.slot.val 1) (KB1.CTR n.val) + 2 ^ 32 - f) % 2 ^ 32 < 2 ^ 31)) ∧
  (∀ (s : State) (t : ThreadRef) (k : WaitKind) (deadline dst : Nat), (cref s t).hold = .wait k deadline dst →
     outOfService s (.core t.slot.val) = false →
     (∀ v, waitStatus s t.slot.val k = some v → Completes (exec (.waitComplete t) s) (WaitEnds t dst v s)) ∧
     (waitStatus s t.slot.val k = none → exec (.waitComplete t) s = .next s) ∧
     (waitStatus s t.slot.val k = none → pastDeadline s deadline = true →
       Completes (exec (.waitDeadlineExpire t) s) (WaitEnds t dst 3 s)) ∧
     (pastDeadline s deadline = false → exec (.waitDeadlineExpire t) s = .next s))

/-- A mark on tread k of entry j of a board, whose DONE byte lies at `lo`, takes effect from `q` on: bit k is set, no other bit
and no other byte changes, and the thread goes on. -/
def MarkTakesEffect (s q : State) (t : ThreadRef) (board k j : Nat) (i : Instr) : Prop :=
  let g := ownNode q * 2 ^ 48 + 2 ^ 44 + board + 64 * j + k / 8
  ∀ lo, (boardCheck q t.slot.val t.ctx.val (board + 2 ^ 32 * k) j false).1 = none → placeAt (locate q g 1) = some lo →
    Reaches q (cref s t).rq t.slot.val g 1 true true → Clean q 1 (locate q g 1) →
    accessHeld q t.slot.val (.store 1 g 0 none) = false →
    Completes (exec i s) (fun u =>
      rdByte u lo = setBits (rdByte s lo) (k % 8) 1 1 ∧ BytesBut lo 1 s u ∧ (cref u t).st = .ready ∧
      (cref u t).pc = nextPc s t ∧ (cref u t).regs = (cref s t).regs ∧ ∀ q, q ≠ t → cref u q = cref s q)

/-- R329: WAIT_HALO on a good board entry gives the status of R329, or TIMEOUT past its deadline, or waits. The operand names
the board's byte `board` of region 0x1 and the tread k; `q` is the state once the board has been checked. R328, R428:
TREAD_MARK sets bit k of DONE in its entry once the thread's earlier stores are performed and its tensor instructions have
retired: at issue, or, when held WAITING until then, by TREAD_MARK_EFFECT. -/
def Obligations.HaloBoardsAreReadAndMarked : Prop :=
  (∀ (s q : State) (t : ThreadRef) (d a b : RegNum) (j : Fin 32) (board k : Nat), board < 2 ^ 28 → k < 2 ^ 8 →
     (cref s t).rget a.val = BitVec.ofNat 64 (board + 2 ^ 32 * k) → Issues s (.waitHalo t d a b j) →
     boardCheck (issued s t) t.slot.val t.ctx.val (board + 2 ^ 32 * k) j.val true = (none, q) →
     let deadline := ((cref s t).rget b.val).toNat
     let frame := match boardPlace q board with | some (n, off) => rdN q (spmBase n + off) 4 | none => 0
     (∀ v, statusNow q t.slot.val (.halo board k j.val frame) deadline = some v →
       Completes (exec (.waitHalo t d a b j) s) (fun u => Wrote d (BitVec.ofNat 64 v) (cref s t) (cref u t) ∧
         (cref u t).pc = nextPc s t ∧ (∀ q, q ≠ t → cref u q = cref s q) ∧ SameBytes s u)) ∧
     (statusNow q t.slot.val (.halo board k j.val frame) deadline = none →
       Completes (exec (.waitHalo t d a b j) s) (fun u => (cref u t).st = .waiting ∧
         (cref u t).hold = .wait (.halo board k j.val frame) deadline d.val ∧ (cref u t).regs = (cref s t).regs ∧
         (∀ q, q ≠ t → cref u q = cref s q) ∧ SameBytes s u))) ∧
  (∀ (s : State) (t : ThreadRef) (j : Fin 32) (board k : Nat), board < 2 ^ 28 → k < 2 ^ 8 →
     (∀ a : RegNum, (cref s t).rget a.val = BitVec.ofNat 64 (board + 2 ^ 32 * k) → Issues s (.treadMark t a j) →
       (markReady (cref s t) = true → MarkTakesEffect s (issued s t) t board k j.val (.treadMark t a j)) ∧
       (markReady (cref s t) = false →
         (boardCheck (issued s t) t.slot.val t.ctx.val (board + 2 ^ 32 * k) j.val false).1 = none →
         Completes (exec (.treadMark t a j) s)
           (ContextOnly t (fun x => { x with st := .waiting, hold := .mark board k j.val }) s))) ∧
     ((cref s t).hold = .mark board k j.val → (cref s t).st = .waiting → markReady (cref s t) = true →
       outOfService s (.core t.slot.val) = false → MarkTakesEffect s s t board k j.val (.treadMarkEffect t)))

/-! ### Tensor instructions -/

/-- A tensor instruction of opcode `op` that issues leaves its thread BLOCKED with it, its descriptor at BASE + OFFSET. -/
def TensorIssues (op : Nat) (i : TensorOp → Instr) : Prop :=
  ∀ (s : State) (t : ThreadRef) (base : RegNum) (offset : Word) (notify : Byte) (w3 : Word),
    Issues s (i (.issue t base offset notify w3)) →
    Completes (exec (i (.issue t base offset notify w3)) s) (fun u =>
      cref u t = { cref s t with st := .blocked, ir := [], promoted := false, since := s.now,
                                 hold := .tensor ⟨op, ((cref s t).rget base.val + BitVec.ofNat 64 offset.toNat).toNat,
                                   notify.toNat, w3.toNat, false⟩ } ∧
      (∀ q, q ≠ t → cref u q = cref s q) ∧ (∀ n, n ≠ t.slot.val → coreAt u n = coreAt s n) ∧
      { coreAt u t.slot.val with lastIssued := (coreAt s t.slot.val).lastIssued } = coreAt s t.slot.val ∧
      { u with ctx := s.ctx, core := s.core } = s)

/-- R429, R430, R436: the fifteen tensor instructions and their opcodes, as they issue. R398, R400, R430, R431: the BLOCKED
thread's tensor instruction enters behind those entered, with its descriptor's bytes and its declared ranges, and the thread
goes on after its four words; while 16 of the thread's instructions are unretired, or its queue is full, it goes on waiting. -/
def Obligations.TensorInstructionsIssueAndEnter : Prop :=
  (TensorIssues 0xC0 .pass ∧ TensorIssues 0xC1 .move ∧ TensorIssues 0xC2 .spGather ∧ TensorIssues 0xC3 .spCompress ∧
   TensorIssues 0xC4 .ruleGather ∧ TensorIssues 0xC5 .ruleScatter ∧ TensorIssues 0xC6 .cellFinish ∧
   TensorIssues 0xC7 .mapScatter ∧ TensorIssues 0xC8 .rbBuild ∧ TensorIssues 0xC9 .nbrQuery ∧ TensorIssues 0xCA .hallQuery ∧
   TensorIssues 0xCB .embGather ∧ TensorIssues 0xCC .embUpdate ∧ TensorIssues 0xCD .embFlush ∧ TensorIssues 0xCE .embApply) ∧
  (∀ (s q : State) (t : ThreadRef) (i : Issuing) (desc : List Nat), (cref s t).hold = .tensor i → (cref s t).st = .blocked →
     outOfService s (.core t.slot.val) = false →
     let n := t.slot.val
     let ti := enteringTi (cref s t) t.ctx.val i desc
     let rs := mkRange true false i.desc (descBytes i.op) ++ declaredRanges s n ti
     ((16 ≤ (cref s t).unretired ∨ queueRoom (queueOf i.op) ≤ queueUsed s n (queueOf i.op)) →
       exec (.tensorEnter t) s = .next s) ∧
     ((cref s t).unretired < 16 → queueUsed s n (queueOf i.op) < queueRoom (queueOf i.op) → entryFault i = none →
       lineWritten s n i.desc (descBytes i.op) = false →
       coreRead s (cref s t).rq (some n) (spmGlobal s n i.desc) (descBytes i.op) = (.ok, desc, q) →
       selfOverlap rs = false → entriesUsed s n + rs.length ≤ 256 → (cref s t).loads = [] →
       Completes (exec (.tensorEnter t) s) (fun u =>
         (∃ e, (coreAt u n).tis = (coreAt s n).tis ++ [e] ∧ e.id = (coreAt s n).nextId + 1 ∧ e.op = i.op ∧ e.desc = desc ∧
           e.ranges = rs ∧ e.phase = .entered ∧ e.pc = (cref s t).pc ∧ e.domain = (cref s t).domain) ∧
         cref u t = { cref s t with st := .ready, hold := .none, pc := ((cref s t).pc + 16) % 2 ^ 64,
                                    unretired := (cref s t).unretired + 1, since := s.now } ∧
         (∀ q, q ≠ t → cref u q = cref s q) ∧ SameBytes s u)))

/-- R399, R432: TENSOR_ADMIT queues an entered instruction none of whose ranges conflicts with one entered before it, and
leaves it where one conflicts; QUEUE_DISPATCH passes the mover queue's next instruction to the skew mover while that is idle.
R433, R434: an instruction that has finished leaves its core, its thread has one fewer unretired, and the counter of word 2's
NOTIFY counts it; one that ends in a fault makes its thread FAULTED at the thread's next instruction, LAST_FAULT_PC being the
address of the tensor instruction. -/
def Obligations.TensorInstructionsAreAdmittedAndRetire : Prop :=
  (∀ (s : State) (n : Fin 40) (t : Ti), tiAt s n.val t.id = some t → outOfService s (.core n.val) = false →
     let before := ((coreAt s n.val).tis.takeWhile (fun u => u.id ≠ t.id)).flatMap Ti.ranges ++ (coreAt s n.val).kept.map Kept.range
     (t.phase = .entered → (∀ r ∈ t.ranges, ∀ o ∈ before, r.conflicts o = false) →
       Completes (exec (.tensorAdmit n t.id) s) (fun u =>
         tiAt u n.val t.id = some { t with phase := .queued (coreAt s n.val).nextOrder } ∧
         (coreAt u n.val).nextOrder = (coreAt s n.val).nextOrder + 1 ∧
         (∀ m, m ≠ n.val → coreAt u m = coreAt s m) ∧
         WordsBut [pageBase (.core n.val 2) + KB2.SB_ADMITTED_LO.off, pageBase (.core n.val 2) + KB2.SB_ADMITTED_HI.off] s u ∧
         { u with core := s.core, reg := s.reg, msix := s.msix, err.inj := s.err.inj } = s)) ∧
     (t.phase = .entered → (∃ r ∈ t.ranges, ∃ o ∈ before, r.conflicts o = true) → exec (.tensorAdmit n t.id) s = .next s) ∧
     (s.sup.stopped = false → runningOn s n.val .mover = [] →
       (sortBy (fun t => t.cls * 2 ^ 64 + t.order)
         ((queued s n.val .mover).filter (fun t => !classHeld s n.val t.cls && unitTakes s n.val t))).head? = some t →
       Completes (exec (.queueDispatch n .mover) s) (fun u =>
         tiAt u n.val t.id = some { t with phase := .running } ∧ (∀ m, m ≠ n.val → coreAt u m = coreAt s m) ∧
         { u with core := s.core, msix := s.msix, err.inj := s.err.inj } = s))) ∧
  (∀ (s : State) (n : Fin 40) (t : Ti) (c : Fin 2048), tiAt s n.val t.id = some t → t.ctx = c.val → t.owned = true →
     outOfService s (.core n.val) = false →
     let r : ThreadRef := ⟨n, c⟩
     (t.phase = .retiring → t.op ≠ 0xC0 → t.op ≠ 0xC9 → Completes (exec (.tensorRetire n t.id) s) (fun u =>
       (coreAt u n.val).tis = (coreAt s n.val).tis.filter (fun e => e.id ≠ t.id) ∧
       cref u r = { cref s r with unretired := (cref s r).unretired - 1 } ∧ (∀ q, q ≠ r → cref u q = cref s q) ∧
       (bit t.notify 7 = true → descNotify t = none →
         fget u (.core n.val 1) (KB1.CTR (t.notify % 64)) = (fget s (.core n.val 1) (KB1.CTR (t.notify % 64)) + 1) % 2 ^ 32) ∧
       SameBytes s u)) ∧
     (∀ code, t.phase = .faulting code → code < 256 → (cref s r).st ≠ .faulted → (cref s r).st ≠ .free →
       Completes (exec (.tensorFaultDeliver n t.id) s) (fun u =>
         (coreAt u n.val).tis = (coreAt s n.val).tis.filter (fun e => e.id ≠ t.id) ∧
         (cref u r).st = .faulted ∧ (cref u r).fault = code ∧ (cref u r).pc = (cref s r).pc ∧ (cref u r).regs = (cref s r).regs ∧
         (cref u r).unretired = (cref s r).unretired - 1 ∧
         rawWord u (.core n.val 1) 0x60 = code * 2 ^ 24 + c.val ∧ rawWord u (.core n.val 1) 0x64 = t.pc % 2 ^ 32 ∧
         rawWord u (.core n.val 1) 0x68 = t.pc / 2 ^ 32 % 2 ^ 26 ∧ (∀ q, q ≠ r → cref u q = cref s q) ∧ SameBytes s u)))

/-- An instruction of opcode `op` that its queue has passed to its unit: the unit does its work, which comes to `work`. Where
that leaves nothing to be written but a record within reach, the record is written and the instruction is due to retire; a
fault of the work waits to be delivered. -/
def UnitRuns (op : Nat) (work : Who → Ti → State → Run (List UnitOut × State)) (i : TensorOp → Instr) : Prop :=
  ∀ (s q : State) (n : Fin 40) (t e : Ti), tiAt s n.val t.id = some t → t.op = op → t.phase = .running →
    outOfService s (.core n.val) = false → tiAt q n.val t.id = some e → e.id = t.id → e.out = [] → e.owed = 0 →
    (∀ c, e.phase ≠ .faulting c) →
    let w := whoOf n.val t
    (work w t s = .ok ([], q) → Completes (exec (i (.run n t.id)) s) (fun u =>
      (tiAt u n.val t.id).map Ti.phase = some .retiring ∧ SameBytes q u ∧
      { u with core := q.core, msix := q.msix, err.inj := q.err.inj } = q)) ∧
    (∀ g bs lo, work w t s = .ok ([.write g bs], q) → placeAt (locate q g bs.length) = some lo →
      Reaches q w.rq n.val g bs.length false true →
      Completes (exec (i (.run n t.id)) s) (fun u =>
        (tiAt u n.val t.id).map Ti.phase = some .retiring ∧ rdBytes u lo bs.length = bs.map (· % 256) ∧
        BytesBut lo bs.length q u)) ∧
    (∀ c, work w t s = .error (.fault c q) → q.err.inj = false → Completes (exec (i (.run n t.id)) s) (fun u =>
      (tiAt u n.val t.id).map Ti.phase = some (.faulting c) ∧ SameBytes q u))

/-- R452, R286, R293, R307, R314, R323, R333, R181, R437, R354, R359: each unit carries its instruction out. -/
def Obligations.UnitsCarryOutTheirInstructions : Prop :=
  UnitRuns 0xC1 moveTry .move ∧ UnitRuns 0xC2 gatherWork .spGather ∧ UnitRuns 0xC3 compressWork .spCompress ∧
  UnitRuns 0xC4 ruleGatherWork .ruleGather ∧ UnitRuns 0xC5 ruleScatterWork .ruleScatter ∧
  UnitRuns 0xC6 cellFinishWork .cellFinish ∧ UnitRuns 0xC7 mapScatterWork .mapScatter ∧ UnitRuns 0xC8 buildWork .rbBuild ∧
  UnitRuns 0xCA hallQueryWork .hallQuery ∧ UnitRuns 0xCC embUpdateWork .embUpdate ∧ UnitRuns 0xCE embApplyWork .embApply

/-- R452: a MOVE of one row without a record or an arrival: a fill writes VALUE in every word of the row, and a copy between
equal formats the bytes of the source row; no other byte changes. `src` and `dst` are where the rows lie. R209: a request that
is not refused and has queries is accepted at its die's distance engine, behind those accepted, to wait for its windows; R357:
an EMB_FLUSH with nothing of its table left to send or to be answered has its record written, and the table's counts start
again from zero; R342: an EMB_GATHER whose lines have all been requested and delivered has its record written. -/
def Obligations.MovesRequestsAndGathersAreCarriedOut : Prop :=
  (∀ (s : State) (n : Fin 40) (t : Ti) (dst : Nat), tiAt s n.val t.id = some t → t.op = 0xC1 → t.phase = .running →
     t.out = [] → t.owed = 0 → outOfService s (.core n.val) = false →
     moveBad t = false → moveMisaligned t = false → t.mvResult = 0xFFFFFFFF → t.mvRows = 1 → 0 < t.mvRow → t.mvFlag 1 = false →
     let w := whoOf n.val t
     placeAt (locate s (t.d 0x18 8) t.mvRow) = some dst → Reaches s w.rq n.val (t.d 0x18 8) t.mvRow false true →
     (t.mvOp = 1 → Completes (exec (.move (.run n t.id)) s) (fun u =>
       (tiAt u n.val t.id).map Ti.phase = some .retiring ∧
       (∀ k, 4 * k + 4 ≤ t.mvRow → rdN u (dst + 4 * k) 4 = t.d 0x34 4) ∧ BytesBut dst t.mvRow s u)) ∧
     (∀ src, t.mvOp = 0 → t.d 1 1 = t.d 2 1 → t.d 1 1 ≠ 8 → placeAt (locate s (t.d 0x10 8) t.mvRow) = some src →
       Reaches s w.rq n.val (t.d 0x10 8) t.mvRow true false → Clean s t.mvRow (locate s (t.d 0x10 8) t.mvRow) →
       Completes (exec (.move (.run n t.id)) s) (fun u =>
         (tiAt u n.val t.id).map Ti.phase = some .retiring ∧ rdBytes u dst t.mvRow = rdBytes s src t.mvRow ∧
         BytesBut dst t.mvRow s u))) ∧
  (∀ (s : State) (n : Fin 40) (t : Ti), tiAt s n.val t.id = some t → t.phase = .running → outOfService s (.core n.val) = false →
     let w := whoOf n.val t
     (∀ q src, t.op = 0xC9 → (∀ e ∈ s.nbr, e.slot ≠ n.val ∨ e.id ≠ t.id) → t.d 0x20 8 % 64 = 0 →
       outOfService s (.point (nbrDie s n.val t)) = false → quiescing s (.die (nbrDie s n.val t) 4) = false →
       nbrStatus s (nbrDie s n.val t) t = 0 → (t.d 0xB 1 = 0 ∨ t.d 0xC 4 ≠ 0) →
       uRead w s (t.d 0x18 8) (nbrSource t) = .ok (src, q) →
       Completes (exec (.nbrQuery (.run n t.id)) s) (fun u =>
         u.nbr = q.nbr ++ [⟨nbrDie s n.val t, n.val, t.id⟩] ∧ tiAt u n.val t.id = (tiAt q n.val t.id).map (fun _ => { t with prog := src }) ∧
         SameBytes q u)) ∧
     (∀ q b lo, t.op = 0xCD → t.out = [] → t.owed = 0 → t.d 8 8 % 32 = 0 → flushBad t = false →
       readTable w s (t.d 0 8) = .ok (some b, q) →
       b.updatable = true → tiAt q n.val t.id = some t →
       (∀ c, c < 8 → (∀ g ∈ (embAt q c).upd, g.table ≠ b.id) ∧ SMap.find (embAt q c).lost b.id = none) →
       (flowAt q b.id).out = 0 → placeAt (locate q (t.d 8 8) 32) = some lo → Reaches q w.rq n.val (t.d 8 8) 32 false true →
       Completes (exec (.embFlush (.run n t.id)) s) (fun u =>
         rdN u lo 4 = 0 ∧ rdN u (lo + 4) 4 = (flowAt q b.id).sent % 2 ^ 32 ∧ rdN u (lo + 8) 4 = (flowAt q b.id).dropped % 2 ^ 32 ∧
         flowAt u b.id = ⟨0, 0, 0⟩ ∧ (tiAt u n.val t.id).map Ti.phase = some .retiring ∧ BytesBut lo 32 q u)) ∧
     (∀ q r b idx z lo, t.op = 0xCB → t.out = [] → t.owed = 0 →
       outOfService s (.cluster (slotDie n.val) (slotCluster n.val)) = false → embMisaligned t = false → embBad t = false →
       readTable w s (t.d 8 8) = .ok (some b, q) → embIndices w t q = .ok (idx, r) → tiAt r n.val t.id = some t →
       z = GatherProg.of t → 0 < b.rowLines → z.und = 0 → idx.length = t.d 4 4 → z.next = idx.length * b.rowLines →
       placeAt (locate r (t.d 0x20 8) 32) = some lo → Reaches r w.rq n.val (t.d 0x20 8) 32 false true →
       Completes (exec (.embGather (.run n t.id)) s) (fun u =>
         rdByte u lo = 0 ∧ rdByte u (lo + 1) = z.flags % 256 ∧ rdN u (lo + 4) 4 = z.hits % 2 ^ 32 ∧
         rdN u (lo + 8) 4 = z.misses % 2 ^ 32 ∧ rdN u (lo + 12) 4 = z.coal % 2 ^ 32 ∧ rdN u (lo + 16) 4 = z.zero % 2 ^ 32 ∧
         (tiAt u n.val t.id).map Ti.phase = some .retiring ∧ BytesBut lo 32 r u)))

/-! ### The engine group -/

/-- R228, R244, R220: an idle group takes the pass that the queue gives next: PASS_SEQ counts it and it waits in the queue no
longer. A pass that no check refuses, whose operands hold no bit error, becomes the next pass with its estimate (R519) and
waits for the ledger or for issue. Staging writes no byte. R521: the ledger tests a waiting pass again. A pass of class 0 is
always granted, and is flagged where the headroom is short; one of another class is granted exactly where the headroom less its
class's reserve covers its estimate, and a wait counts once. A grant adds the estimate to COMMIT and counts in ADMITTED. -/
def Obligations.GroupsTakePassesTheLedgerGrants : Prop :=
  (∀ (s : State) (n : Fin 40) (t : Ti), groupRuns s n.val = true → (grpAt s n.val).again = [] → (grpAt s n.val).next = none →
     (grpAt s n.val).chain = none → pickPass s n.val = some t → tiAt s n.val t.id = some t →
     let p := passOf s n.val t
     Completes (exec (.passNext n) s) (fun u =>
       fget u (grpPage n.val) KB3.GRP_STATUS_PASS_SEQ = (fget s (grpPage n.val) KB3.GRP_STATUS_PASS_SEQ + 1) % 2 ^ 16 ∧
       (∃ e, tiAt u n.val t.id = some e ∧ e.isQueued = false) ∧ (∀ m, m ≠ n.val → coreAt u m = coreAt s m ∧ grpAt u m = grpAt s m) ∧
       SameBytes s u ∧
       (p.check (grpAt s n.val) = none → p.noop = false → passDenied s n.val t p = none → p.w24 = false →
         fget s (.core n.val 8) HDR.INJECT_COUNT = 0 →
         (∀ r ∈ p.reads, eccIn s ((spmBase n.val + r.1) / 8 * 8) (spmBase n.val + r.1 + r.2) = []) →
         ∃ nx, (grpAt u n.val).next = some nx ∧ nx.id = t.id ∧ nx.est = p.estimate s ∧ nx.corrected = false ∧
           (tiAt u n.val t.id).map Ti.phase = some .running))) ∧
  (∀ (s : State) (n : Fin 40) (x : NextPass) (t : Ti), n.val ∈ s.led.toTest → (grpAt s n.val).next = some x → x.admitted = false →
     x.again = false → tiAt s n.val x.id = some t → ebit s (.pkg 6) PB6.LED_CTRL_BUDGET_EN = true →
     let fits : Prop := 16 * (x.est : Int) ≤ headroom16 s t.cls
     let kept := fun (u : State) => { u with grp := s.grp, led := s.led, reg := s.reg, msix := s.msix, err.inj := s.err.inj } = s ∧
       { u.led with toTest := s.led.toTest, commit := s.led.commit } = s.led ∧ n.val ∉ u.led.toTest ∧
       (∀ m, m ≠ n.val → grpAt u m = grpAt s m)
     let words := fun (l : List Nat) => l.map (fun o => pageBase (.pkg 6) + o)
     ((t.cls = 0 ∨ fits) → Completes (exec (.passLedgerAdmit n) s) (fun u =>
       (grpAt u n.val).next = some { x with asked := true, admitted := true } ∧ u.led.commit = s.led.commit + x.est ∧
       fget u (.pkg 6) PB6.ADMITTED = (fget s (.pkg 6) PB6.ADMITTED + 1) % 2 ^ 32 ∧
       (¬ fits → t.cls = 0 → fget u (.pkg 6) PB6.LED_STATUS_OVERDRAW = 1 ∧ bit (rawWord u (.pkg 6) 0x14) 2 = true ∧
         fget u (.pkg 6) PB6.OVERDRAWS = (fget s (.pkg 6) PB6.OVERDRAWS + 1) % 2 ^ 32) ∧
       (fits → WordsBut (words [PB6.ADMITTED.off]) s u) ∧
       WordsBut (words [PB6.ADMITTED.off, PB6.OVERDRAWS.off, PB6.LED_STATUS_OVERDRAW.off, 0x14]) s u ∧ kept u)) ∧
     (t.cls ≠ 0 → ¬ fits → Completes (exec (.passLedgerAdmit n) s) (fun u =>
       (grpAt u n.val).next = some { x with asked := true } ∧ u.led.commit = s.led.commit ∧
       fget u (.pkg 6) PB6.ADMIT_WAIT = (fget s (.pkg 6) PB6.ADMIT_WAIT + b2n (!x.asked)) % 2 ^ 32 ∧
       WordsBut (words [PB6.ADMIT_WAIT.off]) s u ∧ kept u)))

/-- R237: the earliest T of pass B after pass A is the least that meets conditions 1 to 4. R229, R237: the next pass, granted
and staged, issues with its front at (0, 0) in a cycle that the timing rules allow: it is in flight from then, behind the
passes before it, the gap and the wait are counted, and its bytes are not yet written. R235: a chain whose continuation is not
at the head of the queue more than 4,096 cycles after its last K-step is abandoned: its passes leave the group without writing,
and GRP_CHAIN_ABANDON and its interrupt tell. Until then it stays. -/
def Obligations.PassesIssueByTheirTimingRules : Prop :=
  (∀ (a : PrevPass) (b : PassD) (T : Nat),
     (earliest (some a) b).1 ≤ T ↔
       a.t + a.l ≤ T ∧
       (b.stat ≠ 1 ∧ (b.newStat || b.w24Dense) = true → a.t + 32 ≤ T) ∧
       (a.stat = 1 ∧ a.drains = true → a.t + a.l + 32 ≤ T + b.l) ∧
       (a.stat ≠ b.stat ∨ a.mode ≠ b.mode ∨ a.fp ≠ b.fp → a.t + a.l + 64 ≤ T)) ∧
  (∀ (s : State) (n : Fin 40) (T : Nat) (x : NextPass) (t : Ti), groupRuns s n.val = true → (grpAt s n.val).next = some x →
     tiAt s n.val x.id = some t → t.id = x.id → x.admitted = true → x.corrected = false → x.again = false →
     (grpAt s n.val).again = [] → (grpAt s n.val).chain = none → inFlight (grpAt s n.val) < 2 → groupStopped s n.val = false →
     stepHolds s (slotDie n.val) = false → (passOf s n.val t).check (grpAt s n.val) = none →
     let p := passOf s n.val t
     let e := earliest (grpAt s n.val).prev p
     (T < e.1 → exec (.passIssue n T) s = .next s) ∧
     (e.1 ≤ T → Completes (exec (.passIssue n T) s) (fun u =>
       (∃ f, (grpAt u n.val).flight = (grpAt s n.val).flight ++ [f] ∧ f.id = x.id ∧ f.ctx = t.ctx ∧ f.t = T ∧ f.l = p.l ∧
         f.est = x.est) ∧
       (grpAt u n.val).next = none ∧
       fget u (grpPage n.val) KB3.GRP_GAP = (fget s (grpPage n.val) KB3.GRP_GAP + (e.1 - e.2)) % 2 ^ 32 ∧
       fget u (grpPage n.val) KB3.GRP_ISSUE_WAIT =
         (fget s (grpPage n.val) KB3.GRP_ISSUE_WAIT + (if (grpAt s n.val).prev.isNone then 0 else T - e.1)) % 2 ^ 32 ∧
       (∀ m, m ≠ n.val → coreAt u m = coreAt s m ∧ grpAt u m = grpAt s m) ∧ (coreAt u n.val).tis = (coreAt s n.val).tis ∧
       SameBytes s u))) ∧
  (∀ (s : State) (n : Fin 40) (T : Nat) (c : Chain), (grpAt s n.val).chain = some c → (grpAt s n.val).next = none →
     pickPass s n.val = none → outOfService s (.eng n.val) = false →
     (T ≤ c.last + 4096 → exec (.chainAbandon n T) s = .next s) ∧
     (c.last + 4096 < T → Completes (exec (.chainAbandon n T) s) (fun u =>
       (grpAt u n.val).chain = none ∧ (grpAt u n.val).flight = (grpAt s n.val).flight.filter (fun f => !c.ids.contains f.id) ∧
       fget u (grpPage n.val) KB3.GRP_CHAIN_ABANDON = (fget s (grpPage n.val) KB3.GRP_CHAIN_ABANDON + 1) % 2 ^ 32 ∧
       bit (rawWord u (grpPage n.val) 0x14) 3 = true ∧ (∀ m, m ≠ n.val → coreAt u m = coreAt s m ∧ grpAt u m = grpAt s m) ∧
       SameBytes s u)))

/-- R257, R239, R236: in an integer pass with held operands the accumulator of an unmasked column ends at its starting value
plus the products, each shifted by SHIFT and negated with NEG, modulo 2^32; a masked column adds nothing. -/
def Obligations.IntegerPassesSumTheirProducts : Prop :=
  ∀ (p : PassD) (l : Nat) (start : Nat → Nat → Nat) (pairs : Nat → Nat → List (Fv × Fv)) (m c : Nat), p.fp = false → m < l →
    c < p.dim → start m c < 2 ^ 32 →
    ((p.runHeld l start pairs).1.getD m []).getD c 0 =
      if bit (p.t.d 0x10 4) c then
        (((start m c : Int) + ((pairs m c).map (fun (q : Fv × Fv) =>
          (if p.flag 2 then -1 else 1) * (q.1.int * q.2.int * 2 ^ p.t.d 5 1))).sum) % 2 ^ 32).toNat
      else 0

/-! ### The whole block -/

/-- A step carries out the command at the front of the queue on the state with the queue's rest. -/
def Obligations.StepRunsTheFrontCommand : Prop :=
  ∀ (s : State) (c : Instr) (rest : List Instr), s.pending = c :: rest → step s = exec c { s with pending := rest }

/-- With no command waiting, one TCLK cycle passes: two nanoseconds of the part's own time and one step of device time (R43). No
byte of memory and no thread changes. (Assumption 1: the model's choice of what a step on an empty queue is.) -/
def Obligations.AnEmptyQueueLetsTimePass : Prop :=
  ∀ s : State, s.pending = [] → Completes (step s) (fun u =>
    u.now = s.now + 2 ∧ u.tb.dev = s.tb.dev + tickDelta s ∧ u.pending = [] ∧ u.ctx = s.ctx ∧ u.mem = s.mem ∧ u.hostMem = s.hostMem)

/-- Every command gives a next state from every state: the spec gives each an effect, and no command stops the block. -/
def Obligations.NoCommandStops : Prop := ∀ (c : Instr) (s : State), ∃ t, exec c s = .next t

/-- The stores of the state in their canonical form: memory lists no byte that reads as an unlisted one, keys rise, and a captured
set names words of its page. -/
def Stores (s : State) : Prop :=
  Memory.wf s.mem = true ∧ Memory.wf s.hostMem = true ∧ SMap.sorted none s.reg.regs = true ∧ SMap.sorted none s.reg.eff = true ∧
    SMap.sorted none s.reg.captured = true ∧
    SMap.sorted none s.ctx = true ∧
    ∀ e ∈ s.reg.captured, SMap.sorted none e.2.words = true ∧ ∀ w ∈ e.2.words, w.1 < 0x1000

/-- After reset every context is FREE, no page asks for quiet or has an interrupt raised or enabled, nothing is refused or in
error, every vector is masked, and memory lists nothing (R369, R393, R665, R676). The stores are canonical and the vectors
settled. -/
def Obligations.ResetLeavesThePartQuiet : Prop :=
  State.reset.pending = [] ∧ State.reset.mem = [] ∧ State.reset.msix.masked = BitVec.allOnes 64 ∧
  (∀ t, (cref State.reset t).st = .free) ∧ (∀ n : Fin 40, (coreAt State.reset n.val).tis = []) ∧
  (∀ (n : Fin 40) (i : Fin 64), fget State.reset (.core n.val 1) (KB1.CTR i.val) = 0) ∧
  (∀ p : Page, p.wf = true → fget State.reset p HDR.PAGE_CTRL_EN = 1 ∧ fget State.reset p HDR.PAGE_CTRL_QUIESCE_REQ = 0 ∧
    fget State.reset p HDR.INT_RAW = 0 ∧ fget State.reset p HDR.INT_EN = 0 ∧ fget State.reset p HDR.INJECT_COUNT = 0 ∧
    fget State.reset p HDR.VIOL_COUNT = 0 ∧ fget State.reset p HDR.ERR_FIRST_VALID = 0 ∧
    fget State.reset p HDR.PAGE_STATUS_COMMIT_ERR = 0 ∧ fget State.reset p HDR.PAGE_ID_MAJOR = 1) ∧
  Stores State.reset ∧ Settled State.reset

/-- R665, R666: whatever the command, vectors that were settled are settled after it. -/
def Obligations.VectorsStaySettled : Prop :=
  ∀ (c : Instr) (s t : State), Settled s → (exec c s = .next t ∨ (s.pending = [] ∧ step s = .next t)) → Settled t

/-- Every command keeps the stores in their canonical form, and so does every step. -/
def Obligations.StoresStayCanonical : Prop :=
  ∀ (c : Instr) (s t : State), Stores s → (exec c s = .next t ∨ step s = .next t) → Stores t

/-- R411, R412, R413: INSTRUCTION_FETCH gives a READY thread the word at its PC, and a tensor instruction's three further
words; a word that is an undefined encoding, such as one of all zeros, faults with FAULT_ACCESS. `r` is the state once the line
has been read. R376, R410: a thread's instruction acts only where its own words stand fetched in the thread's context and the
turn is the thread's; elsewhere its command changes nothing. -/
def Obligations.OnlyTheFetchedInstructionActs : Prop :=
  (∀ (s r : State) (t : ThreadRef) (w : Nat),
     coreIssues s t.slot.val = true → (cref s t).st = .ready → (cref s t).ir = [] →
     fetchWords s t.slot.val (cref s t).rq (cref s t).pc 1 = .ok ([w], r) →
     (isTensor w = false → scalarDefined w = true → Completes (exec (.instructionFetch t) s) (fun u =>
       cref u t = { cref s t with ir := [w] } ∧ (∀ q, q ≠ t → cref u q = cref s q) ∧ SameBytes s u)) ∧
     (isTensor w = false → scalarDefined w = false →
       Completes (exec (.instructionFetch t) s) (fun u => FaultsAt t fAccess (cref s t).pc s u ∧ SameBytes s u)) ∧
     (w = 0 → scalarDefined w = false ∧ isTensor w = false) ∧
     (∀ ws r2, isTensor w = true → fetchWords r t.slot.val (cref s t).rq (cref s t).pc 4 = .ok (w :: ws, r2) →
       tensorDefined (w :: ws) = true → tensorDefined [w] = true →
       Completes (exec (.instructionFetch t) s) (fun u =>
         cref u t = { cref s t with ir := w :: ws } ∧ (∀ q, q ≠ t → cref u q = cref s q) ∧ SameBytes s u))) ∧
  (∀ (i : Instr) (s : State) (t : ThreadRef) (ws : List Nat), threadOf i = some t → wordsOf i = some ws → mayIssue s t ws = false →
     exec i s = .next s)

/-- R377: a READY context that has not issued for 4,096 ACLK cycles is promoted, and bit 2 of its core's INT_RAW says so. R376,
R377: the context whose turn it is has its instruction and its operands, is of the lowest class present among such contexts of
its core, and in that class comes next after the one that issued last, wrapping from 2,047 to 0. -/
def Obligations.TheTurnGoesByClassAndPromotion : Prop :=
  (∀ (s : State) (t : ThreadRef),
     (cref s t).st = .ready → (cref s t).promoted = false →
     4096 * 16000 ≤ aclkIn s (slotDie t.slot.val) (s.now - (cref s t).since) →
     Completes (exec (.starvationPromote t) s) (fun u =>
       cref u t = { cref s t with promoted := true } ∧ (cref u t).issueClass = 0 ∧
       bit (rawWord u (.core t.slot.val 1) 0x14) 2 = true ∧ (∀ q, q ≠ t → cref u q = cref s q) ∧
       WordsBut [pageBase (.core t.slot.val 1) + 0x14] s u ∧
       { u with ctx := s.ctx, reg := s.reg, msix := s.msix, err.inj := s.err.inj } = s)) ∧
  (∀ (s : State) (n : Fin 40) (c : Nat), issueTurn s n.val = some c → SMap.sorted none s.ctx = true →
     let last := SMap.getD (coreAt s n.val).lastIssued (ctxAt s n.val c).issueClass 2047
     c < 2048 ∧ (ctxAt s n.val c).issuable = true ∧
     ∀ d, d < 2048 → (ctxAt s n.val d).issuable = true →
       (ctxAt s n.val c).issueClass < (ctxAt s n.val d).issueClass ∨
       ((ctxAt s n.val c).issueClass = (ctxAt s n.val d).issueClass ∧
         (c + 2047 - last) % 2048 ≤ (d + 2047 - last) % 2048))

/-- R410, R414 to R431: the words of every well-formed instruction of a thread are no undefined encoding and spell that
instruction, with every operand; a word lies in 32 bits. -/
def Obligations.InstructionWordsDecodeBack : Prop :=
  ∀ (i : Instr) (t : ThreadRef) (ws : List Nat), threadOf i = some t → wordsOf i = some ws → WellFormed i = true →
    instrOf t ws = some i ∧ (∀ w ∈ ws, w < 2 ^ 32) ∧ isTensor (ws.getD 0 0) = decide (ws.length = 4) ∧
    (if ws.length = 1 then scalarDefined (ws.getD 0 0) else tensorDefined ws) = true

/-! ### Registers -/

/-- The access of a master to a register of page `p` passes every check (R7, R582, R630, R633, R658): the page is in service and
its access table allows it. -/
def Accepted (s : State) (rq : Requester) (a : Nat) (rd wr : Bool) (p : Page) : Prop := checkReg s rq a 4 rd wr = (.ok p, s)

/-- A field that shares no bit with another field of its register. -/
def Alone (p : Page) (off : Nat) (r : RegRow) : Prop :=
  r ∈ rowsAt p off ∧ r.fld.lo + r.fld.w ≤ 32 ∧
    ∀ q ∈ rowsAt p off, q ≠ r → q.fld.lo + q.fld.w ≤ r.fld.lo ∨ r.fld.lo + r.fld.w ≤ q.fld.lo

/-- A register whose write is a store and no command. -/
def Stored (s : State) (rq : Requester) (p : Page) (off v : Nat) : Prop :=
  0x40 ≤ off ∧ (match p with | .pkg b => pkgWrite s rq b off v | _ => unitPageWrite s p off v) = none

/-- R7: an access that is not 32 bits wide or not aligned is refused: a write has no effect, a read returns zero, and VIOL_COUNT
of the addressed page counts it. The host's refusals count on page B7 as well (R660). -/
def Obligations.IrregularAccessesAreRefused : Prop :=
  ∀ (s : State) (rq : Requester) (a : BitVec 24) (width : Nat) (v : Word) (p : Page), pageAt a.toNat = some p →
    a.toNat % 0x1000 / 4 * 4 ≤ lastOffset p → (width ≠ 4 ∨ a.toNat % 4 ≠ 0) →
    let kept := fun (u : State) =>
      fget u p HDR.VIOL_COUNT = (fget s p HDR.VIOL_COUNT + 1) % 2 ^ 32 ∧ OnlyRegisters s u ∧
      WordsBut [pageBase p + 0x34, pageBase (.pkg 7) + PB7.HOST_REFUSED.off, pageBase (.pkg 7) + 0x14] s u ∧
      (rq.mid ≠ midHost → WordsBut [pageBase p + 0x34] s u)
    Completes (exec (.registerWrite rq a width v) s) (fun u => u.ans = .refused ∧ kept u) ∧
    Completes (exec (.rcRegisterRead rq a width) s) (fun u => u.ans = .data 0 ∧ kept u) ∧
    Completes (exec (.loRegisterRead rq a width) s) (fun u => u.ans = .data 0 ∧ kept u)

/-- R8, R10: what a write leaves in a field of a register that is no command: RW takes the value; RWS and RWL take it unless
locked; W1C clears the bits written as one; RO, RC and WO keep what they hold. A write that meets a locked field counts. No
other register and nothing else changes, and no bit outside the register's fields. -/
def Obligations.WritesFollowTheAccessCodes : Prop :=
  ∀ (s : State) (rq : Requester) (a : BitVec 24) (v : Word) (p : Page) (r : RegRow),
    let off := a.toNat % 0x1000
    Accepted s rq a.toNat false true p → Stored s rq p off v.toNat → Alone p off r →
    let old := bits (rawWord s p off) r.fld.lo r.fld.w
    let new := bits v.toNat r.fld.lo r.fld.w
    Completes (exec (.registerWrite rq a 4 v) s) (fun u =>
      bits (rawWord u p off) r.fld.lo r.fld.w =
        (match r.acc with
         | .rw => new
         | .rws => if fieldLocked s p off r then old else new
         | .rwl => if fieldLocked s p off r then old else new
         | .w1c => Nat.land old (2 ^ r.fld.w - 1 - new)
         | .ro => old
         | .rc => old
         | .wo => old) ∧
      fget u p HDR.VIOL_COUNT = (fget s p HDR.VIOL_COUNT + b2n ((rowsAt p off).any (fieldLocked s p off))) % 2 ^ 32 ∧
      u.ans = .none ∧ OnlyRegisters s u ∧ WordsBut [pageBase p + off, pageBase p + 0x34] s u)

/-- R9, R10: a read answers the register as it shows and clears its RC fields; a read of the LO half of a counter latches the HI
half, which a read of HI then returns. -/
def Obligations.ReadsAnswerClearAndLatch : Prop :=
  ∀ (s : State) (rq : Requester) (a : BitVec 24) (p : Page),
    let off := a.toNat % 0x1000
    Accepted s rq a.toNat true false p →
    (∀ r, Alone p off r → ¬ (p = .pkg 2 ∧ off = 0x48) → ¬ (p = .pkg 5 ∧ off ∈ [0x204, 0x224, 0x244, 0x264]) →
      (loOffsets p).contains off = false → (off < 4 ∨ (loOffsets p).contains (off - 4) = false) →
      Completes (exec (.rcRegisterRead rq a 4) s) (fun u =>
        u.ans = .data (viewWord s p off) ∧
        bits (rawWord u p off) r.fld.lo r.fld.w = (if r.acc = .rc then 0 else bits (rawWord s p off) r.fld.lo r.fld.w) ∧
        OnlyRegisters s u ∧ WordsBut [pageBase p + off] s u)) ∧
    ((loOffsets p).contains off = true → Completes (exec (.loRegisterRead rq a 4) s) (fun u =>
      u.ans = .data (counterWord s p off) ∧
      (SMap.getD u.reg.hiLatch (pageBase p + off + 4) 0).toNat = counterWord s p (off + 4) % 2 ^ 32 ∧
      (∀ k, k ≠ pageBase p + off + 4 → SMap.find u.reg.hiLatch k = SMap.find s.reg.hiLatch k) ∧
      { u.reg with hiLatch := s.reg.hiLatch } = s.reg ∧ OnlyRegisters s u)) ∧
    (4 ≤ off → (loOffsets p).contains (off - 4) = true → (loOffsets p).contains off = false → p ≠ .pkg 2 → p ≠ .pkg 5 →
      Completes (exec (.loRegisterRead rq a 4) s) (fun u =>
        u.ans = .data (SMap.getD s.reg.hiLatch (pageBase p + off) 0).toNat ∧ u.reg = s.reg ∧ OnlyRegisters s u))

/-- R44: a read of TIME_SEC_HI latches the whole of device time: it answers the upper seconds, and the other three registers
then hold the rest of the same instant, which reads of them return and neither they nor time change. R89: a read of
CAPn_HEAD_HI pops the oldest entry: it answers VALID, EDGE and the upper seconds and loads the holding registers with the rest.
When the FIFO is empty it answers VALID = 0 and leaves the holding registers unchanged. -/
def Obligations.ReadsOfTheSecondsAndOfCaptures : Prop :=
  (∀ (s : State) (rq : Requester),
     let held := fun (u : State) => ∀ o ∈ [0x4C, 0x50, 0x54], rawWord u (.pkg 2) o = rawWord s (.pkg 2) o
     (Accepted s rq 0x7F2048 true false (.pkg 2) → Completes (exec (.timeSecHiRead rq) s) (fun u =>
       u.ans = .data (devSec s.tb.dev / 2 ^ 32 % 2 ^ 32) ∧ rawWord u (.pkg 2) 0x4C = devSec s.tb.dev % 2 ^ 32 ∧
       rawWord u (.pkg 2) 0x50 = devNs s.tb.dev % 2 ^ 32 ∧ rawWord u (.pkg 2) 0x54 = devFrac s.tb.dev % 2 ^ 32 ∧
       OnlyRegisters s u ∧ WordsBut ([0x48, 0x4C, 0x50, 0x54].map (fun o => pageBase (.pkg 2) + o)) s u)) ∧
     (∀ off ∈ [0x4C, 0x50], Accepted s rq (0x7F2000 + off) true false (.pkg 2) →
       Completes (exec (.rcRegisterRead rq (BitVec.ofNat 24 (0x7F2000 + off)) 4) s) (fun u =>
         u.ans = .data (rawWord s (.pkg 2) off) ∧ held u)) ∧
     (Accepted s rq 0x7F2054 true false (.pkg 2) → Completes (exec (.rcRegisterRead rq 0x7F2054#24 4) s) (fun u =>
       u.ans = .data (rawWord s (.pkg 2) 0x54 % 2 ^ 16) ∧ held u)) ∧
     (s.pending = [] → Completes (step s) held)) ∧
  (∀ (s : State) (rq : Requester) (n : Fin 4), Accepted s rq (0x7F5204 + 0x20 * n.val) true false (.pkg 5) →
     let p := Page.pkg 5
     (∀ t e rest, (capAt s n.val).fifo = (t, e) :: rest → Completes (exec (.capHeadHiRead rq n) s) (fun u =>
       u.ans = .data (2 ^ 31 + b2n e * 2 ^ 30 + devSec t / 2 ^ 32) ∧ (capAt u n.val).fifo = rest ∧
       fget u p (PB5.CAP_SEC_LO n.val) = devSec t % 2 ^ 32 ∧ fget u p (PB5.CAP_NS n.val) = devNs t % 2 ^ (PB5.CAP_NS n.val).w ∧
       fget u p (PB5.CAP_FRAC n.val) = devFrac t % 2 ^ (PB5.CAP_FRAC n.val).w ∧
       { u with reg := s.reg, cap := s.cap, ans := s.ans, msix := s.msix, err.inj := s.err.inj } = s ∧
       (∀ m, m ≠ n.val → capAt u m = capAt s m))) ∧
     ((capAt s n.val).fifo = [] → Completes (exec (.capHeadHiRead rq n) s) (fun u =>
       u.ans = .data 0 ∧ OnlyRegisters s u ∧ WordsBut [0x7F5204 + 0x20 * n.val] s u)))

/-- R11, R13: 0xC0 written to PAGE_COMMIT captures the page's RWS shadow contents as they stand, in place of a set captured
before; the set in effect stays. Any other value has no effect, and on a locked page the commit counts. The sets of pages B4, B7
and the access tables are checked at the write itself, and are refused, or taken at once, that of B4 by each port at its next
frame boundary (R12, R634, R659, R730). -/
def Obligations.CommitsCaptureTheShadow : Prop :=
  ∀ (s : State) (rq : Requester) (p : Page) (v : Word), p.wf = true → Accepted s rq (pageBase p + 0x10) false true p →
    (v.toNat % 256 ≠ 0xC0 → Completes (exec (.pageCommit rq p v) s) (fun u => u.reg = s.reg ∧ u.ans = .none ∧ OnlyRegisters s u)) ∧
    (v.toNat % 256 = 0xC0 → pageShadows p = true → pageLocked s p = true → Completes (exec (.pageCommit rq p v) s) (fun u =>
      fget u p HDR.VIOL_COUNT = (fget s p HDR.VIOL_COUNT + 1) % 2 ^ 32 ∧ OnlyRegisters s u ∧
      WordsBut [pageBase p + 0x34] s u)) ∧
    (v.toNat % 256 = 0xC0 → pageShadows p = true → pageLocked s p = false → p ≠ .pkg 4 → p ≠ .pkg 7 → p ≠ .pkg 9 →
      (∀ d, p ≠ .die d 7) → (∀ n, p ≠ .core n 11) → Completes (exec (.pageCommit rq p v) s) (fun u =>
        capturedOf u p = some ⟨shadowSet s p, false⟩ ∧ u.reg.regs = s.reg.regs ∧ u.reg.eff = s.reg.eff ∧
        (∀ q, pageBase q ≠ pageBase p → capturedOf u q = capturedOf s q) ∧ OnlyRegisters s u)) ∧
    (v.toNat % 256 = 0xC0 → pageShadows p = true → pageLocked s p = false →
      (setOk s p (shadowSet s p) = false →
        p = .pkg 4 ∨ p = .pkg 7 ∨ p = .pkg 9 ∨ (∃ d, p = .die d 7) ∨ (∃ n, p = .core n 11) →
        Completes (exec (.pageCommit rq p v) s) (fun u =>
          fget u p HDR.PAGE_STATUS_COMMIT_ERR = 1 ∧ capturedOf u p = none ∧ u.reg.eff = s.reg.eff ∧
          (p = .pkg 4 → u.ports.portPend = []))) ∧
      (setOk s p (shadowSet s p) = true →
        (p = .pkg 4 → Completes (exec (.pageCommit rq p v) s) (fun u =>
          u.reg.eff = s.reg.eff ∧ ∀ n, n < 4 → SMap.find u.ports.portPend n = some (shadowSet s p))) ∧
        (p = .pkg 7 ∨ p = .pkg 9 ∨ (∃ d, p = .die d 7) ∨ (∃ n, p = .core n 11) → SMap.sorted none s.reg.regs = true →
          Completes (exec (.pageCommit rq p v) s) (fun u =>
            capturedOf u p = none ∧ ∀ off, off < 0x1000 → effWord u p off = setWord s p (shadowSet s p) off))))

/-- R11, R12: at its page's safe point a captured set is checked. A set that fails is refused: the set in effect stays,
COMMIT_ERR is set and commit pending clears. A set that passes is in effect, word for word. Before the safe point nothing
happens. R730: at a frame boundary of a port the B4 set that waits for it takes effect for that port and for no other; a port
whose MODE or FEC changes loses its link. -/
def Obligations.CapturedSetsTakeEffect : Prop :=
  (∀ (s : State) (p : Page) (c : Captured), p.wf = true → capturedOf s p = some c → SMap.sorted none c.words = true →
     (∀ w ∈ c.words, w.1 < 0x1000) →
     (atSafePoint s p c = false → exec (.commitTakeEffect p) s = .next s) ∧
     (atSafePoint s p c = true → setOk s p c.words = false → Completes (exec (.commitTakeEffect p) s) (fun u =>
       fget u p HDR.PAGE_STATUS_COMMIT_ERR = 1 ∧ capturedOf u p = none ∧ u.reg.eff = s.reg.eff ∧ OnlyRegisters s u)) ∧
     (atSafePoint s p c = true → setOk s p c.words = true → Completes (exec (.commitTakeEffect p) s) (fun u =>
       (∀ off, off < 0x1000 → effWord u p off = setWord s p c.words off) ∧ capturedOf u p = none ∧
       (∀ d k, p ≠ .cl d k 0) → ∀ q off, off < 0x1000 → pageBase q ≠ pageBase p → effWord u q off = effWord s q off))) ∧
  (∀ (s : State) (n : Fin 4) (ws : List (Nat × Word)), SMap.find s.ports.portPend n.val = some ws →
     Completes (exec (.portSetTakeEffect n) s) (fun u =>
       SMap.find u.ports.portEff n.val = some ws ∧ SMap.find u.ports.portPend n.val = none ∧
       (∀ m, m ≠ n.val → SMap.find u.ports.portEff m = SMap.find s.ports.portEff m ∧
         SMap.find u.ports.portPend m = SMap.find s.ports.portPend m) ∧
       (portMode u n.val ≠ portMode s n.val → fget u (.pkg 4) (PB4.PORT_STATUS_LINK n.val) = 0) ∧ SameBytes s u ∧ u.ctx = s.ctx))

/-! ### Time -/

/-- Only the time base, its page, and the vectors that follow may differ. -/
def TimeOnly (s u : State) : Prop :=
  { u with tb := s.tb, reg := s.reg, ans := s.ans, msix := s.msix, err.inj := s.err.inj } = s ∧ WordsBut (pageWords (.pkg 2)) s u

/-- The word that counts records lost to a full queue (R598). -/
def recordWords : List Nat := [pageBase (.pkg 10) + PB10.HIST_LOST.off]

/-- The register OFFSET for an offset in 2^-16 ns: whole nanoseconds, towards zero, saturated. -/
def offsetWord (o : Int) : Nat := wrap 32 (satS 32 (o.tdiv 65536))

/-- The discipline state after an offset sample (R47). -/
def discAfter (s : State) (o : Int) : Nat :=
  let lock := fget s (.pkg 2) PB2.LOCK_THRESH * 65536
  if discState s = 1 then (if o.natAbs ≤ lock ∧ 15 ≤ s.tb.inLock then 2 else 1)
  else if discState s = 2 then (if 4 * lock < o.natAbs then 1 else 2)
  else 1

/-- What a valid offset sample leaves (R47 to R49): OFFSET and the discipline state; memory as it was; and device time as it was
unless the sample comes in ACQUIRING and is beyond STEP_THRESH, when device time is stepped by it. -/
def Sampled (s u : State) (o : Int) : Prop :=
  fget u (.pkg 2) PB2.OFFSET = offsetWord o ∧ discState u = discAfter s o ∧ u.mem = s.mem ∧
  u.tb.dev = (if discState s = 1 ∧ fget s (.pkg 2) PB2.STEP_THRESH * 65536 < o.natAbs then ((s.tb.dev : Int) - o * 65536).toNat
    else s.tb.dev)

/-- R47 to R54: TIME_CMD SET loads the time, unless LOCKED or with a nanoseconds value too great, and ARM_PPS names the next edge's
second; an edge on PPS_IN is a sample of that second, or is rejected where it comes too early or too late; a whole second pulses
PPS_OUT; and after DISC_TIMEOUT without a sample the state becomes TIME_HOLD. -/
def Obligations.DeviceTimeFollowsItsSource : Prop :=
  ∀ (s : State) (rq : Requester),
    let p := Page.pkg 2
    let sec := fget s p PB2.SET_SEC_HI * 2 ^ 32 + fget s p PB2.SET_SEC_LO
    (Accepted s rq 0x7F2064 false true p → (discState s = 2 ∨ 1000000000 ≤ fget s p PB2.SET_NS) →
      Completes (exec (.set rq) s) (fun u => fget u p HDR.VIOL_COUNT = (fget s p HDR.VIOL_COUNT + 1) % 2 ^ 32 ∧
        OnlyRegisters s u ∧ WordsBut [pageBase p + 0x34] s u)) ∧
    (Accepted s rq 0x7F2064 false true p → discState s ≠ 2 → fget s p PB2.SET_NS < 1000000000 →
      Completes (exec (.set rq) s) (fun u => u.tb.dev = sec * oneSec + fget s p PB2.SET_NS * 2 ^ 32 ∧
        bit (rawWord u p 0x14) 2 = true ∧ u.ans = .none ∧ u.mem = s.mem ∧ u.core = s.core)) ∧
    (Accepted s rq 0x7F2064 false true p → Completes (exec (.armPps rq) s) (fun u =>
      u.tb = { s.tb with armed := some sec } ∧ u.reg = s.reg ∧ TimeOnly s u)) ∧
    (timeSource s = 2 → ∀ t n, s.tb.lastPps = some (t, n) → (discState s = 1 ∨ discState s = 2) →
      (s.now < t + 900000000 ∨ t + 1100000000 < s.now) → Completes (exec .ppsInEdge s) (fun u =>
        fget u p PB2.PPS_REJECT = (fget s p PB2.PPS_REJECT + 1) % 2 ^ 32 ∧ u.tb = s.tb ∧ TimeOnly s u)) ∧
    (timeSource s = 2 → (∀ t n, s.tb.lastPps = some (t, n) → ¬ (discState s = 1 ∨ discState s = 2) ∨
        (t + 900000000 ≤ s.now ∧ s.now ≤ t + 1100000000)) →
      let n := match s.tb.armed, s.tb.lastPps with
        | some n, _ => n
        | none, some (_, n) => n + 1
        | none, none => (s.tb.dev + oneSec / 2) / oneSec
      Completes (exec .ppsInEdge s) (fun u => u.tb.lastPps = some (s.now, n) ∧ u.tb.armed = none ∧
        Sampled s u ((s.tb.dev / 65536 : Nat) - (n * 1000000000 * 65536 : Nat)))) ∧
    (timeSource s ≠ 2 → exec .ppsInEdge s = .next s) ∧
    (devSec s.tb.dev ≠ s.tb.ppsSec →
      let high := fbit s p PB2.PPS_OUT_CTRL_EN = true ∧ (discState s = 2 ∨ fbit s p PB2.PPS_OUT_CTRL_FREE = true) ∧
        fget s p PB2.PPS_OUT_CTRL_WIDTH ≠ 0
      Completes (exec .ppsOutPulse s) (fun u =>
      u.tb.ppsSec = devSec s.tb.dev ∧ (high → u.tb.ppsUntil = s.now + fget s p PB2.PPS_OUT_CTRL_WIDTH * 1000) ∧
      (¬ high → u.tb.ppsUntil = s.tb.ppsUntil) ∧ { u.tb with ppsSec := s.tb.ppsSec, ppsUntil := s.tb.ppsUntil } = s.tb ∧
      u.reg = s.reg ∧ TimeOnly s u)) ∧
    (∀ t, s.tb.lastSample = some t → (discState s = 1 ∨ discState s = 2) →
      t + max 1 (fget s p PB2.DISC_TIMEOUT) * 1000000 ≤ s.now → Completes (exec .discTimeoutExpire s) (fun u =>
        discState u = 3 ∧ bit (rawWord u p 0x14) 0 = true ∧ u.tb = s.tb ∧ WordsBut (pageWords p ++ recordWords) s u ∧
        { u with reg := s.reg, hist := s.hist, msix := s.msix, err.inj := s.err.inj } = s))

/-- The frames of port `n` do not pass to the other ring port. -/
def Unrelayed (s : State) (n : Fin 2) : Prop := pget s n.val PB4.PORTS_CTRL ≠ 1

/-- Frames pass between the ring ports, and correction fields are changed. -/
def Relayed (s : State) (n : Fin 2) : Prop := pget s n.val PB4.PORTS_CTRL = 1 ∧ ebit s (.pkg 2) PB2.TIME_CTRL_TC_EN = true

/-- R55 to R62, R109: what the part does with the PTP messages of the ring ports. A message with impossible fields counts and is
not used; a Sync of the selected master is a sample, or waits for its Follow_Up; an Announce takes part in the selection of the
master; the delay messages measure the delays; requests are answered and sent; relayed messages are corrected, and residence
entries end after their second. -/
def Obligations.PtpMessagesAreUsedAndRelayed : Prop :=
  ∀ (s : State) (n : Fin 2) (m : PtpMsg) (ing eg : Int),
    let p := Page.pkg 2
    let typed := fun (k : Nat) => { m with typ := k }
    let rejects := fun (c : Instr) => Completes (exec c s) (fun u =>
      fget u p PB2.PTP_REJECT = (fget s p PB2.PTP_REJECT + 1) % 2 ^ 32 ∧ u.tb = s.tb ∧ TimeOnly s u)
    let delay := if n = 0 then PB2.LINK_DELAY0 else PB2.LINK_DELAY1
    let r := eg - ing
    let d := if ptpProfile s = 0 then 0 else linkDelay s n.val
    -- impossible fields
    (Unrelayed s n → ptpValid (typed 0) = false → rejects (.sync n m ing (some eg))) ∧
    (Unrelayed s n → ptpValid (typed 8) = false → rejects (.followUp n m)) ∧
    (Unrelayed s n → ptpValid (typed 9) = false → rejects (.delayResp n m)) ∧
    (Unrelayed s n → ptpValid (typed 11) = false → rejects (.announce n m)) ∧
    (ptpValid (typed 2) = false → rejects (.pdelayReq n m ing eg)) ∧
    (ptpValid (typed 3) = false → rejects (.pdelayResp n m ing)) ∧
    (ptpValid (typed 10) = false → rejects (.pdelayRespFollowUp n m)) ∧
    -- a one-step Sync of the master, its delay known, and a two-step one
    (Unrelayed s n → ptpUsed s (typed 0) = true → fromMaster s n.val m = true → ptpProfile s ≠ 2 → m.twoStep = false →
      timeSource s = 1 → ∀ k, masterDelay s n.val = some k → Completes (exec (.sync n m ing (some eg)) s) (fun u =>
        u.tb.lastSync = some (ing, m.stamp * 65536 + m.corr) ∧ Sampled s u (ing - (m.stamp * 65536 + m.corr) - k))) ∧
    (Unrelayed s n → ptpUsed s (typed 0) = true → fromMaster s n.val m = true → m.twoStep = true →
      Completes (exec (.sync n m ing (some eg)) s) (fun u =>
        u.tb = { s.tb with twoStep := some (n.val, m.seq, m.src, ing, m.corr) } ∧ u.reg = s.reg ∧ TimeOnly s u)) ∧
    -- the Follow_Up of that Sync
    (Unrelayed s n → ptpUsed s (typed 8) = true → fromMaster s n.val m = true → timeSource s = 1 →
      ∀ t c k, s.tb.twoStep = some (n.val, m.seq, m.src, t, c) → masterDelay s n.val = some k →
      Completes (exec (.followUp n m) s) (fun u => u.tb.twoStep = none ∧
        u.tb.lastSync = some (t, m.stamp * 65536 + c + m.corr) ∧ Sampled s u (t - (m.stamp * 65536 + c + m.corr) - k))) ∧
    -- an Announce
    (Unrelayed s n → ptpUsed s (typed 11) = true →
      let heard := s.tb.heard.filter (fun x => !(x.1 = n.val && x.2.src = m.src)) ++ [(n.val, typed 11)]
      Completes (exec (.announce n m) s) (fun u => u.tb.heard = heard ∧ u.tb.master = bestMaster heard ∧
        (∀ q b, bestMaster heard = some (q, b) → s.tb.master = none →
          fget u p PB2.TIME_STATUS_MASTER_VALID = 1 ∧ fget u p PB2.TIME_STATUS_MASTER_PORT = q % 2) ∧
        u.tb.dev = s.tb.dev ∧ TimeOnly s u)) ∧
    -- the delay messages
    (Unrelayed s n → ptpUsed s (typed 9) = true → fromMaster s n.val m = true → ptpProfile s = 0 → m.reqId = ownPortId s n.val →
      ∀ t2 origin t3, SMap.find s.tb.delayReq n.val = some (m.seq, t3) → s.tb.lastSync = some (t2, origin) →
      timeSource s ≠ 1 → Completes (exec (.delayResp n m) s) (fun u =>
        u.tb.pathDelay = some (((t2 - origin) + (m.stamp * 65536 - m.corr - t3)).tdiv 2) ∧
        SMap.find u.tb.delayReq n.val = none ∧ u.tb.dev = s.tb.dev ∧ TimeOnly s u)) ∧
    (ptpUsed s (typed 3) = true → m.reqId = ownPortId s n.val → ∀ t1, (pdelayAt s n.val).req = some (m.seq, t1) →
      (m.twoStep = true → Completes (exec (.pdelayResp n m ing) s) (fun u =>
        pdelayAt u n.val = { pdelayAt s n.val with resp := some (m.seq, m.stamp * 65536, ing, m.corr) } ∧ u.reg = s.reg ∧
        TimeOnly s u)) ∧
      (m.twoStep = false → (ptpProfile s = 0 ∨ timeSource s ≠ 1) → Completes (exec (.pdelayResp n m ing) s) (fun u =>
        fget u p delay = wrap 32 ((ing - t1 - m.corr).tdiv 2) ∧ (pdelayAt u n.val).measured = true ∧ TimeOnly s u))) ∧
    (ptpUsed s (typed 10) = true → (ptpProfile s = 0 ∨ timeSource s ≠ 1) → m.reqId = ownPortId s n.val → ∀ q t1 t2 t4 c,
      (pdelayAt s n.val).req = some (q, t1) → (pdelayAt s n.val).resp = some (m.seq, t2, t4, c) →
      Completes (exec (.pdelayRespFollowUp n m) s) (fun u =>
        fget u p delay = wrap 32 ((t4 - t1 - (m.stamp * 65536 - t2) - c - m.corr).tdiv 2) ∧
        (pdelayAt u n.val).measured = true ∧ TimeOnly s u)) ∧
    (ptpUsed s (typed 2) = true → ptpProfile s ≠ 0 → m.corr ≠ 0x7FFFFFFFFFFFFFFF → m.corr + r ≤ 0x7FFFFFFFFFFFFFFF →
      -0x8000000000000000 ≤ m.corr + r → Completes (exec (.pdelayReq n m ing eg) s) (fun u =>
        u.tb = { s.tb with sent := (n.val, { m with typ := 3, corr := m.corr + r, twoStep := false, stamp := 0,
                                                    src := ownPortId s n.val, reqId := m.src }) :: s.tb.sent } ∧
        u.reg = s.reg ∧ TimeOnly s u)) ∧
    -- requests of the part's own
    ((∀ t, s.tb.reqAt = some t → t + reqInterval s ≤ s.now) → ∀ q b, ptpProfile s = 0 → s.tb.master = some (q, b) →
      Completes (exec .ptpRequestInterval s) (fun u =>
        u.tb.sent = (q, ownRequest s 1 q) :: s.tb.sent ∧ u.tb.reqAt = some s.now ∧ u.tb.reqSeq = s.tb.reqSeq % 65536 + 1 ∧
        SMap.find u.tb.delayReq q = some (s.tb.reqSeq % 65536, ((s.tb.dev / 65536 : Nat) : Int)) ∧ u.reg = s.reg ∧ TimeOnly s u)) ∧
    (∀ t, s.tb.reqAt = some t → s.now < t + reqInterval s → exec .ptpRequestInterval s = .next s) ∧
    -- relay: a one-step Sync, a Follow_Up without an entry, the release of a held Follow_Up, and the end of entries
    (Relayed s n → ptpValid (typed 0) = true → ptpUsed s (typed 0) = false → m.twoStep = false → ptpProfile s ≠ 2 →
      m.corr ≠ 0x7FFFFFFFFFFFFFFF → m.corr + (r + d) ≤ 0x7FFFFFFFFFFFFFFF → -0x8000000000000000 ≤ m.corr + (r + d) →
      Completes (exec (.sync n m ing (some eg)) s) (fun u =>
        u.tb = { s.tb with sent := (1 - n.val, { m with typ := 0, corr := m.corr + (r + d) }) :: s.tb.sent } ∧ TimeOnly s u)) ∧
    (Relayed s n → ptpValid (typed 8) = true → ptpUsed s (typed 8) = false → s.tb.resid.find? (residFor n.val (typed 8)) = none →
      Completes (exec (.followUp n m) s) (fun u =>
        u.tb = { s.tb with sent := (1 - n.val, typed 8) :: s.tb.sent } ∧
        fget u p PB2.FU_NOMATCH = (fget s p PB2.FU_NOMATCH + 1) % 2 ^ 32 ∧ bit (rawWord u p 0x14) 4 = true ∧ TimeOnly s u)) ∧
    (∀ e f, s.tb.resid = [e] → residFor n.val m e = true → e.resid = none → s.tb.heldFu = [(n.val, f)] →
      residFor n.val f e = true → ptpProfile s ≠ 2 → f.corr ≠ 0x7FFFFFFFFFFFFFFF → f.corr + (r + d) ≤ 0x7FFFFFFFFFFFFFFF →
      -0x8000000000000000 ≤ f.corr + (r + d) → Completes (exec (.followUpRelease n m ing eg) s) (fun u =>
        u.tb = { s.tb with resid := [], heldFu := [], sent := (1 - n.val, { f with corr := f.corr + (r + d) }) :: s.tb.sent } ∧
        TimeOnly s u)) ∧
    Completes (exec .residenceEntryExpire s) (fun u =>
      (∀ e, e ∈ u.tb.resid ↔ e ∈ s.tb.resid ∧ s.now < e.made + 1000000000) ∧ u.tb = { s.tb with resid := u.tb.resid } ∧
      u.reg = s.reg ∧ TimeOnly s u)

/-! ### The newel angle, triggers and captures -/

/-- Only the stair schedule's own state, its page, the history and the vectors may differ. -/
def StairOnly (s u : State) : Prop :=
  { u with stair := s.stair, reg := s.reg, hist := s.hist, msix := s.msix, err.inj := s.err.inj } = s ∧
    WordsBut (pageWords (.pkg 3) ++ recordWords) s u

/-- R65 to R70, R83 to R88: a quadrature edge advances the counted angle by a turn divided by CPR, and the newel angle never
falls; an index reference is rejected or corrected through catch-up; loss of the source sets HOLDOVER, and catch-up ends below a
difference of 16 units; triggers fire at their time or angle; captures take their selected edges into the FIFO. -/
def Obligations.AnglesTriggersAndCaptures : Prop :=
  ∀ (s : State),
    let p := Page.pkg 3
    let cpr := eget s p PB3.ENC_CPR_CPR
    let dz := angleDiff (eget s p PB3.ENC_Z_ANGLE * 65536) s.stair.encAngle
    (∀ a b, Completes (exec (.encoderEdge a b) s) (fun u => u.stair.encA = a ∧ u.stair.encB = b ∧
      s.stair.angle ≤ u.stair.angle ∧ StairOnly s u)) ∧
    (∀ a b, newelSrc s = 1 → cpr ≠ 0 → s.stair.encBack = 0 → eget s p PB3.ENC_CPR_DIR = 0 →
      (s.stair.encA, s.stair.encB, a, b) ∈ [(false, false, true, false), (true, false, true, true), (true, true, false, true),
        (false, true, false, false)] →
      Completes (exec (.encoderEdge a b) s) (fun u =>
        u.stair.encAngle = s.stair.encAngle + (2 ^ 32 + s.stair.encRem) / cpr ∧ u.stair.sampleAt = some s.now ∧
        u.stair.encRem = (2 ^ 32 + s.stair.encRem) % cpr ∧ StairOnly s u)) ∧
    (newelSrc s = 1 → 4 * 2 ^ 32 < dz.natAbs * cpr → Completes (exec .encoderIndex s) (fun u =>
      Counts s u p PB3.NEWEL_REJECT 1 ∧ Raised u p 4 ∧ u.stair = { s.stair with agreed := 0 } ∧ StairOnly s u)) ∧
    (newelSrc s = 1 → dz.natAbs * cpr ≤ 4 * 2 ^ 32 → Completes (exec .encoderIndex s) (fun u =>
      u.stair.encAngle = (s.stair.encAngle + dz).toNat ∧ u.stair.angle = s.stair.angle ∧
      (16 * 65536 ≤ dz.natAbs → catchup u = true) ∧ StairOnly s u)) ∧
    (∀ t, s.stair.sampleAt = some t → newelSrc s ≠ 2 → t + eget s p PB3.NEWEL_TIMEOUT * 1000 ≤ s.now → holdover s = false →
      Completes (exec .newelTimeoutExpire s) (fun u => holdover u = true ∧ catchup u = false ∧ u.stair.sample = none ∧
        Counts s u p PB3.HOLDOVER_COUNT 1 ∧ Raised u p 2 ∧ u.stair.angle = s.stair.angle ∧ StairOnly s u)) ∧
    (catchup s = true → (sourceDiff s).natAbs < 16 * 65536 → Completes (exec .catchupDone s) (fun u =>
      catchup u = false ∧ holdover u = false ∧ u.stair.angle = s.stair.angle ∧ StairOnly s u)) ∧
    (∀ n : Fin 8, let t := trigAt s n.val
      let q := Page.pkg 5
      let fired := fun (u : State) => Counts s u q (PB5.TRIG_STATUS_FIRED n.val) 1 ∧ Raised u q (8 + n.val) ∧
        (∀ m, m ≠ n.val → trigAt u m = trigAt s m) ∧
        (eget s q (PB5.TRIG_WIDTH_NS n.val) ≠ 0 → (trigAt u n.val).until_ = s.now + eget s q (PB5.TRIG_WIDTH_NS n.val)) ∧
        { u with trig := s.trig, reg := s.reg, msix := s.msix, err.inj := s.err.inj } = s ∧ WordsBut (pageWords q) s u
      let per := eget s q (PB5.TRIG_PERIOD_NS n.val) * 2 ^ 32
      (∀ x, t.nextTime = some x → x ≤ s.tb.dev → Completes (exec (.triggerFire n) s) (fun u => fired u ∧
        (trigAt u n.val).nextTime = if per = 0 then none else some (x + per))) ∧
      (∀ a, t.nextTime = none → t.nextAngle = some a → a ≤ s.stair.angle → Completes (exec (.triggerFire n) s) (fun u => fired u ∧
        (trigAt u n.val).nextAngle = some (a + 2 ^ 32)))) ∧
    (∀ (n : Fin 4) (e : Bool), let q := Page.pkg 5
      bit (fget s q (PB5.CAP_CTRL_EDGE n.val)) (if e then 0 else 1) = true → (∀ t, (capAt s n.val).last = some t → t + 8 ≤ s.now) →
      let kept := fun (u : State) => (∀ m, m ≠ n.val → capAt u m = capAt s m) ∧ (capAt u n.val).last = some s.now ∧
        { u with cap := s.cap, reg := s.reg, msix := s.msix, err.inj := s.err.inj } = s ∧ WordsBut (pageWords q) s u
      ((capAt s n.val).fifo.length < 16 → Completes (exec (.captureEdge n e) s) (fun u =>
        (capAt u n.val).fifo = (capAt s n.val).fifo ++ [(s.tb.dev, e)] ∧ Raised u q (16 + n.val) ∧ kept u)) ∧
      (16 ≤ (capAt s n.val).fifo.length → Completes (exec (.captureEdge n e) s) (fun u =>
        (capAt u n.val).fifo = (capAt s n.val).fifo ∧ fget u q (PB5.CAP_CTRL_OVERFLOW n.val) = 1 ∧ Raised u q (20 + n.val) ∧
        kept u)))

/-- R73, R74, R77, R140, R151, R153, R159, R11: frame 0 opens at the first crossing of B after EN was set; a tread is cut when the
angle reaches its close angle, which is a safe point of every captured set; its barrier is complete when no point of it waits to
be placed; its merge empties its deferred points; its event comes only after both and in order, opens the next frame at tread 0
and lands the frame at the last tread; an older frame's index entries empty once no pinned job needs them; carries end in
order. -/
def Obligations.TreadsCloseInOrder : Prop :=
  ∀ (s : State),
    let p := Page.pkg 3
    (∀ a, s.stair.first = some a → ebit s p PB3.STAIR_CTRL_EN = true →
      (s.stair.angle < a → exec .frame0Open s = .next s) ∧
      (a ≤ s.stair.angle → Completes (exec .frame0Open s) (fun u =>
        (∃ g, u.stair.frame = some g ∧ g.no = 0 ∧ g.start = a ∧ g.b = eget s p PB3.TREAD0_ANGLE ∧
          g.code = eget s p PB3.STAIR_CTRL_TREADS) ∧
        u.stair.first = none ∧ u.stair.closing = [] ∧ u.stair.nextCut = 0 ∧ fget u p PB3.STAIR_STATUS_RUNNING = 1))) ∧
    (∀ f, s.stair.frame = some f → s.stair.cutAhead = false → ebit s p PB3.STAIR_CTRL_EN = true →
      let k := s.stair.nextCut
      (s.stair.angle < cutAngle f k → exec .treadCut s = .next s) ∧
      (cutAngle f k ≤ s.stair.angle → Completes (exec .treadCut s) (fun u =>
        u.stair.closing = s.stair.closing ++ [⟨f.no, k, homeDie f.code k, false, none⟩] ∧
        (k + 1 = treadsOf f.code → u.stair.cutAhead = true ∧ u.stair.nextCut = 0) ∧
        (k + 1 ≠ treadsOf f.code → u.stair.cutAhead = false ∧ u.stair.nextCut = k + 1) ∧
        (∀ q c, capturedOf u q = some c → c.cutSeen = true) ∧ (∀ q, (capturedOf u q).isSome = (capturedOf s q).isSome) ∧
        { u.stair with closing := s.stair.closing, cutAhead := s.stair.cutAhead, nextCut := s.stair.nextCut } = s.stair ∧
        { u with stair := s.stair, reg.captured := s.reg.captured, msix := s.msix, err.inj := s.err.inj } = s))) ∧
    (∀ pre c post, s.stair.closing = pre ++ c :: post → (∀ x ∈ pre, x.barrier = true) → c.barrier = false →
      (barrierClear s c = false → exec .pointFrontBarrierDone s = .next s) ∧
      (barrierClear s c = true → Completes (exec .pointFrontBarrierDone s) (fun u =>
        u.stair = { s.stair with closing := pre ++ { c with barrier := true } :: post } ∧
        { u with stair := s.stair, msix := s.msix, err.inj := s.err.inj } = s))) ∧
    (∀ (d : Fin 2) pre c post, s.stair.closing = pre ++ c :: post → (∀ x ∈ pre, mergesOn d.val x = false) →
      mergesOn d.val c = true → outOfService s (.point d.val) = false →
      (mergeMay s c = false → exec (.alcoveMergeDone d) s = .next s) ∧
      (mergeMay s c = true → Completes (exec (.alcoveMergeDone d) s) (fun u =>
        (∃ m, u.stair = { s.stair with closing := pre ++ { c with merged := some m } :: post }) ∧
        (hallAt u d.val).alcove = (hallAt s d.val).alcove.filter (fun e => !(e.1 = c.frame && e.2.tread = c.tread)) ∧
        (hallAt u d.val).ovf = (hallAt s d.val).ovf.filter (fun e => !(e.1 = c.frame && e.2.tread = c.tread)) ∧
        (∀ e, e ≠ d.val → hallAt u e = hallAt s e) ∧ u.ctx = s.ctx ∧ u.core = s.core))) ∧
    (∀ f c rest, s.stair.frame = some f → s.stair.closing = c :: rest →
      (eventMay s c = false → exec .treadEvent s = .next s) ∧
      (eventMay s c = true → Completes (exec .treadEvent s) (fun u =>
        u.stair.closing = rest ∧ fget u p PB3.STAIR_STATUS_LAST_CLOSED = c.tread % 2 ^ 8 ∧
        fget u p PB3.STAIR_STATUS_CLOSED_ANY = 1 ∧ fget u p PB3.CLOSE_NS = devNsCount s % 1000000000 ∧ Raised u p 0 ∧
        (c.tread = 0 → ∃ g, u.stair.ahead = some g ∧ g.no = (f.no + 1) % 2 ^ 32) ∧
        (c.tread + 1 = treadsOf f.code → u.stair.frame.map StairFrame.no = s.stair.ahead.map StairFrame.no ∧
          u.stair.ahead = none ∧ Raised u p 1)))) ∧
    (∀ (d : Fin 2) g, (hallAt s d.val).emptying = some g →
      (pinnedJob s g = true → exec (.indexEmpty d) s = .next s) ∧
      (pinnedJob s g = false → Completes (exec (.indexEmpty d) s) (fun u =>
        (hallAt u d.val).emptying = none ∧
        (hallAt u d.val).index = (hallAt s d.val).index.filter (fun e => bits e.2.toNat 21 1 ≠ g % 2) ∧
        (∀ e, e ≠ d.val → hallAt u e = hallAt s e) ∧ { u with hall := s.hall, reg := s.reg, msix := s.msix, err.inj := s.err.inj } = s))) ∧
    (∀ (d : Fin 2) e rest, (hallAt s d.val).carries = e :: rest → Completes (exec (.carryDone d) s) (fun u =>
      hallAt u d.val = { hallAt s d.val with carries := rest } ∧ (∀ k, k ≠ d.val → hallAt u k = hallAt s k) ∧
      { u with hall := s.hall, msix := s.msix, err.inj := s.err.inj } = s))

/-! ### Sensor ports and the ring bypass -/

/-- R97 to R122: frames are counted by what is wrong with them and errored ones are not used; a frame of the ring for another
station waits in the relay buffer of the other port, from which it leaves in order; links go up and down; a cause closes the
bypass and discards the buffers, and the bypass opens when the hold-off after the last cause has passed; and each second leaves a
record for every counter that rose. -/
def Obligations.PortsReceiveRelayAndBypass : Prop :=
  ∀ (s : State) (n : Fin 4) (e : Fin 2) (f : EthFrame),
    let p := Page.pkg 4
    let q := Page.pkg 5
    let bs := f.bytes.map BitVec.toNat
    let len := f.bytes.length + 4
    let counted := fun (u : State) (g : Fld) => Counts s u p g 1 ∧ Counts s u p (PB4.FEC_CORR n.val) f.fecCorr ∧
      { u with reg := s.reg, ports.rises := s.ports.rises, msix := s.msix, err.inj := s.err.inj } = s ∧ WordsBut (pageWords p) s u
    let errored := f.fcsOk = false ∨ f.pcsError = true
    let excess := pget s n.val (PB4.PORT_CTRL_MAX_FRAME n.val) < len
    let elsewhere := isLinkLocal bs = false ∧ fbe bs 0 6 ≠ portMac s n.val ∧ bit (fb bs 0) 0 = false
    (portReceives s n.val = false → exec (.ethernetFrameReceive n f) s = .next s) ∧
    (portReceives s n.val = true → f.fecUncorr = false →
      (len < 64 → Completes (exec (.ethernetFrameReceive n f) s) (fun u => counted u (PB4.RX_RUNT n.val) ∧ Raised u p (4 + n.val))) ∧
      (64 ≤ len → relays s n.val bs = false →
        (errored → Completes (exec (.ethernetFrameReceive n f) s) (fun u =>
          counted u (PB4.RX_FCS n.val) ∧ Raised u p (4 + n.val))) ∧
        (¬ errored → excess → Completes (exec (.ethernetFrameReceive n f) s) (fun u =>
          counted u (PB4.RX_OVERSIZE n.val) ∧ Raised u p (4 + n.val))) ∧
        (¬ errored → ¬ excess → elsewhere → Completes (exec (.ethernetFrameReceive n f) s) (fun u =>
          counted u (PB4.RX_GOOD n.val)))) ∧
      (64 ≤ len → ¬ errored → ¬ excess → elsewhere → relays s n.val bs = true → ptpOffset bs = none → len ≤ ringMax s →
        let waiting := SMap.getD s.ports.relay (1 - n.val) []
        SMap.find s.ports.begun (1 - n.val) = none → (waiting.map (fun g => g.bytes.length + 4)).sum + len ≤ 32768 →
        Completes (exec (.ethernetFrameReceive n f) s) (fun u =>
          SMap.getD u.ports.relay (1 - n.val) [] = waiting ++ [⟨bs, f.ts, false⟩] ∧
          SMap.getD u.ports.relay n.val [] = SMap.getD s.ports.relay n.val [] ∧ Counts s u p (PB4.RX_GOOD n.val) 1 ∧
          WordsBut (pageWords p) s u))) ∧
    (bypassClosed s = true → ∀ a, exec (.relayStart e a) s = .next s) ∧
    (∀ g rest a, bypassClosed s = false → SMap.find s.ports.begun e.val = none → SMap.find s.ports.relay e.val = some (g :: rest) →
      ptpOffset g.bytes = none → Completes (exec (.relayStart e a) s) (fun u =>
        u.ports.sent = (e.val, ⟨g.bytes, g.ts, false⟩) :: s.ports.sent ∧ SMap.find u.ports.relay e.val = some rest ∧
        Counts s u p (PB4.RELAY_FWD e.val) 1 ∧ WordsBut [pageBase p + (PB4.RELAY_FWD e.val).off] s u ∧
        { u with ports.sent := s.ports.sent, ports.relay := s.ports.relay, reg := s.reg, msix := s.msix, err.inj := s.err.inj } = s)) ∧
    (∀ up, s.byp.failover.contains n.val = false →
      let on := up && !(portMode s n.val = 0 || inReset s .pkg) && !(decide (n.val ≤ 1) && bypassClosed s)
      (fbit s p (PB4.PORT_STATUS_LINK n.val) = on → exec (.portLinkChange n up) s = .next s) ∧
      (fbit s p (PB4.PORT_STATUS_LINK n.val) ≠ on → Completes (exec (.portLinkChange n up) s) (fun u =>
        fbit u p (PB4.PORT_STATUS_LINK n.val) = on ∧ Raised u p n.val ∧ OnlyRegisters s u ∧
        WordsBut [pageBase p + (PB4.PORT_STATUS_LINK n.val).off, pageBase p + 0x14] s u))) ∧
    Completes (exec (.bypassForceChange true) s) (fun u => bypassClosed u = true ∧ u.byp.pin = true ∧ u.byp.holdoff = none ∧
      (bypassClosed s = false → u.ports.relay = [] ∧ u.ports.begun = [] ∧ Counts s u q PB5.BYP_CLOSE_COUNT 1 ∧ Raised u q 0) ∧
      u.mem = s.mem ∧ u.ctx = s.ctx) ∧
    (bypassClosed s = true → bypassCauses { s with byp.pin := false } = 0 → s.byp.holdoff = none →
      fget s q PB5.BYP_CTRL_HOLDOFF_MS ≠ 0 → Completes (exec (.bypassForceChange false) s) (fun u =>
        bypassClosed u = true ∧ u.byp.holdoff = some (s.now + fget s q PB5.BYP_CTRL_HOLDOFF_MS * 1000000) ∧
        u.mem = s.mem ∧ u.ctx = s.ctx)) ∧
    (∀ t, s.byp.holdoff = some t → t ≤ s.now → bypassCauses s = 0 → Completes (exec .holdoffExpire s) (fun u =>
      bypassClosed u = false ∧ u.byp.holdoff = none ∧ Raised u q 1 ∧ u.mem = s.mem ∧ u.ctx = s.ctx)) ∧
    (devSec s.tb.dev ≠ s.ports.second → s.hist.queue.length + s.ports.rises.length ≤ 64 →
      Completes (exec .violationRecordSecond s) (fun u =>
        u.ports.rises = [] ∧ u.ports.second = devSec s.tb.dev ∧
        (∃ rs, u.hist.queue = s.hist.queue ++ rs ∧ rs.map (fun r => (r.kind, r.arg1)) =
          s.ports.rises.map (fun r => (0x03, r.2 % 2 ^ 32))) ∧
        { u with ports.rises := s.ports.rises, ports.second := s.ports.second, hist := s.hist, msix := s.msix,
                 err.inj := s.err.inj } = s))

/-! ### Point Fronts, Voxel Halls and engines -/

/-- R148, R150, R153, R155, R588: the point at the head of a die's probe input is offered to its cell. A key with a cell updates
that cell's record; a key without one takes the first empty entry of its window and the slot's next cell number; with neither,
or while an older frame's entries stand in the way, the point is deferred. A Hall that has stopped refuses it. -/
def Obligations.PointsAreProbedInOrder : Prop :=
  ∀ (s : State) (d : Fin 2) (f : Nat) (c : Cell) (rest : List (Nat × Cell)),
    let h := hallAt s d.val
    let p := Page.die d.val 2
    h.queue = (f, c) :: rest →
    let kept := fun (u : State) => (∀ e, e ≠ d.val → hallAt u e = hallAt s e) ∧
      { u with hall := s.hall, mem := s.mem, reg := s.reg, msix := s.msix, err.inj := s.err.inj } = s ∧
      WordsBut (pageWords (.die d.val 1) ++ pageWords p) s u
    let header := slotBase s d.val (f % 4) + 4
    let deferred := fun (u : State) => BytesBut header 4 s u ∧
      (h.alcove.length < 65536 → (hallAt u d.val).alcove = h.alcove ++ [(f, c)] ∧ (hallAt u d.val).ovf = h.ovf ∧
        Counts s u p DB2.ALCOVE_IN 1 ∧ Raised u p 0) ∧
      (65536 ≤ h.alcove.length → (hallAt u d.val).alcove = h.alcove ∧ (hallAt u d.val).ovf = h.ovf ++ [(f, c)] ∧
        Counts s u p DB2.DRAM_OVF_IN 1 ∧ Raised u p 1) ∧
      (hallAt u d.val).queue = rest ∧ (hallAt u d.val).index = h.index ∧ kept u
    (slotFor s d.val f = none → Completes (exec (.pointProbe d) s) (fun u =>
      hallAt u d.val = { h with queue := rest } ∧ SameBytes s u ∧ u.reg = s.reg ∧ kept u)) ∧
    (∀ x, slotFor s d.val f = some x →
      (hallStopped s d.val = true → Completes (exec (.pointProbe d) s) (fun u =>
        hallAt u d.val = { h with queue := rest } ∧ Counts s u (.die d.val 1) DB1.HALL_DOWN 1 ∧ Raised u (.die d.val 1) 3 ∧
        SameBytes s u ∧ kept u)) ∧
      (hallStopped s d.val = false → (∃ g, h.emptying = some g ∧ g % 2 = f % 2) →
        Completes (exec (.pointProbe d) s) deferred) ∧
      (hallStopped s d.val = false → (∀ g, h.emptying = some g → g % 2 ≠ f % 2) →
        (∀ n, indexFind s d.val x c.key = some n → Completes (exec (.pointProbe d) s) (fun u =>
          rdBytes u (cellAddr s d.val (f % 4) n) 32 =
            (combine s d.val x (readCell s d.val (f % 4) n) c false).bytes.map (· % 256) ∧
          BytesBut (cellAddr s d.val (f % 4) n) 32 s u ∧ hallAt u d.val = { h with queue := rest } ∧ Counts s u p DB2.PLACED 1 ∧
          kept u)) ∧
        (∀ i tag, indexFind s d.val x c.key = none → indexFree s d.val x c.key = some (i, tag) →
          Completes (exec (.pointProbe d) s) (fun u =>
            rdBytes u (cellAddr s d.val (f % 4) x.cells) 32 = ({ c with feat := 0xFFFFFFFF }).bytes.map (· % 256) ∧
            BytesBut (cellAddr s d.val (f % 4) x.cells) 32 s u ∧
            indexAt u d.val i = (tag * 2 ^ 22 + f % 2 * 2 ^ 21 + x.cells) % 2 ^ 32 ∧
            (∀ j, j % indexSize ≠ i % indexSize → indexAt u d.val j = indexAt s d.val j) ∧
            slotFor u d.val f = some { x with cells := x.cells + 1 } ∧ (hallAt u d.val).queue = rest ∧
            Counts s u p DB2.CELLS_NEW 1 ∧ Counts s u p DB2.PLACED 1 ∧ kept u)) ∧
        (indexFind s d.val x c.key = none → indexFree s d.val x c.key = none → Completes (exec (.pointProbe d) s) deferred)))

/-- R133, R134, R168, R169, R674: writes of EGO_WR, EGO_WR_BOTH and REPLAY_WR set where the host has written up to; the next
ego-motion sample is read, and the newest 64 valid and later samples are held; a replay entry waits for its time, one that is
not VALID sends REPLAY_RD to 0, and one that the Point Front does not use counts in REPLAY_DROP. -/
def Obligations.RingsAreReadUpToTheirWriters : Prop :=
  ∀ (s : State) (d : Fin 2),
    let p := Page.die d.val 1
    (∀ rq v, Accepted s rq (pageBase p + 0x5C) false true p → Completes (exec (.egoWrWrite rq d v) s) (fun u =>
      fget u p DB1.EGO_WR = v.toNat % 2 ^ 16 ∧ u.ans = .none ∧ OnlyRegisters s u ∧ WordsBut [pageBase p + 0x5C] s u)) ∧
    (∀ rq v, Accepted s rq 0x7F7054 false true (.pkg 7) → Completes (exec (.egoWrBothWrite rq v) s) (fun u =>
      (∀ e, e < 2 → fget u (.die e 1) DB1.EGO_WR =
        if pageStubbed s (.die e 1) then fget s (.die e 1) DB1.EGO_WR else v.toNat % 2 ^ 16) ∧
      u.ans = .none ∧ OnlyRegisters s u ∧ WordsBut [pageBase (.die 0 1) + 0x5C, pageBase (.die 1 1) + 0x5C] s u)) ∧
    (∀ rq v, Accepted s rq (pageBase p + 0x70) false true p → Completes (exec (.replayWrWrite rq d v) s) (fun u =>
      fget u p DB1.REPLAY_WR = v.toNat ∧ u.ans = .none ∧ OnlyRegisters s u ∧ WordsBut [pageBase p + 0x70] s u)) ∧
    (outOfService s (.point d.val) = false →
      let fr := frontAt s d.val
      let n := eget s p DB1.EGO_SIZE
      let i := fr.egoRd % n
      let g := eget s p DB1.EGO_BASE_LO + eget s p DB1.EGO_BASE_HI * 2 ^ 32 + 48 * i
      let bad := fun (b : List Nat) => (egoSample b).1 = false ∨ ∃ x ∈ fr.ego.head?, (egoSample b).2.t ≤ x.t
      let kept := fun (u : State) => (∀ e, e ≠ d.val → frontAt u e = frontAt s e) ∧
        { u with front := s.front, reg := s.reg, msix := s.msix, err.inj := s.err.inj } = s ∧
        WordsBut [pageBase p + DB1.EGO_BAD.off, pageBase p + 0x14] s u
      (n ≠ 0 → i = fget s p DB1.EGO_WR % n → exec (.egoSampleRead d) s = .next s) ∧
      (n ≠ 0 → i ≠ fget s p DB1.EGO_WR % n →
        (∀ b, frontRead s g 48 = (some b, s) → ¬ bad b → Completes (exec (.egoSampleRead d) s) (fun u =>
          frontAt u d.val = { fr with egoRd := (i + 1) % n, ego := ((egoSample b).2 :: fr.ego).take 64 } ∧ u.reg = s.reg ∧
          kept u)) ∧
        (∀ b, frontRead s g 48 = (some b, s) → bad b → Completes (exec (.egoSampleRead d) s) (fun u =>
          frontAt u d.val = { fr with egoRd := (i + 1) % n } ∧ Counts s u p DB1.EGO_BAD 1 ∧
          Raised u p 2 ∧ kept u)) ∧
        (frontRead s g 48 = (none, s) → Completes (exec (.egoSampleRead d) s) (fun u =>
          frontAt u d.val = { fr with egoRd := (i + 1) % n } ∧ Counts s u p DB1.EGO_BAD 1 ∧
          Raised u p 2 ∧ kept u)))) ∧
    (outOfService s (.point d.val) = false → quiescing s p = false → ebit s p DB1.PF_CTRL_REPLAY_EN = true →
      let rd := fget s p DB1.REPLAY_RD
      let base := eget s p DB1.REPLAY_BASE_LO + eget s p DB1.REPLAY_BASE_HI * 2 ^ 32
      let shift := sext 64 (eget s p DB1.REPLAY_SHIFT_LO + eget s p DB1.REPLAY_SHIFT_HI * 2 ^ 32)
      let moved := fun (u : State) => fget u p DB1.REPLAY_RD = 0 ∧ OnlyRegisters s u ∧
        WordsBut [pageBase p + DB1.REPLAY_RD.off, pageBase p + DB1.REPLAY_DROP.off, pageBase p + 0x14] s u
      (rd = fget s p DB1.REPLAY_WR → exec (.replayRelease d) s = .next s) ∧
      (∀ h, rd ≠ fget s p DB1.REPLAY_WR → frontRead s (base + rd) 16 = (some h, s) →
        let len := leNat ((h.drop 0xA).take 2)
        let ext := (16 + len + 63) / 64 * 64
        let due : Int := ((leNat ((h.drop 4).take 4) + leNat ((h.drop 8).take 2) * 2 ^ 32) * 1000000000 +
          leNat (h.take 4) : Nat) + shift
        let fits := 60 ≤ len ∧ len ≤ 9212 ∧ rd + ext ≤ eget s p DB1.REPLAY_SIZE
        (bit (leNat ((h.drop 0xD).take 1)) 0 = false → Completes (exec (.replayRelease d) s) (fun u =>
          moved u ∧ fget u p DB1.REPLAY_DROP = fget s p DB1.REPLAY_DROP ∧ rawWord u p 0x14 = rawWord s p 0x14)) ∧
        (bit (leNat ((h.drop 0xD).take 1)) 0 = true → ¬ fits → Completes (exec (.replayRelease d) s) (fun u =>
          moved u ∧ Counts s u p DB1.REPLAY_DROP 1 ∧ Raised u p 5)) ∧
        (bit (leNat ((h.drop 0xD).take 1)) 0 = true → fits → (devNsCount s : Int) < due →
          exec (.replayRelease d) s = .next s) ∧
        (∀ bs, bit (leNat ((h.drop 0xD).take 1)) 0 = true → fits → due ≤ devNsCount s →
          frontBlocks s (base + rd) (ext / 64) = (some bs, s) →
          let n := leNat ((h.drop 0xC).take 1)
          let frame := (bs.drop 16).take len
          let nx := if rd + ext = eget s p DB1.REPLAY_SIZE then 0 else rd + ext
          (4 ≤ n ∨ n / 2 ≠ d.val ∨ (ptpOffset frame).isSome = true → Completes (exec (.replayRelease d) s) (fun u =>
            fget u p DB1.REPLAY_RD = nx % 2 ^ 32 ∧ Counts s u p DB1.REPLAY_DROP 1 ∧ Raised u p 5 ∧ OnlyRegisters s u ∧
            WordsBut [pageBase p + DB1.REPLAY_RD.off, pageBase p + DB1.REPLAY_DROP.off, pageBase p + 0x14] s u)) ∧
          (n < 4 → n / 2 = d.val → (ptpOffset frame).isSome = false → Completes (exec (.replayRelease d) s) (fun u =>
            fget u p DB1.REPLAY_RD = nx % 2 ^ 32 ∧ u.core = s.core ∧ u.ctx = s.ctx ∧ u.hostMem = s.hostMem)))))

/-- R186, R191, R192, R209, R349, R352: the segment at the head of a die's queue is built and counted, the first request of a die
whose windows are complete runs, and the oldest line fetch that has returned leaves the miss table, its line kept or rejected by
the admission rule. -/
def Obligations.EnginesTakeTheirWorkInOrder : Prop :=
  ∀ (s : State) (d : Fin 2),
    (outOfService s (.point d.val) = false →
      (SMap.getD s.bld.ready d.val [] = [] → Completes (exec (.segmentBuildDone d) s) (fun u =>
        { u with msix := s.msix, err.inj := s.err.inj } = s)) ∧
      (∀ f id k rest r x, SMap.getD s.bld.ready d.val [] = (f, (id, k)) :: rest → rbOf s f id = some r →
        frameSlot s d.val f = some x → Completes (exec (.segmentBuildDone d) s) (fun u =>
          (∃ more, SMap.getD u.bld.ready d.val [] = rest ++ more) ∧
          (rbOf u f id).map Rb.built = some (r.built ++ [k]) ∧ Counts s u (.die d.val 3) DB3.SEGMENTS 1 ∧
          u.hall = s.hall ∧ u.nbr = s.nbr ∧ u.stair = s.stair ∧ u.hostMem = s.hostMem ∧
          (r.kind = 0 → k < 256 → 0x1100 ≤ r.size → ∀ b,
            (∀ e, e < 2 → b < rbHeader s e r ∨ rbHeader s e r + r.size ≤ b) → rdByte u b = rdByte s b)))) ∧
    (outOfService s (.point d.val) = false →
      (s.nbr.find? (fun q => q.die = d.val && nbrReady s q) = none → exec (.nbrRequestRun d) s = .next s) ∧
      (∀ q t x, s.nbr.find? (fun q => q.die = d.val && nbrReady s q) = some q → tiAt s q.slot q.id = some t →
        slotFor s d.val (t.d 4 4) = some x →
        let s1 := { s with nbr := s.nbr.filter (fun e => e ≠ q) }
        (queriesOf s1 t d.val x t.prog = [] → t.w3 = 0xFFFFFFFF → t.out = [] → Completes (exec (.nbrRequestRun d) s) (fun u =>
          u.nbr = s1.nbr ∧ Counts s u (.die d.val 4) DB4.REQUESTS 1 ∧ SameBytes s u ∧ (∀ n, n ≠ q.slot → coreAt u n = coreAt s n) ∧
          { u with nbr := s.nbr, core := s.core, reg := s.reg, free := s.free, msix := s.msix, err.inj := s.err.inj } = s ∧
          WordsBut [pageBase (.die d.val 4) + DB4.REQUESTS.off, pageBase (.die d.val 4) + DB4.REQ_MAX_NS.off] s u)))) ∧
    (∀ c : Fin 4, outOfService s (.cluster d.val c.val) = false →
      let cl := d.val * 4 + c.val
      let p := embPage cl
      let e := embAt s cl
      (e.misses.find? (fun m => m.back.isSome || !lineFar s m.addr) = none → exec (.missFill d c) s = .next s) ∧
      (∀ m data, e.misses.find? (fun m => m.back.isSome || !lineFar s m.addr) = some m → m.back = some (0, data) →
        rcFind e m.table m.addr = none → (∀ j ∈ m.joins, tiAt s j.slot j.id = none) →
        let base := 16 * rcSet m.table m.addr
        let est := rcEstimate e m.table m.addr
        let gone := fun (u : State) => (embAt u cl).misses = e.misses.filter (fun q => !(q.table = m.table && q.addr = m.addr)) ∧
          (embAt u cl).upd = e.upd ∧ (embAt u cl).filter = e.filter ∧ (∀ k, k ≠ cl → embAt u k = embAt s k)
        (m.cached = false ∨ fbit s p CB2.RC_CTRL_EN = false → Completes (exec (.missFill d c) s) (fun u =>
          gone u ∧ (embAt u cl).cache = e.cache)) ∧
        (m.cached = true → fbit s p CB2.RC_CTRL_EN = true →
          ((∃ w, w < 16 ∧ SMap.find e.cache (base + w) = none) → Completes (exec (.missFill d c) s) (fun u =>
            gone u ∧ rcFind (embAt u cl) m.table m.addr = some ⟨m.table, m.addr, est, data⟩ ∧ Counts s u p CB2.RC_ADMITTED 1)) ∧
          ((∀ w, w < 16 → ∃ l, SMap.find e.cache (base + w) = some l ∧ est ≤ l.use) → fbit s p CB2.RC_CTRL_ADMIT_EN = true →
            Completes (exec (.missFill d c) s) (fun u =>
              gone u ∧ (embAt u cl).cache = e.cache ∧ Counts s u p CB2.RC_REJECTED 1)))) ∧
      (∀ m j t a data, e.misses.find? (fun m => m.back.isSome || !lineFar s m.addr) = some m → m.back = some (0, data) →
        m.cached = false → m.joins = [j] → tiAt s j.slot j.id = some t → t.op = 0xCB → t.phase = .running → t.out = [] →
        2 ≤ (GatherProg.of t).und → (GatherProg.of t).down = [] → data.length = 64 →
        Reaches s (whoOf j.slot t).rq j.slot j.dst 64 false true → placeAt (locate s j.dst 64) = some a →
        Completes (exec (.missFill d c) s) (fun u =>
          rdBytes u a 64 = data.map (· % 256) ∧ BytesBut a 64 s u ∧
          (tiAt u j.slot j.id).map (fun v => (GatherProg.of v).und) = some ((GatherProg.of t).und - 1) ∧
          u.ctx = s.ctx ∧ u.hall = s.hall ∧ u.hostMem = s.hostMem)))

/-! ### Scratchpads, DRAM and hops -/

/-- What the report of an error writes outside its own page (R590 to R599). -/
def reportWords (p : Page) : List Nat := pageWords p ++ pageWords (.pkg 10)

/-- Only an upkeep's own state, the registers, the error state and the event history may differ. -/
def UpkeepOnly (s u : State) : Prop :=
  { u with scrub := s.scrub, patrol := s.patrol, ecc := s.ecc, reg := s.reg, err := s.err, hist := s.hist, msix := s.msix } = s

/-- No CORRUPT injection of these detectors is armed on the page. -/
def Unarmed (s : State) (p : Page) (ds : List Nat) : Prop := ∀ d ∈ ds, takeCorrupt s p d = (false, s)

/-- `n` reports on page `p`, the last of them by its detector `d`: the page's count of errors rises until it is full, and an error
that is not a corrected one leaves a record with INFO, or finds the history's queue full (R590, R598). -/
def Reported (s u : State) (p : Page) (d info n : Nat) : Prop :=
  rawWord u p 0x24 = min (2 ^ 32 - 1) (rawWord s p 0x24 + n) ∧
  (detClass d ≠ 0 → s.hist.queue.length < 64 → ∃ r, u.hist.queue = s.hist.queue ++ [r] ∧ r.kind = 0x01 ∧
    r.source = pageBase p + d * 2 ^ 24 ∧ r.arg0 = info % 2 ^ 32)

/-- R447 to R450: a corrected word that still waits stands written back; a scrub read marks every correctable word of its
bank's next row for its write-back and counts it, and counts every uncorrectable one and leaves it; a bank that granted no
rank-4 cycle for 2,048 ACLK cycles reads at rank 3; and the clear after a reset ends. R460 to R464, R466, R470 to R472, R477:
the patrol reads a channel's bursts in order, writes back a correctable one and reports an uncorrectable one as deferred; a
channel is spared onto channel 16 once, and while the spare is taken another command is refused; a channel beyond the spare
with 3 persistent errors is marked failed; the stack's temperature sets its refresh rate; and training ends a start's phase. -/
def Obligations.ScratchpadsAndDramAreKeptGood : Prop :=
  (∀ (s : State) (slot : Fin 40) (bank : Fin 16),
     let p := Page.core slot.val 8
     let line := (scrubAt s slot.val bank.val).1 % 3072 * 16 + bank.val
     let lo := spmBase slot.val + line * 128
     let marks := eccIn s lo (lo + 128)
     let bad := (marks.filter (fun e => decide (e.2 % 4 = 2))).length
     let scrubbed := fun (u : State) =>
       scrubAt u slot.val bank.val = ((scrubAt s slot.val bank.val).1 + 1, s.now) ∧
       Counts s u p KB8.SCRUB_CORR (marks.length - bad) ∧ Counts s u p KB8.SCRUB_UNCORR bad ∧
       (bad ≠ 0 → Raised u p 2) ∧
       (∀ a, SMap.getD u.ecc a 0 =
         if lo ≤ a ∧ a < lo + 128 ∧ SMap.getD s.ecc a 0 ≠ 0 ∧ SMap.getD s.ecc a 0 % 4 ≠ 2 then setBits (SMap.getD s.ecc a 0) 3 1 1
         else SMap.getD s.ecc a 0) ∧
       UpkeepOnly s u ∧ WordsBut (reportWords p) s u
     (∀ off : BitVec 23, let a := spmBase slot.val + off.toNat / 8 * 8
       (bit (SMap.getD s.ecc a 0) 3 = false → exec (.correctedWriteback slot off) s = .next s) ∧
       (bit (SMap.getD s.ecc a 0) 3 = true → Completes (exec (.correctedWriteback slot off) s) (fun u =>
         SMap.getD u.ecc a 0 = 0 ∧ (∀ b, b ≠ a → SMap.getD u.ecc b 0 = SMap.getD s.ecc b 0) ∧ u.reg = s.reg ∧ UpkeepOnly s u))) ∧
     (scrubs s slot.val = false → exec (.scrubRead slot bank) s = .next s ∧ exec (.scrubForce slot bank) s = .next s) ∧
     (scrubs s slot.val = true → Unarmed s p [0x03] → SMap.canon 0 s.ecc = true →
       Completes (exec (.scrubRead slot bank) s) (fun u => scrubbed u ∧ fget u p KB8.SCRUB_FORCED = fget s p KB8.SCRUB_FORCED) ∧
       (2048 ≤ aclkCycles s slot.val (s.now - (scrubAt s slot.val bank.val).2) → Completes (exec (.scrubForce slot bank) s) (fun u =>
         scrubbed u ∧ Counts s u p KB8.SCRUB_FORCED 1)) ∧
       (aclkCycles s slot.val (s.now - (scrubAt s slot.val bank.val).2) < 2048 → exec (.scrubForce slot bank) s = .next s)) ∧
     (fbit s p KB8.SPM_STATUS_CLEARING = true → inReset s (.core slot.val) = false →
       Completes (exec (.scratchpadClearDone slot) s) (fun u =>
         fbit u p KB8.SPM_STATUS_CLEARING = false ∧ OnlyRegisters s u ∧ WordsBut [pageBase p + KB8.SPM_STATUS_CLEARING.off] s u))) ∧
  (∀ (s : State) (d : Fin 2),
     let p := Page.die d.val 5
     (∀ ch : Fin 16,
       let phys := dramPhysical s d.val ch.val
       let a := dramBase d.val + patrolAddr ch.val (patrolAt s d.val ch.val % 2 ^ 25)
       let m := SMap.getD s.ecc a 0
       let read := fun (u : State) => patrolAt u d.val ch.val = patrolAt s d.val ch.val + 1 ∧
         (∀ b, b ≠ a → SMap.getD u.ecc b 0 = SMap.getD s.ecc b 0) ∧ UpkeepOnly s u ∧ WordsBut (reportWords p) s u
       fbit s p DB5.DRAM_CTRL = true → inReset s (.die d.val) = false → fbit s p DB5.DRAM_STATUS_SELF_REFRESH = false →
       bit (fget s p DB5.DRAM_STATUS_FAILED) phys = false → Unarmed s p [0x22] →
       (m % 4 = 0 → Completes (exec (.patrolRead d ch) s) (fun u => SMap.getD u.ecc a 0 = m ∧ read u)) ∧
       (m % 4 = 1 → Completes (exec (.patrolRead d ch) s) (fun u => SMap.getD u.ecc a 0 = 0 ∧
         Counts s u p (DB5.CH_CORR phys) 1 ∧ Reported s u p 0x20 phys 1 ∧ read u)) ∧
       (m % 4 = 2 → Completes (exec (.patrolRead d ch) s) (fun u => SMap.getD u.ecc a 0 = m ∧ Reported s u p 0x22 phys 1 ∧
         read u))) ∧
     (∀ rq (ch : Fin 16), Accepted s rq (pageBase p + 0x4C) false true p →
       (fget s p DB5.DRAM_STATUS_SPARED_CH ≠ 0x1F → Completes (exec (.spareCmdGo rq d ch) s) (fun u =>
         Counts s u p HDR.VIOL_COUNT 1 ∧ OnlyRegisters s u ∧ WordsBut [pageBase p + HDR.VIOL_COUNT.off] s u)) ∧
       (fget s p DB5.DRAM_STATUS_SPARED_CH = 0x1F → fbit s p DB5.DRAM_STATUS_SPARING = true →
         Completes (exec (.spareCmdGo rq d ch) s) (fun u => u.reg = s.reg ∧ OnlyRegisters s u)) ∧
       (fget s p DB5.DRAM_STATUS_SPARED_CH = 0x1F → fbit s p DB5.DRAM_STATUS_SPARING = false →
         Completes (exec (.spareCmdGo rq d ch) s) (fun u => fbit u p DB5.DRAM_STATUS_SPARING = true ∧
           fget u p DB5.SPARE_CMD_CH = ch.val ∧ fget u p DB5.DRAM_STATUS_SPARED_CH = 0x1F ∧ OnlyRegisters s u ∧
           WordsBut [pageBase p + DB5.DRAM_STATUS_SPARING.off, pageBase p + 0x4C] s u))) ∧
     (fbit s p DB5.DRAM_STATUS_SPARING = true → inReset s (.die d.val) = false → Completes (exec (.sparingDone d) s) (fun u =>
       fget u p DB5.DRAM_STATUS_SPARED_CH = fget s p DB5.SPARE_CMD_CH % 2 ^ 5 ∧ fbit u p DB5.DRAM_STATUS_SPARING = false ∧
       Raised u p 2 ∧ u.ecc = s.ecc.filter (fun e => !copiedMark d.val (fget s p DB5.SPARE_CMD_CH) e) ∧
       { u with ecc := s.ecc, reg := s.reg, msix := s.msix, err.inj := s.err.inj } = s ∧ WordsBut (pageWords p) s u)) ∧
     (∀ ch : Fin 17, ccRunning s d.val = true → fget s p DB5.DRAM_STATUS_SPARED_CH ≠ 0x1F →
       fget s p DB5.DRAM_STATUS_SPARED_CH ≠ ch.val → bit (fget s p DB5.DRAM_STATUS_FAILED) ch.val = false →
       (fget s p (DB5.CH_PERSIST ch.val) < 3 → exec (.channelFail d ch) s = .next s) ∧
       (3 ≤ fget s p (DB5.CH_PERSIST ch.val) → Completes (exec (.channelFail d ch) s) (fun u =>
         bit (fget u p DB5.DRAM_STATUS_FAILED) ch.val = true ∧ Raised u p 3 ∧ bit (rawWord u (.pkg 10) 0x54) 3 = true ∧
         Reported s u p 0x25 ch.val 1 ∧ UpkeepOnly s u ∧ WordsBut (reportWords p) s u))) ∧
     (∀ t : BitVec 8, Completes (exec (.dramTempSample d t) s) (fun u =>
       fget u p DB5.DRAM_TEMP = t.toNat ∧ fbit u p DB5.DRAM_STATUS_REFRESH_2X = decide (85 < t.toInt) ∧
       (85 < t.toInt → fbit s p DB5.DRAM_STATUS_REFRESH_2X = false → Raised u p 4) ∧
       sext 8 (fget u (.pkg 12) PB12.TEMP_MAX_DRAM_C) =
         max (sext 8 (fget u (.die 0 5) DB5.DRAM_TEMP)) (sext 8 (fget u (.die 1 5) DB5.DRAM_TEMP)) ∧
       OnlyRegisters s u ∧ WordsBut (pageWords p ++ pageWords (.pkg 6) ++ pageWords (.pkg 12)) s u)) ∧
     (∀ ok, s.boot.starting = false ∨ bootPhase s ≠ 3 → exec (.dramTrainingDone ok) s = .next s) ∧
     (s.boot.starting = true → bootPhase s = 3 → Completes (exec (.dramTrainingDone true) s) (fun u =>
       bootPhase u = 4 ∧ fbit u (.die 0 5) DB5.TRAINING = true ∧ fbit u (.die 1 5) DB5.TRAINING = true ∧ OnlyRegisters s u ∧
       WordsBut [pageBase (.die 0 5) + DB5.TRAINING.off, pageBase (.die 1 5) + DB5.TRAINING.off,
         pageBase bootPage + PB13.BOOT_STATUS_BOOT_PHASE.off] s u)))

/-- The count of replays of a hop, and that of its persistent errors where it is one that wraps. -/
def hopCounts : Hop → Fld × Option Fld
  | .port _ => (KB8.INBOUND_REPLAY, some KB8.INBOUND_PERSIST)
  | .fabric _ _ => (CB3.FABRIC_REPLAY, some CB3.FABRIC_PERSIST)
  | .channel _ ch => (DB5.CH_REPLAY ch.val, none)
  | .corridor _ _ => (DB6.CORR_REPLAY, some DB6.CORR_PERSIST)

/-- R16, R468, R469: a hop replays a transfer that fails its parity check, at most three times, and counts and reports each
replay; a fourth failure is a persistent error, which abandons the transfer and faults its thread or its unit's instruction; a
channel's persistent errors count up to 255. Firmware switches in a corridor group's spare once a lane of it has failed three
times. -/
def Obligations.HopsReplayAndSpare : Prop :=
  ∀ (s : State),
    (∀ (h : Hop) (fails : Fin 5) (v : HopVictim),
      let p := (hopPage h).1
      let rep := (hopPage h).2.1
      let per := (hopPage h).2.2.1
      let info := (hopPage h).2.2.2
      pageStubbed s p = false → Unarmed s p [rep, per] →
      (fails.val = 0 → Completes (exec (.hopParityReplay h fails v) s) (fun u =>
        { u with msix := s.msix, err.inj := s.err.inj } = s)) ∧
      (fails.val < 4 → Completes (exec (.hopParityReplay h fails v) s) (fun u =>
        Counts s u p (hopCounts h).1 fails.val ∧ rawWord u p 0x24 = min (2 ^ 32 - 1) (rawWord s p 0x24 + fails.val) ∧
        UpkeepOnly s u ∧ WordsBut (reportWords p) s u)) ∧
      (fails.val = 4 → Completes (exec (.hopParityReplay h fails v) s) (fun u =>
        Counts s u p (hopCounts h).1 3 ∧ (∀ f ∈ (hopCounts h).2, Counts s u p f 1) ∧
        (∀ d ch, h = .channel d ch →
          fget u p (DB5.CH_PERSIST ch.val) = min 255 (fget s p (DB5.CH_PERSIST ch.val) + 1) ∧ Raised u p 1) ∧
        (v = .other → Reported s u p per info 4 ∧ UpkeepOnly s u ∧ WordsBut (reportWords p) s u) ∧
        (∀ t, v = .thread t → (cref s t).st ≠ .free → (cref s t).st ≠ .faulted → (cref s t).loads = [] →
          (cref u t).st = .faulted ∧ (cref u t).fault = fParity ∧ (cref u t).pc = (cref s t).pc ∧ u.mem = s.mem) ∧
        (∀ k id t, v = .unit k id → s.err.inj = false → tiAt s k.val id = some t → (∀ c, t.phase ≠ .faulting c) →
          (tiAt u k.val id).map Ti.phase = some (.faulting fParity) ∧ u.mem = s.mem ∧ u.ctx = s.ctx)))) ∧
    (∀ g : Fin 64, ccRunning s 0 = true ∨ ccRunning s 1 = true →
      let f : Fld := if g.val < 32 then DB6.CORR_SPARED_LO else DB6.CORR_SPARED_HI
      bit (fget s (.die 0 6) f) (g.val % 32) = false →
      ((∀ e ∈ s.err.laneFails, e.1 / 64 = g.val → e.2 < 3) → exec (.corridorLaneSpare g) s = .next s) ∧
      ((∃ e ∈ s.err.laneFails, e.1 / 64 = g.val ∧ 3 ≤ e.2) → Completes (exec (.corridorLaneSpare g) s) (fun u =>
        (∀ d, d < 2 → fget u (.die d 6) f = setBits (fget s (.die d 6) f) (g.val % 32) 1 1 ∧ Raised u (.die d 6) 1) ∧
        OnlyRegisters s u ∧ WordsBut (pageWords (.die 0 6) ++ pageWords (.die 1 6)) s u)))

/-! ### Gallery links -/

/-- Of the links only that of port `p` may differ, with the Gallery's page, the history and the error state. -/
def LinkOnly (s u : State) (p : Nat) : Prop :=
  { u with gal.ports := s.gal.ports, reg := s.reg, hist := s.hist, msix := s.msix, err := s.err } = s ∧
  (∀ q, q ≠ p → gportAt u q = gportAt s q) ∧ WordsBut (reportWords (.pkg 8)) s u

/-- The record of a link's change of state is offered to the history (R482, R732). -/
def LinkRecord (s u : State) (p new old : Nat) : Prop :=
  s.hist.queue.length < 64 → ∃ r, u.hist.queue = s.hist.queue ++ [r] ∧ r.kind = 0x08 ∧
    r.source = pageBase (.pkg 8) + p * 2 ^ 24 ∧ r.arg0 = new ∧ r.arg1 = old

/-- R480 to R482, R488: a port trains by DETECT, EQUALISE, ALIGN and EXCHANGE to ACTIVE, with four of its five lanes; a wrong
peer makes it MISMATCH; a lane that loses lock retrains it, and one that is not back in time goes to DETECT with its link
down. -/
def Obligations.GalleryLinksTrain : Prop :=
  ∀ (s : State) (p : Fin 6),
    let n := p.val
    let g := gportAt s n
    let pg := Page.pkg 8
    (∀ seen : BitVec 5, gstate s n = 1 →
      (s.now < g.since + 10000000 → exec (.galleryDetect p seen) s = .next s) ∧
      (g.since + 10000000 ≤ s.now → Completes (exec (.galleryDetect p seen) s) (fun u =>
        gstate u n = (if 4 ≤ (bitList 5 seen.toNat).length then 2 else 1) ∧ gportAt u n = { g with since := s.now } ∧
        LinkOnly s u n))) ∧
    (∀ locked : BitVec 5, gstate s n = 2 → Completes (exec (.equaliseDone p locked) s) (fun u =>
      gportAt u n = { g with since := s.now } ∧ LinkOnly s u n ∧
      ((bitList 5 locked.toNat).length < 4 → gstate u n = 1) ∧
      (4 ≤ (bitList 5 locked.toNat).length → gstate u n = 3 ∧
        (∀ i, i < 5 → bit locked.toNat i = false → fget u pg (PB8.GP_STATUS_LANE_OUT n) = i) ∧
        ((∀ i, i < 5 → bit locked.toNat i = true) → fget u pg (PB8.GP_STATUS_LANE_OUT n) = 4) ∧
        fget u pg (PB8.GP_STATUS_SPARE_USED n) = b2n (fget u pg (PB8.GP_STATUS_LANE_OUT n) ≠ 4)))) ∧
    (gstate s n = 3 ∨ gstate s n = 6 → Completes (exec (.alignDone p) s) (fun u =>
      gstate u n = (if gstate s n = 3 then 4 else 5) ∧ gportAt u n = { g with since := s.now } ∧ u.hist = s.hist ∧
      LinkOnly s u n)) ∧
    (∀ (node : Fin 1024) (port : Fin 6) (x y z : Nat), gstate s n = 4 →
      let right := x = galSize s 0 ∧ y = galSize s 1 ∧ z = galSize s 2 ∧ node.val = galNeighbour s n ∧
        port.val = Nat.xor n 1 ∧ galSize s (n / 2) ≠ 1
      (right → Completes (exec (.exchange p node port x y z) s) (fun u =>
        gstate u n = 5 ∧ gportAt u n = { GPort.idle with since := s.now, lanes := g.lanes } ∧ Raised u pg n ∧
        LinkRecord s u n 1 0 ∧ fget u pg (PB8.GP_STATUS_PEER_NODE n) = node.val ∧
        fget u pg (PB8.GP_STATUS_PEER_PORT n) = port.val ∧ LinkOnly s u n)) ∧
      (¬ right → Completes (exec (.exchange p node port x y z) s) (fun u =>
        gstate u n = 7 ∧ gportAt u n = { g with since := s.now } ∧ Counts s u pg (PB8.GP_MISMATCH n) 1 ∧ Raised u pg 10 ∧
        u.hist = s.hist ∧ LinkOnly s u n))) ∧
    (gstate s n = 5 → Completes (exec (.laneLockLoss p) s) (fun u =>
      gstate u n = 6 ∧ gportAt u n = { g with since := s.now } ∧ Counts s u pg (PB8.GP_RETRAINS n) 1 ∧ u.hist = s.hist ∧
      LinkOnly s u n)) ∧
    (gstate s n = 6 →
      let due := g.since + eget s pg PB8.GAL_RETRAIN_MS * 1000000
      (s.now < due → exec (.retrainTimeout p) s = .next s) ∧
      (due ≤ s.now → g.txQ = [] → g.retry = [] → Completes (exec (.retrainTimeout p) s) (fun u =>
        gstate u n = 1 ∧ gportAt u n = { GPort.idle with since := s.now, rxQ := g.rxQ } ∧
        Counts s u pg (PB8.GP_LINK_DOWN n) 1 ∧ fget u pg (PB8.GP_LOST n) = fget s pg (PB8.GP_LOST n) ∧ Raised u pg n ∧
        LinkRecord s u n 0 1 ∧ LinkOnly s u n)) ∧
      (due ≤ s.now → g.txQ = [] → 0 < retryPackets g.retry → Completes (exec (.retrainTimeout p) s) (fun u =>
        gstate u n = 1 ∧ gportAt u n = { GPort.idle with since := s.now, rxQ := g.rxQ } ∧
        Counts s u pg (PB8.GP_LOST n) (retryPackets g.retry) ∧ Raised u pg 12 ∧ LinkOnly s u n)))

/-- A flit of KIND and SEQ that acknowledges the last SEQ accepted, over `body`, closed by its check (R484, R485). -/
def FlitOf (g : GPort) (kind seq : Nat) (body f : List Nat) : Prop :=
  ∃ h, f = h ++ body ++ toLe 4 (flitCrc (h ++ body)) ∧ h.take 6 = [kind, b2n g.nakDue] ++ toLe 2 seq ++ toLe 2 g.rxSeq ∧
    h.length = 8 + 2 * g.freed.length

/-- R483 to R490, R506: an ACTIVE port sends a replayed flit first, then new slots under the next SEQ while its retry buffer has
room and its peer has credit, else NULL; it takes a flit only if its check holds and, for DATA, if it is the one expected next;
it answers a bad check or a breach by a NAK or by retraining, and repeats a NAK after 2 us. -/
def Obligations.FlitsAreSentAndReceivedInOrder : Prop :=
  ∀ (s : State) (p : Fin 6), gstate s p.val = 5 →
    let n := p.val
    let g := gportAt s n
    let pg := Page.pkg 8
    let sent := fun (x : GPort) => { x with nakDue := false, nakAt := if g.nakDue then some s.now else g.nakAt }
    let only := fun (u : State) => LinkOnly s { u with ans := s.ans } n ∧ gstate u n = 5
    let credit := fun (k : Pkt) => decide (k.len + 1 ≤ g.credits.getD k.vc 0)
    (∀ q body rest, g.replay = (q, body) :: rest → Completes (exec (.flitTransmit p) s) (fun u =>
      (∃ f, u.ans = .bytes f ∧ FlitOf g 1 q body f) ∧ gportAt u n = sent { g with replay := rest } ∧
      Counts s u pg (PB8.GP_REPLAYS n) 1 ∧ Reported s u pg 0x34 n 1 ∧ only u)) ∧
    (g.replay = [] → g.retry.length < 128 → (g.cur ≠ [] ∨ g.txQ.any credit = true) → Completes (exec (.flitTransmit p) s) (fun u =>
      (∃ f body, u.ans = .bytes f ∧ FlitOf g 1 g.txSeq body f ∧ body.length = 236 ∧
        (gportAt u n).retry = g.retry ++ [(g.txSeq, body)]) ∧
      (gportAt u n).txSeq = (g.txSeq + 1) % 4096 ∧ (gportAt u n).nakDue = false ∧ (gportAt u n).rxQ = g.rxQ ∧
      Counts s u pg (PB8.GP_TX_FLITS n) 1 ∧ only u)) ∧
    (g.replay = [] → (128 ≤ g.retry.length ∨ (g.cur = [] ∧ g.txQ.any credit = false)) →
      Completes (exec (.flitTransmit p) s) (fun u =>
        (∃ f, u.ans = .bytes f ∧ FlitOf g 0 0 (List.replicate 236 0) f) ∧ gportAt u n = sent g ∧ u.reg = s.reg ∧ only u)) ∧
    (∀ flit : List Byte, flit.length = 256 →
      let f := flit.map BitVec.toNat
      let data := f.getD 0 0 ≠ 0
      let seq := leNat ((f.drop 2).take 2)
      let good := flitCrc (f.take 252) = leNat (f.drop 252)
      let next := (g.rxSeq + 1) % 4096
      let unused := fun (u : State) => (gportAt u n).rxSeq = g.rxSeq ∧ (gportAt u n).rxQ = g.rxQ ∧ (gportAt u n).asm = g.asm
      (¬ good → Completes (exec (.flitReceive p flit) s) (fun u =>
        Counts s u pg (PB8.GP_CRC_ERR n) 1 ∧ unused u ∧ (gportAt u n).bad = true ∧ (data → (gportAt u n).nakAt.isSome = true) ∧
        (gstate u n = 5 ∨ gstate u n = 6) ∧ LinkOnly s u n)) ∧
      (good → data → seq ≠ next → (g.nakAt.isSome = true ∨ seq < 4096) → Completes (exec (.flitReceive p flit) s) (fun u =>
        unused u ∧ (g.nakAt = none → g.bad = true → (gportAt u n).nakDue = true) ∧ u.reg = s.reg ∧ LinkOnly s u n)) ∧
      (good → (data → seq = next) → flitBreaks g f = true → Completes (exec (.flitReceive p flit) s) (fun u =>
        Counts s u pg (PB8.GP_PROTO_ERR n) 1 ∧ unused u ∧ gstate u n = 6 ∧ (gportAt u n).nakDue = true ∧ LinkOnly s u n)) ∧
      (good → ¬ data → flitBreaks g f = false → Completes (exec (.flitReceive p flit) s) (fun u =>
        gportAt u n = takeAck g f ∧ unused u ∧ u.reg = s.reg ∧ LinkOnly s u n)) ∧
      (good → data → seq = next → flitBreaks g f = false → Completes (exec (.flitReceive p flit) s) (fun u =>
        (gportAt u n).rxSeq = seq ∧ (∃ more, (gportAt u n).rxQ = g.rxQ ++ more) ∧ (gportAt u n).nakAt = none ∧
        (gportAt u n).bad = false ∧ Counts s u pg (PB8.GP_RX_FLITS n) 1 ∧ LinkOnly s u n))) ∧
    (∀ t, g.nakAt = some t →
      (s.now < t + 2000 → exec (.nakRepeat p) s = .next s) ∧
      (t + 2000 ≤ s.now → Completes (exec (.nakRepeat p) s) (fun u =>
        gportAt u n = { g with nakDue := true, nakAt := some s.now } ∧ u.reg = s.reg ∧ LinkOnly s u n)))

/-! ### Gallery packets -/

/-- The way to node `n` leaves by port `p`, whose link is up (R500). -/
def GoesBy (s : State) (n p : Nat) : Prop :=
  n < galNodes s ∧ linkUp s p = true ∧
    ∃ dim, [0, 1, 2].find? (fun d => galCoord s (ownNode s) d ≠ galCoord s n d) = some dim ∧ shorter s (ownNode s) n dim = p

/-- The request `k` has been served: it has left the queue, it is counted, and its response with STATUS and data waits at port `p`
in the response channel of its class (R492, R500, R501). -/
def Answered (s u : State) (k : Pkt) (status : Nat) (data : Option (List Nat)) (p : Nat) : Prop :=
  u.gal.local_ = s.gal.local_.erase k ∧ Counts s u (.pkg 8) PB8.REQ_SERVED 1 ∧
  (gportAt u p).txQ = (gportAt s p).txQ ++ [{ k.answer s status data with vc := 2 + linkClass s p 0 }] ∧
  (∀ q, q ≠ p → gportAt u q = gportAt s q)

/-- Nothing but memory, its error marks, the Gallery's queues and the words `but` may differ. -/
def ServedOnly (but : List Nat) (s u : State) : Prop :=
  { u with mem := s.mem, ecc := s.ecc, gal := s.gal, reg := s.reg, msix := s.msix, err.inj := s.err.inj } = s ∧
    WordsBut (pageWords (.pkg 8) ++ but) s u

/-- R394, R493 to R499: a request delivered here is served as the access would be locally, and its response, with the data or
the old word where it has one, goes back to its source: RD, WR, WRC with its counter, AMO, ARRIVE, MSG while the queue of 64
has room, and RESET under its four conditions. R356, R493: a contribution of another node joins the pending entry of its line
in its cluster's part of the table, whose sums take it up, or takes the first free place of its window, and is answered ACCEPT;
with the window full it is answered DROP. -/
def Obligations.RequestsAndContributionsAreServed : Prop :=
  (∀ (s : State) (k : Pkt) (p : Nat), GoesBy s k.src p →
     let g := servedAt s k
     let n := k.arg + 1
     let rq := requesterOf k
     (nextLocal s 0x01 = some k → ∀ lo, placeAt (locate s g n) = some lo → Reaches s rq 40 g n true false →
       Clean s n (locate s g n) → Completes (exec .rd s) (fun u =>
         Answered s u k 0 (some (rdBytes s lo n)) p ∧ SameBytes s u ∧ ServedOnly (placeWords (locate s g n)) s u)) ∧
     (nextLocal s 0x02 = some k → (k.bytes n).length = n → ∀ lo, placeAt (locate s g n) = some lo → Reaches s rq 40 g n false true →
       Completes (exec .wr s) (fun u =>
         Answered s u k 0 none p ∧ rdBytes u lo n = (k.bytes n).map (· % 256) ∧ BytesBut lo n s u ∧
         ServedOnly (placeWords (locate s g n)) s u)) ∧
     (nextLocal s 0x03 = some k → (k.bytes n).length = n → ∀ c off, bits g 44 4 = 1 →
       locate s (uncounted g) n = .spm c off → locate s (uncounted g) 1 = .spm c off → Reaches s rq 40 (uncounted g) n false true →
       Completes (exec .wrc s) (fun u =>
         Answered s u k 0 none p ∧ rdBytes u (spmBase c + off) n = (k.bytes n).map (· % 256) ∧ BytesBut (spmBase c + off) n s u ∧
         fget u (.core c 1) (KB1.CTR (bits g 38 6)) = (fget s (.core c 1) (KB1.CTR (bits g 38 6)) + 1) % 2 ^ 32 ∧
         ServedOnly (pageWords (.core c 8) ++ [pageBase (.core c 1) + 0x100 + 4 * bits g 38 6]) s u)) ∧
     (nextLocal s 0x04 = some k →
       let size := if bit k.arg 4 then 8 else 4
       let f := fun (old : Nat) => amoResult (bits k.arg 0 4) size old (leNat (k.data.take 8)) (leNat ((k.data.drop 8).take 8))
       (g % size ≠ 0 → Completes (exec .amo s) (fun u => Answered s u k 2 none p ∧ SameBytes s u ∧ ServedOnly [] s u)) ∧
       (∀ lo, g % size = 0 → placeAt (locate s g size) = some lo → Reaches s rq 40 g size true true →
         Clean s size (locate s g size) → Completes (exec .amo s) (fun u =>
           Answered s u k 0 (some (toLe size (rdN s lo size))) p ∧ rdN u lo size = f (rdN s lo size) % 2 ^ (8 * size) ∧
           BytesBut lo size s u ∧ ServedOnly (placeWords (locate s g size)) s u))) ∧
     (nextLocal s 0x05 = some k → bits k.addr 44 4 = 1 → inboundOk s rq = true →
       (coreInService s (bits k.addr 23 5) = none → Completes (exec .galleryArrive s) (fun u =>
         Answered s u k 1 none p ∧ Counts s u (.pkg 1) PB1.STUB_ANSWERS 1 ∧ SameBytes s u)) ∧
       (∀ c, coreInService s (bits k.addr 23 5) = some c → Completes (exec .galleryArrive s) (fun u =>
         Answered s u k 0 none p ∧
         (fget u (.core c 1) (KB1.CTR (bits k.addr 38 6)) : Int) =
           ((fget s (.core c 1) (KB1.CTR (bits k.addr 38 6)) : Int) + sext 32 (leNat (k.data.take 4))) % 2 ^ 32 ∧
         SameBytes s u ∧ ServedOnly [pageBase (.core c 1) + 0x100 + 4 * bits k.addr 38 6] s u))) ∧
     (nextLocal s 0x06 = some k →
       (k.kind ≠ 2 → Completes (exec .msg s) (fun u =>
         Answered s u k 2 none p ∧ u.gal.msgs = s.gal.msgs ∧ ServedOnly [] s u)) ∧
       (k.kind = 2 → s.gal.msgs.length < 64 → Completes (exec .msg s) (fun u =>
         Answered s u k 0 none p ∧ u.gal.msgs = s.gal.msgs ++ [(k.src, k.data.take 64)] ∧ Raised u (.pkg 8) 8 ∧
         ServedOnly [] s u)) ∧
       (k.kind = 2 → 64 ≤ s.gal.msgs.length → Completes (exec .msg s) (fun u =>
         Answered s u k 6 none p ∧ u.gal.msgs = s.gal.msgs ∧ Counts s u (.pkg 8) PB8.MSG_DROP 1 ∧ ServedOnly [] s u))) ∧
     (nextLocal s 0x07 = some k →
       let level := k.arg % 8
       let ok := ebit s (.pkg 8) PB8.GAL_CTRL_RRESET_EN = true ∧ eget s (.pkg 8) PB8.RRESET_SRC_MIN ≤ k.src ∧
         k.src ≤ eget s (.pkg 8) PB8.RRESET_SRC_MAX ∧ (k.kind = 2 ∨ k.kind = 3) ∧ reachCode s 6 ≤ level
       (¬ ok ∨ swTarget level (bits k.addr 16 8) = none → Completes (exec .reset s) (fun u =>
         Answered s u k 2 none p ∧ Counts s u (.pkg 8) PB8.RRESET_REFUSED 1 ∧
         rawWord u (.pkg 8) 0x14 = rawWord s (.pkg 8) 0x14 ∧ ServedOnly [] s u)) ∧
       (∀ t, ok → swTarget level (bits k.addr 16 8) = some t → Completes (exec .reset s) (fun u =>
         ∃ q ∈ u.rst.sources, q.code = 6 ∧ q.level ≤ level ∧ u.hostMem = s.hostMem)))) ∧
  (∀ (s : State) (k : Pkt) (p : Nat), GoesBy s k.src p → nextLocal s 0x08 = some k →
     let f := fun (off n : Nat) => leNat ((k.data.drop off).take n)
     let line : GradLine := ⟨k.arg, ownNode s, f 8 4, f 6 1, f 7 1, 0, f 0 6, f 0xC 4, k.dom,
       (chunks 4 ((k.len - 1) * 4) (k.data.drop 16)).map leNat⟩
     let cl := (line.slot * line.rowLines + line.line) % 8
     let place := fun i => (Config.pendHash line.slot line.line + i) % line.pendCap
     let taken := fun i => ∃ e ∈ pendEntries s, e.2.line.pendBase = line.pendBase ∧ e.2.place = i
     let joins := fun (e : Nat × PendEntry) => e.1 = cl && e.2.line.same line && e.2.line.pendBase = line.pendBase
     let g := fun i => ownNode s * 2 ^ 48 + line.pendBase + 256 * i
     outOfService s (.cluster (cl / 4) (cl % 4)) = false → 16 ≤ line.pendCap → line.pendCap % 16 = 0 →
     (∀ e lo, (pendEntries s).find? joins = some e → Reaches s (requesterOf k) 40 (g e.2.place) 256 false true →
       placeAt (locate s (g e.2.place) 256) = some lo → Completes (exec .contrib s) (fun u =>
         Answered s u k 0 none p ∧ Counts s u (embPage cl) CB2.PEND_ACCEPTED 1 ∧ BytesBut lo 256 s u ∧
         (embAt u cl).pend = (embAt s cl).pend.map (fun q =>
           if q = e.2 then { q with line := { q.line with sums := addSums q.line.sums line.sums } } else q) ∧
         (∀ c, c ≠ cl → embAt u c = embAt s c))) ∧
     (∀ i lo, (pendEntries s).find? joins = none → i < 16 → ¬ taken (place i) → (∀ j, j < i → taken (place j)) →
       Reaches s (requesterOf k) 40 (g (place i)) 256 false true → placeAt (locate s (g (place i)) 256) = some lo →
       Completes (exec .contrib s) (fun u =>
         Answered s u k 0 none p ∧ Counts s u (embPage cl) CB2.PEND_ACCEPTED 1 ∧ BytesBut lo 256 s u ∧
         (embAt u cl).pend = (embAt s cl).pend ++ [⟨place i, line⟩] ∧ (∀ c, c ≠ cl → embAt u c = embAt s c))) ∧
     ((pendEntries s).find? joins = none → (∀ j, j < 16 → taken (place j)) → Completes (exec .contrib s) (fun u =>
       Answered s u k 6 none p ∧ Counts s u (embPage cl) CB2.UPD_DROP 1 ∧ Raised u (embPage cl) 1 ∧ SameBytes s u ∧ u.emb = s.emb)))

/-- R489, R496, R497, R500, R504, R506, R508: the oldest packet received on a port is delivered here, sent on, or refused as bad, and
its slots become credit again; a response completes its tag's request, an unknown tag is an orphan, and a request without a
response in time completes as TARGET_RESET; MSG_POP drops the message at the head of the queue. -/
def Obligations.PacketsAreRoutedAndTagsComplete : Prop :=
  ∀ (s : State),
    let pg := Page.pkg 8
    (∀ (p : Fin 6) k rest, (gportAt s p.val).rxQ = k :: rest →
      let freed := freeSlots { gportAt s p.val with rxQ := rest } k
      (k.dst = ownNode s → (k.rsp = true ∨ k.bad = false) → Completes (exec (.galleryRoute p) s) (fun u =>
        u.gal.local_ = s.gal.local_ ++ [k] ∧ gportAt u p.val = freed ∧ (∀ q, q ≠ p.val → gportAt u q = gportAt s q) ∧
        { u with gal := s.gal, msix := s.msix, err.inj := s.err.inj } = s)) ∧
      (∀ q, k.dst = ownNode s → k.rsp = false → k.bad = true → GoesBy s k.src q → q ≠ p.val →
        Completes (exec (.galleryRoute p) s) (fun u =>
          Counts s u pg PB8.BAD_PKT 1 ∧ Raised u pg 11 ∧ gportAt u p.val = freed ∧ u.gal.local_ = s.gal.local_ ∧
          (gportAt u q).txQ = (gportAt s q).txQ ++ [{ k.answer s 2 none with vc := 2 + linkClass s q 0 }] ∧
          ServedOnly [] s u)) ∧
      (∀ q, k.dst ≠ ownNode s → GoesBy s k.dst q → q / 2 ≠ p.val / 2 → Completes (exec (.galleryRoute p) s) (fun u =>
        Counts s u pg PB8.FORWARDED 1 ∧ gportAt u p.val = freed ∧ u.gal.local_ = s.gal.local_ ∧
        (gportAt u q).txQ = (gportAt s q).txQ ++ [{ k with turned := none, vc := 2 * b2n k.rsp + linkClass s q 0 }] ∧
        ServedOnly [] s u))) ∧
    (∀ k, nextLocal s 0x10 = some k →
      (SMap.find s.gal.tags k.tag = none → Completes (exec .cpl s) (fun u =>
        Counts s u pg PB8.ORPHAN_CPL 1 ∧ u.gal = { s.gal with local_ := s.gal.local_.erase k } ∧ ServedOnly [] s u)) ∧
      (∀ t slot c pc, SMap.find s.gal.tags k.tag = some t → t.owner = .store slot c pc → outOfService s (.core slot) = false →
        k.status = 0 → Completes (exec .cpl s) (fun u =>
          SMap.find u.gal.tags k.tag = none ∧ u.gal.local_ = s.gal.local_.erase k ∧
          ctxAt u slot c = { ctxAt s slot c with stores := (ctxAt s slot c).stores - 1 } ∧
          { u with gal := s.gal, ctx := s.ctx, msix := s.msix, err.inj := s.err.inj } = s))) ∧
    (∀ k, nextLocal s 0x11 = some k →
      (SMap.find s.gal.tags k.tag = none → Completes (exec .cplData s) (fun u =>
        Counts s u pg PB8.ORPHAN_CPL 1 ∧ u.gal = { s.gal with local_ := s.gal.local_.erase k } ∧ ServedOnly [] s u)) ∧
      (∀ t slot c, SMap.find s.gal.tags k.tag = some t → t.owner = .load slot c → outOfService s (.core slot) = false →
        k.status = 0 → (∃ l ∈ (ctxAt s slot c).loads, l.tag = some k.tag) → Completes (exec .cplData s) (fun u =>
          SMap.find u.gal.tags k.tag = none ∧ u.gal.local_ = s.gal.local_.erase k ∧
          ctxAt u slot c = { ctxAt s slot c with loads := (ctxAt s slot c).loads.map (fun m =>
            if m.tag = some k.tag then { m with tag := none, value := some (leNat ((k.bytes 256).take m.size)) } else m) } ∧
          { u with gal := s.gal, ctx := s.ctx, msix := s.msix, err.inj := s.err.inj } = s))) ∧
    (∀ (tag : Fin 4096) t, SMap.find s.gal.tags tag.val = some t →
      let due := t.start + eget s pg PB8.GAL_TIMEOUT * 1000
      (s.now < due → exec (.galleryRequestTimeout tag) s = .next s) ∧
      (due ≤ s.now → ∀ slot c pc, t.owner = .store slot c pc → outOfService s (.core slot) = false →
        (ctxAt s slot c).st ≠ .faulted → (ctxAt s slot c).st ≠ .free → Completes (exec (.galleryRequestTimeout tag) s) (fun u =>
          SMap.find u.gal.tags tag.val = none ∧ Counts s u pg PB8.TIMEOUTS 1 ∧ Raised u pg 7 ∧
          (ctxAt u slot c).st = .faulted ∧ (ctxAt u slot c).fault = fTargetReset ∧ (ctxAt u slot c).pc = pc ∧
          (ctxAt u slot c).stores = (ctxAt s slot c).stores - 1 ∧ SameBytes s u))) ∧
    (∀ rq, Accepted s rq 0x7F808C false true pg → Completes (exec (.msgPop rq) s) (fun u =>
      u.gal = { s.gal with msgs := s.gal.msgs.drop 1 } ∧ u.ans = .none ∧ u.reg = s.reg ∧
      { u with gal := s.gal, ans := s.ans, msix := s.msix, err.inj := s.err.inj } = s))

/-! ### Energy, supplies, temperatures and age -/

/-- Only the ledger, the registers and the event history may differ. -/
def LedgerOnly (s u : State) : Prop :=
  { u with led := s.led, reg := s.reg, hist := s.hist, msix := s.msix, err.inj := s.err.inj } = s

/-- R516 to R518, R524 to R527: a sample of the rails sets P_LAST and P_AVG, counts a rise above the cap and moves the stretch level by
one; a period ends by its timer; firmware's decision steps the clocks down, then holds classes 3 and 2, then flags the cap
unmet, and undoes this in reverse; a frequency step locks the idle PLL, switches once its die is idle, or is abandoned after
50 us; and an AVSBus write sets VDD_MV or AVS_ERR. -/
def Obligations.EnergyIsSampledAndThrottled : Prop :=
  ∀ (s : State),
    let pg := Page.pkg 6
    let led := fun (u : State) => LedgerOnly s u ∧ u.hist = s.hist
    (∀ rails : List (Nat × Nat),
      let uw := (rails.map (fun r => r.1 * r.2)).sum
      let l := stretchLevel s
      let new := if capUw s < uw ∨ thermWarn s = true then min 8 (l + 1) else if uw * 256 < capLow256 s then l - 1 else l
      Completes (exec (.ledgerSample rails) s) (fun u =>
        u.led.samples = (uw :: s.led.samples).take 64 ∧ u.led.spent = s.led.spent + uw * 1024 / 1000000 ∧
        fget u pg PB6.POWER_P_LAST = min 65535 (uw * 16 / 1000000) ∧
        fget u pg PB6.POWER_P_AVG = min 65535 (pAvg u * 16 / 1000000) ∧
        fbit u pg PB6.LED_STATUS_OVER_CAP = decide (capUw s < pAvg u) ∧
        (capUw s < pAvg u → fbit s pg PB6.LED_STATUS_OVER_CAP = false → Counts s u pg PB6.CAP_EVENTS 1 ∧ Raised u pg 0) ∧
        stretchLevel u = new ∧ (∀ d, d < 2 → fget u (.die d 10) DB10.ACLK_STATE_STRETCH = new) ∧ led u ∧
        WordsBut (pageWords pg ++ pageWords (.die 0 10) ++ pageWords (.die 1 10)) s u)) ∧
    (
      let due := periodByLanding s = false ∧ s.led.periodFrom + eget s pg PB6.PERIOD_US * 1000 * 2 ^ 32 ≤ s.tb.dev
      (¬ due → exec .ledgerPeriodEnd s = .next s) ∧
      (due → Completes (exec .ledgerPeriodEnd s) (fun u =>
        fget u pg PB6.LAST_PERIOD_UJ = s.led.spent / 1024 % 2 ^ 32 ∧ u.led.spent = 0 ∧ u.led.periodFrom = s.tb.dev ∧
        fbit u pg PB6.LED_STATUS_OVERDRAW = false ∧ Raised u pg 3 ∧ led u ∧ WordsBut (pageWords pg) s u))) ∧
    (ccRunning s 0 = true → ccRunning s 1 = true →
      let excess := capUw s < pAvg s ∨ thermWarn s = true
      let under := pAvg s * 256 < capLow256 s ∧ thermWarn s = false
      let held := ∃ t, s.led.s8since = some t ∧ t + eget s pg PB6.THROTTLE_CFG_STRETCH_HOLD_US * 1000 ≤ s.now
      let room := clkPoint s 0 < eget s (.die 0 10) DB10.VF_LIMIT ∧ clkPoint s 1 < eget s (.die 1 10) DB10.VF_LIMIT
      let classHeld := fun (u : State) (c : Nat) (on : Bool) => ∀ n, n < 40 → bit (fget u (.core n 1) KB1.TE_CTRL_CLASS_HOLD) c = on
      (excess → ¬ held → Completes (exec .throttleTick s) (fun u => u.led = s.led ∧ led u)) ∧
      (excess → held → room → s.led.steps = [] → Completes (exec .throttleTick s) (fun u => led u ∧
        ∀ d, d < 2 → SMap.find u.led.steps d = some (clkPoint s d + 1, .lock s.now) ∧
          fbit u (.die d 10) DB10.ACLK_STATE_STEP_PENDING = true)) ∧
      (excess → held → ¬ room → s.led.hold3 = false → Completes (exec .throttleTick s) (fun u =>
        u.led = { s.led with hold3 := true } ∧ classHeld u 3 true ∧ led u)) ∧
      (excess → held → ¬ room → s.led.hold3 = true → s.led.hold2 = false → Completes (exec .throttleTick s) (fun u =>
        u.led = { s.led with hold2 := true } ∧ classHeld u 2 true ∧ led u)) ∧
      (excess → held → ¬ room → s.led.hold3 = true → s.led.hold2 = true → Completes (exec .throttleTick s) (fun u =>
        fbit u pg PB6.LED_STATUS_CAP_UNMET = true ∧ Raised u pg 1 ∧ u.led = s.led ∧ led u)) ∧
      (under → stretchLevel s = 0 → s.led.hold2 = true → Completes (exec .throttleTick s) (fun u =>
        u.led = { s.led with hold2 := false } ∧ classHeld u 2 false ∧ fbit u pg PB6.LED_STATUS_CAP_UNMET = false ∧ led u)) ∧
      (under → stretchLevel s = 0 → s.led.hold2 = false → s.led.hold3 = true → Completes (exec .throttleTick s) (fun u =>
        u.led = { s.led with hold3 := false } ∧ classHeld u 3 false ∧ led u)) ∧
      (under → stretchLevel s = 0 → s.led.hold2 = false → s.led.hold3 = false → s.led.steps = [] →
        0 < clkPoint s 0 → 0 < clkPoint s 1 → Completes (exec .throttleTick s) (fun u => led u ∧
          ∀ d, d < 2 → SMap.find u.led.steps d = some (clkPoint s d - 1, .raise) ∧
            fbit u (.die d 10) DB10.AVS_STATUS_AVS_BUSY = true))) ∧
    (∀ (d : Fin 2),
      let p := Page.die d.val 10
      let step := SMap.find s.led.steps d.val
      let kept := fun (u : State) => (∀ e, e ≠ d.val → SMap.find u.led.steps e = SMap.find s.led.steps e) ∧ LedgerOnly s u
      (∀ pt t, step = some (pt, .lock t) →
        Completes (exec (.frequencyStepLock d) s) (fun u => SMap.find u.led.steps d.val = some (pt, .hold) ∧
          bit (fget u p DB10.CLK_STATUS_LOCK) (1 - fget s p DB10.ACLK_STATE_PLL_SEL) = true ∧ kept u ∧
          WordsBut [pageBase p + DB10.CLK_STATUS_LOCK.off] s u) ∧
        (s.now < t + 50000 → exec (.frequencyStepAbandon d) s = .next s) ∧
        (t + 50000 ≤ s.now → Completes (exec (.frequencyStepAbandon d) s) (fun u => SMap.find u.led.steps d.val = none ∧
          fbit u p DB10.ACLK_STATE_STEP_PENDING = false ∧ Counts s u pg PB6.STEP_FAIL 1 ∧ Raised u p 1 ∧
          fget u p DB10.ACLK_STATE_POINT = fget s p DB10.ACLK_STATE_POINT ∧ kept u))) ∧
      (∀ pt, step = some (pt, .hold) →
        (dieIdle s d.val = false → exec (.frequencyStepSwitch d) s = .next s) ∧
        (dieIdle s d.val = true → Completes (exec (.frequencyStepSwitch d) s) (fun u =>
          fget u p DB10.ACLK_STATE_PLL_SEL = 1 - fget s p DB10.ACLK_STATE_PLL_SEL ∧
          fget u p DB10.ACLK_STATE_POINT = pt % 2 ^ DB10.ACLK_STATE_POINT.w ∧ Counts s u p DB10.CLK_SWITCHES 1 ∧ Raised u p 0 ∧
          (clkPoint s d.val < pt → SMap.find u.led.steps d.val = some (pt, .lower) ∧ fbit u p DB10.AVS_STATUS_AVS_BUSY = true) ∧
          (pt ≤ clkPoint s d.val → SMap.find u.led.steps d.val = none ∧ fbit u p DB10.ACLK_STATE_STEP_PENDING = false) ∧
          fget u p DB10.ACLK_STATE_STRETCH = fget s p DB10.ACLK_STATE_STRETCH ∧ kept u))) ∧
      (∀ ok mv, fbit s p DB10.AVS_STATUS_AVS_BUSY = true → Completes (exec (.avsbusTransactionDone d ok mv) s) (fun u =>
        fbit u p DB10.AVS_STATUS_AVS_BUSY = false ∧ fbit u p DB10.AVS_STATUS_AVS_ERR = !ok ∧
        (ok = true → fget u p DB10.AVS_STATUS_VDD_MV = mv.toNat % 2 ^ DB10.AVS_STATUS_VDD_MV.w) ∧ (ok = false → Raised u p 2) ∧
        (∀ pt, step = some (pt, .raise) → SMap.find u.led.steps d.val = if ok then some (pt, .lock s.now) else none) ∧
        (∀ pt, step = some (pt, .lower) → SMap.find u.led.steps d.val = none) ∧ kept u ∧ WordsBut (pageWords p) s u)))

/-- R528 to R532, R562, R702: SUPPLY_WARN_N low begins step 1; at the next tread event or the deadline the part stops if the pin is
still low, and with no pass in flight it is held; the pin high for RELEASE_MS ends the hold. A cluster's reading sets the hottest
junction and the warning, trips its source at TRIP_C, and the trip ends after 1 s of every sensor below TRIP_C - 15. -/
def Obligations.SuppliesAndTemperaturesAreWatched : Prop :=
  ∀ (s : State),
    let pg := Page.pkg 6
    let supply := fun (u : State) =>
      { u with sup := s.sup, boot := s.boot, reg := s.reg, hist := s.hist, msix := s.msix, err.inj := s.err.inj } = s
    (supplyHeld s = false → s.sup.stopped = false → Completes (exec .supplyWarnFall s) (fun u =>
      u.sup = ⟨true, some s.now, true, false, none⟩ ∧ fbit u pg PB6.LED_STATUS_SUPPLY_PENDING = true ∧
      Counts s u pg PB6.SUPPLY_EVENTS 1 ∧ Raised u pg 4 ∧ u.boot.timerFrom = none ∧ supply u ∧
      WordsBut (pageWords pg ++ recordWords) s u)) ∧
    (supplyHeld s = true ∨ s.sup.stopped = true → Completes (exec .supplyWarnFall s) (fun u =>
      u.sup = { s.sup with pinLow := true, risen := none } ∧ u.reg = s.reg ∧ u.hist = s.hist ∧ supply u)) ∧
    (∀ t, s.sup.step1 = some t → s.sup.due = true →
      let due := t + eget s pg PB6.SUPPLY_CFG_HOLD_DEADLINE_US * 1000
      (s.now < due → exec .holdDeadlineExpire s = .next s) ∧
      (due ≤ s.now → Completes (exec .holdDeadlineExpire s) (fun u =>
        u.sup = { s.sup with due := false, stopped := s.sup.pinLow } ∧ u.reg = s.reg ∧ u.hist = s.hist ∧ supply u))) ∧
    (s.sup.stopped = true → supplyHeld s = false →
      (dieIdle s 0 = false ∨ dieIdle s 1 = false → exec .supplyHoldEnter s = .next s) ∧
      (dieIdle s 0 = true → dieIdle s 1 = true → Completes (exec .supplyHoldEnter s) (fun u =>
        supplyHeld u = true ∧ bypassClosed u = true ∧ Raised u pg 5 ∧ u.sup = s.sup ∧ u.mem = s.mem ∧ u.ctx = s.ctx))) ∧
    Completes (exec .supplyWarnRise s) (fun u =>
      u.sup = { s.sup with pinLow := false, risen := some s.now } ∧ u.reg = s.reg ∧ u.hist = s.hist ∧ supply u) ∧
    (∀ t, s.sup.risen = some t → s.sup.pinLow = false → s.sup.step1.isSome = true →
      let due := t + eget s pg PB6.SUPPLY_CFG_RELEASE_MS * 1000000
      (s.now < due → exec .supplyRelease s = .next s) ∧
      (due ≤ s.now → Completes (exec .supplyRelease s) (fun u =>
        u.sup = ⟨false, none, false, false, none⟩ ∧ supplyHeld u = false ∧
        fbit u pg PB6.LED_STATUS_SUPPLY_PENDING = false ∧ (supplyHeld s = true → Raised u pg 6) ∧ u.mem = s.mem ∧
        u.ctx = s.ctx))) ∧
    (∀ (m : Fin 8) (t : Int), t < fget s (.pkg 12) PB12.THERM_CFG_TRIP_C ∨ s.mon.tripped = true →
      Completes (exec (.clusterTempSample m t) s) (fun u =>
        clusterTemp u m.val = t ∧ (∀ k, k < 8 → k ≠ m.val → clusterTemp u k = clusterTemp s k) ∧
        (-128 ≤ t → t ≤ 127 → fget u (.pkg 12) (PB12.CL_TEMP m.val) = wrap 8 t) ∧
        (∀ k, k < 8 → (∀ j, j < 8 → clusterTemp u j ≤ clusterTemp u k) → -128 ≤ clusterTemp u k → clusterTemp u k ≤ 127 →
          fget u (.pkg 12) PB12.TEMP_MAX_TJ_C = wrap 8 (clusterTemp u k)) ∧
        thermWarn u = ((List.range 8).any (fun k => decide ((eget s (.pkg 12) PB12.THERM_CFG_WARN_C : Int) ≤ clusterTemp u k)) ||
          decide (95 ≤ dramHot s)) ∧
        { u with mon := s.mon, reg := s.reg, free := s.free, msix := s.msix, err.inj := s.err.inj } = s ∧
        WordsBut (pageWords pg ++ pageWords (.pkg 12)) s u)) ∧
    (∀ (m : Fin 8) (t : Int), fget s (.pkg 12) PB12.THERM_CFG_TRIP_C ≤ t → s.mon.tripped = false →
      reachCode s 8 ≤ 5 → Completes (exec (.clusterTempSample m t) s) (fun u =>
        u.mon.tripped = true ∧ ∃ q ∈ u.rst.sources, q.code = 8 ∧ q.ends = none)) ∧
    (∀ t, s.mon.tripped = true → s.mon.coolSince = some t →
      (s.now < t + 1000000000 → exec .thermalTripRelease s = .next s) ∧
      (t + 1000000000 ≤ s.now → Completes (exec .thermalTripRelease s) (fun u =>
        u.mon = { s.mon with tripped := false } ∧ u.rst = { s.rst with sources := s.rst.sources.filter (fun q => q.code ≠ 8) } ∧
        { u with mon := s.mon, rst := s.rst, msix := s.msix, err.inj := s.err.inj } = s)))

/-- R514, R533 to R538: a cluster's monitors hold the worst slack and the drift of greatest size; a re-plan is asked for by AGE_CMD
and reports its margin; powered hours count; a control core that does not restart its watchdog halts and asserts its source. -/
def Obligations.MarginAgeAndWatchdogs : Prop :=
  ∀ (s : State),
    let p := Page.pkg 12
    (∀ (m : Fin 8) x xs y ys, ccRunning s (m.val / 4) = true →
      (clkPoint s (m.val / 4) ≠ 0 → exec (.marginSample m (x :: xs) (y :: ys)) s = .next s) ∧
      (clkPoint s (m.val / 4) = 0 → Completes (exec (.marginSample m (x :: xs) (y :: ys)) s) (fun u =>
        fget u p (PB12.CL_SLACK m.val) = wrap 16 (satS 16 (xs.foldl min x)) ∧
        (∃ r ∈ y :: ys, fget u p (PB12.CL_RO m.val) = wrap 32 r ∧ ∀ z ∈ y :: ys, z.natAbs ≤ r.natAbs) ∧
        OnlyRegisters s u ∧ WordsBut [pageBase p + (PB12.CL_SLACK m.val).off, pageBase p + (PB12.CL_RO m.val).off] s u))) ∧
    (∀ rq, Accepted s rq 0x7FC040 false true p → Completes (exec (.ageCmdReplan rq) s) (fun u =>
      u.mon = { s.mon with replanReq := true } ∧ fbit u p PB12.AGE_STATUS_REPLANNING = true ∧ u.ans = .none ∧
      { u with mon := s.mon, reg := s.reg, ans := s.ans, msix := s.msix, err.inj := s.err.inj } = s ∧
      WordsBut [pageBase p + PB12.AGE_STATUS_REPLANNING.off] s u)) ∧
    (∀ a b,
      let due := s.mon.replanReq = true ∨ s.mon.planSlack = [] ∨
        fget s p PB12.LAST_REPLAN + 100 ≤ fget s p PB12.POWERED_HOURS
      (¬ due ∨ (ccRunning s 0 = false ∧ ccRunning s 1 = false) → exec (.replan a b) s = .next s) ∧
      (due → ccRunning s 0 = true ∨ ccRunning s 1 = true → Completes (exec (.replan a b) s) (fun u =>
        u.mon.replanReq = false ∧ fbit u p PB12.AGE_STATUS_REPLANNING = false ∧ Counts s u p PB12.REPLANS 1 ∧ Raised u p 0 ∧
        fget u p PB12.LAST_REPLAN = fget s p PB12.POWERED_HOURS ∧
        (∀ d, d < 2 → ccRunning s d = true → SMap.find u.mon.planSlack d = some (dieSlack s d)) ∧
        fget u p PB12.MARGIN_MARGIN_PS =
          wrap 16 (satS 16 (min (dieSlack s 0) (dieSlack s 1) - (fget s p PB12.GUARD_GUARD_PS : Int))) ∧
        { u with mon := s.mon, boot := s.boot, reg := s.reg, hist := s.hist, free := s.free, msix := s.msix,
                 err.inj := s.err.inj } = s ∧
        WordsBut (pageWords p ++ pageWords (.die 0 10) ++ pageWords (.die 1 10) ++ recordWords) s u))) ∧
    (s.rst.lowRails.contains .core0 = true → exec .poweredHour s = .next s) ∧
    (s.rst.lowRails.contains .core0 = false → Completes (exec .poweredHour s) (fun u =>
      Counts s u p PB12.POWERED_HOURS 1 ∧ OnlyRegisters s u ∧ WordsBut [pageBase p + PB12.POWERED_HOURS.off] s u)) ∧
    (∀ (d : Fin 2) (n : Fin 4),
      let q := Page.die d.val 9
      let runs := bit (fget s q DB9.CC_STATUS_RUNNING) n.val = true ∨ s.err.ccHalt.contains (d.val * 4 + n.val) = true
      (¬ runs → exec (.watchdogExpire d n) s = .next s) ∧
      (runs → reachCode s 5 = 7 → Completes (exec (.watchdogExpire d n) s) (fun u =>
        bit (fget u q DB9.CC_STATUS_RUNNING) n.val = false ∧ bit (fget u q DB9.CC_STATUS_HALTED) n.val = true ∧
        Counts s u q DB9.WDT_EXPIRIES 1 ∧ Raised u q n.val ∧ Reported s u q 0x2D n.val 1 ∧
        { u with reg := s.reg, hist := s.hist, err := s.err, msix := s.msix } = s ∧ WordsBut (reportWords q) s u)) ∧
      (runs → reachCode s 5 ≤ 5 → Completes (exec (.watchdogExpire d n) s) (fun u =>
        (∃ r ∈ u.rst.sources, r.code = 5 ∧ r.ends = some (s.now + 1000)) ∧ u.hostMem = s.hostMem)))

/-! ### Resets and boot -/

/-- The source is held, and every block that it reaches is in an episode at least as wide as its level; a block whose episode it
begins has its own level, and no block outside its reach enters one (R547, R556). -/
def Asserted (s u : State) (src : Source) : Prop :=
  src ∈ u.rst.sources ∧
  (∀ b ∈ targetBlocks src.target src.level, (blockState u b).inReset = true ∧ (blockState u b).releasing = false ∧
    (blockState u b).level = if (blockState s b).inReset then min (blockState s b).level src.level else src.level) ∧
  (∀ b, b.wf = true → b ∉ targetBlocks src.target src.level → blockState u b = blockState s b) ∧
  u.hostMem = s.hostMem

/-- A source of the fuse table asserts with the reach that its fuse gives it: package-wide, one block, or nothing (R553). -/
def AssertsFused (i : Instr) (code : Nat) (ends : Option Nat) (s : State) : Prop :=
  (reachCode s code ≤ 1 → Completes (exec i s) (fun u => Asserted s u ⟨code, reachCode s code, .package, ends, 0⟩)) ∧
  (reachCode s code = 6 → Completes (exec i s) (fun u => Asserted s u ⟨code, 5, .only (reachBlock code), ends, 0⟩)) ∧
  (reachCode s code = 7 → Completes (exec i s) (fun u => u.rst.sources = s.rst.sources ∧ u.rst.blocks = s.rst.blocks))

/-- A reset pin: low asserts its source, high releases it, and nothing else changes then but the pin (R553, R554). -/
def PinIsSource (f : Bool → Instr) (code : Nat) (pin : State → Bool → State) (s : State) : Prop :=
  AssertsFused (f false) code none s ∧
  Completes (exec (f true) s) (fun u =>
    { u with msix := s.msix, err.inj := s.err.inj } =
      { pin s true with rst.sources := s.rst.sources.filter (fun q => q.code ≠ code) })

/-- R27, R29, R547, R553 to R556, R559, R654, R710: the reset pins, the link, the brown-out and clock monitors, and SW_RESET's
commands assert and release their sources; a refused command has no effect but counts and sets SW_REFUSED; timed assertions end;
the copies on d1 have resynchronised. -/
def Obligations.ResetSourcesAreAssertedAndReleased : Prop :=
  ∀ (s : State),
    let pg := Page.pkg 1
    PinIsSource .pornChange 0 (fun s h => { s with rst.porN := h }) s ∧
    PinIsSource .resetnChange 1 (fun s h => { s with rst.resetN := h }) s ∧
    PinIsSource .perstnChange 2 (fun s h => { s with rst.perstN := h }) s ∧
    PinIsSource .trstnChange 10 (fun s h => { s with rst.trstN := h }) s ∧
    AssertsFused .pcieHotReset 3 (some (s.now + 2000)) s ∧ AssertsFused .pcieFlr 4 (some (s.now + 2000)) s ∧
    Completes (exec .resetSourceTimer s) (fun u =>
      u.rst = { s.rst with sources := s.rst.sources.filter (fun q => q.ends.all (fun t => decide (s.now < t))) } ∧
      { u with rst := s.rst, msix := s.msix, err.inj := s.err.inj } = s) ∧
    (∀ r, reachCode s 9 ≤ 1 → Completes (exec (.brownout r) s) (fun u =>
      u.rst.lowRails.contains r = true ∧ Asserted s u ⟨9, reachCode s 9, .package, none, 0⟩ ∧
      (s.hist.queue.length < 64 → ∃ x q, u.hist.queue = s.hist.queue ++ x :: q ∧ x.kind = 0x01))) ∧
    (∀ r, Completes (exec (.brownoutRelease r) s) (fun u =>
      u.rst.lowRails = s.rst.lowRails.filter (fun q => q ≠ r) ∧
      u.rst.sources = (if u.rst.lowRails = [] then s.rst.sources.filter (fun q => q.code ≠ 9) else s.rst.sources) ∧
      u.rst.blocks = s.rst.blocks ∧ u.mem = s.mem ∧ u.ctx = s.ctx)) ∧
    (∀ c, s.rst.clkGood.contains c = true → Completes (exec (.clkLoss c) s) (fun u =>
      u.rst.clkGood = s.rst.clkGood.filter (fun q => q ≠ c) ∧ Counts s u pg PB1.CLK_LOSS_COUNT 1 ∧ Raised u pg 1 ∧
      ∀ x ∈ clkLossSources c, effectiveSource s x = x → x ∈ u.rst.sources ∧
        ∀ b ∈ targetBlocks x.target x.level, (blockState u b).inReset = true)) ∧
    (∀ c, s.rst.clkGood.contains c = false → Completes (exec (.clkGoodRise c) s) (fun u =>
      u.rst = { s.rst with clkGood := s.rst.clkGood ++ [c],
                           sources := s.rst.sources.filter (fun q => q.code ≠ 12 ∨ q.tag ≠ clkTag c) } ∧
      u.mem = s.mem ∧ u.ctx = s.ctx ∧ WordsBut (pageWords bootPage) s u)) ∧
    (∀ rq (level : Fin 8) (scope : Byte), Accepted s rq 0x7F1048 false true pg →
      let pair := (level.val, scope.toNat)
      let refused := fun (u : State) => Counts s u pg HDR.VIOL_COUNT 1 ∧ Raised u pg 3 ∧ u.ans = .none ∧ OnlyRegisters s u ∧
        WordsBut [pageBase pg + HDR.VIOL_COUNT.off, pageBase pg + 0x14] s u
      (swTarget level.val scope.toNat = none → Completes (exec (.swResetPulse rq level scope) s) refused ∧
        Completes (exec (.swResetAssert rq level scope) s) refused ∧ Completes (exec (.swResetRelease rq level scope) s) refused) ∧
      (∀ t, swTarget level.val scope.toNat = some t →
        (let src : Source := ⟨7, level.val, t, some (s.now + 1000), 0⟩
         effectiveSource s src = src → Completes (exec (.swResetPulse rq level scope) s) (fun u => u.ans = .none ∧ Asserted s u src)) ∧
        ((∃ i, (i, pair) ∈ s.rst.held) → Completes (exec (.swResetAssert rq level scope) s) (fun u =>
          u.rst = s.rst ∧ u.reg = s.reg ∧ OnlyRegisters s u)) ∧
        ((∀ i, (i, pair) ∉ s.rst.held) → (∀ i, i < 8 → (SMap.find s.rst.held i).isSome = true) →
          Completes (exec (.swResetAssert rq level scope) s) refused) ∧
        (∀ i, (∀ j, (j, pair) ∉ s.rst.held) → i < 8 → SMap.find s.rst.held i = none →
          (∀ j, j < i → (SMap.find s.rst.held j).isSome = true) →
          (let src : Source := ⟨7, level.val, t, none, 1⟩
           effectiveSource s src = src → Completes (exec (.swResetAssert rq level scope) s) (fun u =>
             u.ans = .none ∧ SMap.find u.rst.held i = some pair ∧ Asserted s u src))) ∧
        ((∀ i, (i, pair) ∉ s.rst.held) → Completes (exec (.swResetRelease rq level scope) s) refused) ∧
        (∀ i, s.rst.held.find? (fun e => e.2 = pair) = some (i, pair) → Completes (exec (.swResetRelease rq level scope) s) (fun u =>
          u.rst = { s.rst with held := SMap.del s.rst.held i,
                               sources := s.rst.sources.filter (fun q =>
                                 q.code ≠ 7 ∨ q.level ≠ level.val ∨ q.target ≠ t ∨ q.ends.isSome) } ∧
          u.reg = s.reg ∧ OnlyRegisters { s with rst := u.rst } u)))) ∧
    (inReset s (.die 1) = false → inReset s .pkg = false → fbit s (.pkg 0) PB0.PKG_STATUS_FAILED_OVER = false →
      Completes (exec .mirrorResyncDone s) (fun u => fbit u (.pkg 0) PB0.PKG_STATUS_MIRROR_OK = true ∧ OnlyRegisters s u ∧
        WordsBut [pageBase (.pkg 0) + PB0.PKG_STATUS_MIRROR_OK.off] s u)) ∧
    Completes (exec .vddAonLoss s) (fun u => u.rst.aonPresent = false ∧ u.hist.recs = [] ∧
      u.rst.clkGood = s.rst.clkGood.filter (fun q => q ≠ .xclk) ∧ fget u (.pkg 12) PB12.POWERED_HOURS = 0 ∧
      fget u (.pkg 10) PB10.HIST_WR = 0 ∧ fget u bootPage PB13.STARTS = 0 ∧ Asserted s u ⟨12, 0, .package, none, 9⟩) ∧
    Completes (exec .vddAonReturn s) (fun u => u.rst = { s.rst with aonPresent := true } ∧ u.mem = s.mem ∧ u.ctx = s.ctx)

/-- R447, R550, R556 to R558, R560, R571, R580, R637: a block that may release begins its release sequence once, with its pages
back at their reset values and a core's scratchpad zero, and leaves its episode, with a record, when the sequence ends; until then
its stub answers; a die without an image goes on to L1; a die's access tables are restored from firmware's copy. -/
def Obligations.BlocksReleaseByTheirEpisode : Prop :=
  ∀ (s : State) (b : Block),
    let st := blockState s b
    let others := fun (u : State) => ∀ c, c.wf = true → c ≠ b → blockState u c = blockState s c
    (mayRelease s b = false → exec (.blockRelease b) s = .next s) ∧
    (mayRelease s b = true → b.wf = true → b ≠ .pkg → (∀ d, b = .die d → st.level ≠ 2) →
      Completes (exec (.blockRelease b) s) (fun u =>
        blockState u b = { st with releasing := true } ∧ others u ∧ u.rst.sources = s.rst.sources ∧
        (∀ q o, (∀ x ∈ blockPages b, pageBase q ≠ pageBase x) → o < 0x1000 → rawWord u q o = rawWord s q o) ∧
        (∀ n, b = .core n → (∀ a, spmBase n ≤ a → a < spmBase n + 2 ^ 23 → rdByte u a = 0) ∧
          (∀ a, (a < spmBase n ∨ spmBase n + 2 ^ 23 ≤ a) → rdByte u a = rdByte s a) ∧
          fbit u (.core n 8) KB8.SPM_STATUS_CLEARING = true) ∧
        (∀ n, b = .eng n ∨ b = .cluster (slotDie n) (slotCluster n) → SameBytes s u) ∧ u.ctx = s.ctx ∧ u.hostMem = s.hostMem)) ∧
    (∀ d, b = .die d → d < 2 → mayRelease s b = true → st.level = 2 → s.boot.image = none → Completes (exec (.blockRelease b) s)
      (fun u => Asserted s u ⟨7, 1, .package, some (s.now + 1000), 2⟩)) ∧
    (b = .pkg → mayRelease s b = true → st.level ≤ 1 → fget s bootPage PB13.BOOT_STATUS_FAIL_COUNT < s.fuse.failLimit →
      s.rst.bootselPin ≠ 3 → Completes (exec (.blockRelease b) s) (fun u =>
        (blockState u .pkg).releasing = true ∧ u.boot.starting = true ∧
        fget u (.pkg 1) PB1.RST_STATUS_LAST_LEVEL = st.level ∧ bootPhase u = (if allClocksGood s then (if st.level = 0 then 3 else 4) else 0) ∧
        u.mem = s.mem)) ∧
    (st.inReset = true → st.releasing = true → b.wf = true → Completes (exec (.releaseDone b) s) (fun u =>
      blockState u b = { st with inReset := false, releasing := false } ∧ others u ∧ SameBytes s u ∧ u.ctx = s.ctx ∧
      ((∃ n, b = .core n) → st.level ≤ 4 → s.hist.queue.length < 64 → ∃ r, u.hist.queue = s.hist.queue ++ [r] ∧ r.kind = 0x05 ∧
        r.arg0 = st.level % 2 ^ 32))) ∧
    (st.inReset = false ∨ st.releasing = false → exec (.releaseDone b) s = .next s) ∧
    (∀ rq wr (a : BitVec 58), locate s a.toNat 1 = .down ∨ (∃ d off, locate s a.toNat 1 = .dram d off ∧ outOfService s (.die d) = true) →
      Completes (exec (.stubAnswer rq wr a) s) (fun u => u.ans = .targetReset ∧ Counts s u (.pkg 1) PB1.STUB_ANSWERS 1 ∧
        OnlyRegisters s u ∧ WordsBut [pageBase (.pkg 1) + PB1.STUB_ANSWERS.off] s u)) ∧
    (∀ (d : Fin 2) ws locked, SMap.find s.att.b7copy d.val = some (ws, locked) → ccRunning s d.val = true →
      SMap.sorted none ws = true → (∀ w ∈ ws, w.1 ≠ pageBase (.die d.val 7) + DB7.ACC_CTRL_LOCK.off) →
      Completes (exec (.accessTableRestore d) s) (fun u =>
        (∀ w ∈ ws, SMap.find u.reg.regs w.1 = some w.2 ∧ SMap.find u.reg.eff w.1 = some w.2) ∧
        fbit u (.die d.val 7) DB7.ACC_CTRL_LOCK = locked ∧ OnlyRegisters s u))

/-- R565 to R574, R576, R579, R580, R607: the boot ROM checks an image of an open source; an accepted one is held and runs, a
rejected one is counted and the host is asked again; GO sends the host's image to the check; BOOT_DONE ends the start; a start that
runs 2 s fails and asserts its source; recovery is left by a software reset at L0. -/
def Obligations.StartsEndInBootDoneOrFail : Prop :=
  ∀ (s : State),
    let p := bootPage
    (∀ src img, sourceOpen s src = false → exec (.bootImageCheck src img) s = .next s) ∧
    (∀ src img, sourceOpen s src = true → inRecovery s = false →
      let bytes := match src with
        | .host => hostImage s
        | .dramCopy _ => (s.boot.image.getD []).map BitVec.toNat
        | _ => img.map BitVec.toNat
      Completes (exec (.bootImageCheck src img) s) (fun u =>
        (imageCheck s bytes 0 = none →
          u.boot.image = some ((bytes.take (0x1000 + leNat ((bytes.drop 0x00C).take 4))).map (BitVec.ofNat 8)) ∧
          u.boot.copies = [0, 1] ∧ bootPhase u = 6 ∧ fget u p PB13.FW_IMAGE_VERSION = leNat ((bytes.drop 8).take 4) ∧
          fbit u p PB13.BOOT_STATUS_FROM_HOST = decide (src = .host) ∧ (∀ d, d < 2 → fget u (.die d 9) DB9.CC_STATUS_RUNNING = 15) ∧
          u.mem = s.mem ∧ u.ctx = s.ctx) ∧
        (∀ code d, imageCheck s bytes 0 = some code → src = .dramCopy d →
          u.boot.copies = s.boot.copies.filter (fun x => x ≠ d.val) ∧ u.boot.image = s.boot.image ∧
          Counts s u p PB13.IMG_REJECTS 1 ∧ Raised u p 2 ∧ fget u p PB13.BOOT_STATUS_FAIL_CODE = code) ∧
        (∀ code, imageCheck s bytes 0 = some code → src = .host →
          fbit u p PB13.BOOT_STATUS_WAIT_HOST = true ∧ u.boot.go = false ∧ u.boot.image = s.boot.image ∧ u.boot.timerFrom = none ∧
          Counts s u p PB13.IMG_REJECTS 1 ∧ Raised u p 2 ∧ fget u p PB13.BOOT_STATUS_FAIL_CODE = code))) ∧
    (∀ fw, s.boot.starting = true → bootPhase s = 6 → bootDone s = false → Completes (exec (.bootDoneSet fw) s) (fun u =>
      bootDone u = true ∧ bootPhase u = 7 ∧ fget u p PB13.BOOT_STATUS_FAIL_COUNT = 0 ∧
      fget u p PB13.BOOT_TIME_US = bootElapsed s / 1000 % 2 ^ 32 ∧ u.boot.starting = false ∧ Raised u p 0 ∧
      { u with boot := s.boot, reg := s.reg, msix := s.msix, err.inj := s.err.inj } = s)) ∧
    (∀ fw, s.boot.starting = false ∨ bootPhase s ≠ 6 ∨ bootDone s = true → exec (.bootDoneSet fw) s = .next s) ∧
    (∀ rq, Accepted s rq 0x7FD058 false true p →
      (fbit s p PB13.BOOT_STATUS_WAIT_HOST = true → Completes (exec (.bootCmdGo rq) s) (fun u =>
        fbit u p PB13.BOOT_STATUS_WAIT_HOST = false ∧ u.boot.go = true ∧
        { u with boot := s.boot, reg := s.reg, ans := s.ans, msix := s.msix, err.inj := s.err.inj } = s ∧
        WordsBut [pageBase p + 0x40] s u)) ∧
      (fbit s p PB13.BOOT_STATUS_WAIT_HOST = false → bootPhase s = 8 → Completes (exec (.bootCmdGo rq) s) (fun u =>
        u.boot = { s.boot with go := true } ∧ u.reg = s.reg)) ∧
      (fbit s p PB13.BOOT_STATUS_WAIT_HOST = false → bootPhase s ≠ 8 → Completes (exec (.bootCmdGo rq) s) (fun u =>
        u.boot = s.boot ∧ u.reg = s.reg)) ∧
      (inRecovery s = false → rq.mid = midHost ∨ rq.mid = midCC → Completes (exec (.bootCmdRecoveryExit rq) s) (fun u =>
        u.rst = s.rst ∧ u.reg = s.reg ∧ OnlyRegisters s u)) ∧
      (inRecovery s = true → rq.mid = midHost ∨ rq.mid = midCC → Completes (exec (.bootCmdRecoveryExit rq) s) (fun u =>
        fget u p PB13.BOOT_STATUS_FAIL_COUNT = 0 ∧ Asserted s u ⟨7, 0, .package, some (s.now + 1000), 3⟩))) ∧
    (s.boot.starting = true → bootDone s = false →
      (bootElapsed s < 2000000000 → exec .bootTimerExpire s = .next s) ∧
      (2000000000 ≤ bootElapsed s → reachCode s 11 ≤ 1 → Completes (exec .bootTimerExpire s) (fun u =>
        fget u p PB13.BOOT_STATUS_FAIL_CODE = (if bootsel s = 1 ∧ pcieUp s = false then 8 else 1) ∧
        fget u p PB13.BOOT_STATUS_FAIL_COUNT = min 15 (fget s p PB13.BOOT_STATUS_FAIL_COUNT + 1) ∧ u.boot.starting = false ∧
        Asserted s u ⟨11, reachCode s 11, .package, some (s.now + 1000), 0⟩)))

/-! ### Errors, fences and contexts -/

/-- The place where a stored word's bit errors are held: the 32-byte burst of DRAM or the 8-byte word of a scratchpad. -/
def eccPlace (s : State) (g : Nat) : Option Nat :=
  match locate s g 1 with
  | .dram d off => some (dramBase d + off / 32 * 32)
  | .spm k off => some (spmBase k + off / 8 * 8)
  | _ => none

/-- R448, R463, R587 to R591, R595, R610: a bit error comes to stand in a stored word, a second one making it uncorrectable; a
detector of a page in service counts and captures its event and has the consequence that its row gives; another detector, or a
page in reset, reports nothing. -/
def Obligations.DetectorsReportTheirEvents : Prop :=
  ∀ (s : State),
    (∀ a bad, Completes (exec (.detectorEvent (.stored a bad)) s) (fun u => { u with ecc := s.ecc } = s ∧
      match eccPlace s a.toNat with
      | some w => SMap.getD u.ecc w 0 = (if bad = true ∨ SMap.getD s.ecc w 0 % 4 ≠ 0 then 2 else 1) ∧
          ∀ b, b ≠ w → SMap.getD u.ecc b 0 = SMap.getD s.ecc b 0
      | none => u.ecc = s.ecc)) ∧
    (∀ p det info a, (pageDetectors p).contains det = false ∨ pageStubbed s p = true →
      exec (.detectorEvent (.report p det info a)) s = .next s) ∧
    (∀ p det info a, (pageDetectors p).contains det = true → pageStubbed s p = false → Unarmed s p [det] →
      let only := fun (u : State) (ws : List Nat) =>
        { u with core := s.core, emb := s.emb, hall := s.hall, reg := s.reg, err := s.err, hist := s.hist, msix := s.msix } = s ∧
        WordsBut (reportWords p ++ ws) s u
      Completes (exec (.detectorEvent (.report p det info a)) s) (fun u =>
        (∀ n b, p = .core n b → det = 0x09 → Counts s u p KB12.ICACHE_PARITY 1 ∧ Raised u p 0 ∧ Reported s u p det info 1 ∧
          coreAt u n = { coreAt s n with icache := (coreAt s n).icache.filter (fun e => e.1 / 128 ≠ a.toNat / 128) } ∧
          only u []) ∧
        (∀ n b, p = .core n b → det = 0x0A → Counts s u p KB12.CTX_PARITY 1 ∧ Raised u p 1 ∧
          ((ctxAt s n (info % 2048)).st ≠ .free → (ctxAt u n (info % 2048)).st = .faulted) ∧
          ((ctxAt s n (info % 2048)).st ≠ .free → (ctxAt s n (info % 2048)).st ≠ .faulted →
            (ctxAt u n (info % 2048)).fault = fEcc ∧ (ctxAt u n (info % 2048)).pc = (ctxAt s n (info % 2048)).pc) ∧
          u.mem = s.mem) ∧
        (∀ n b, p = .core n b → det = 0x0B → Counts s u p KB12.SB_PARITY 1 ∧ Raised u p 2 ∧ Reported s u p det info 1 ∧
          bit (rawWord u (.pkg 10) 0x54) 1 = true ∧ (slotFenced u n = true ∨ n ∈ u.err.fenceReq) ∧ only u []) ∧
        (∀ d c b, p = .cl d c b → det = 0x12 → Counts s u p CB3.RC_PARITY 1 ∧ Reported s u p det info 1 ∧
          (embAt u (d * 4 + c)).cache = (embAt s (d * 4 + c)).cache.filter (fun l => l.2.addr / 64 ≠ a.toNat / 64) ∧ only u []) ∧
        (∀ d c b, p = .cl d c b → det = 0x13 → Counts s u p CB3.UPD_ECC 1 ∧ Raised u p 1 ∧ Reported s u p det info 1 ∧
          (embAt u (d * 4 + c)).upd = (embAt s (d * 4 + c)).upd.filter (fun l => l.addr / 64 ≠ a.toNat / 64) ∧ only u []) ∧
        (∀ d b, p = .die d b → det = 0x26 ∨ det = 0x29 → Reported s u p det info 1 ∧ only u []) ∧
        (∀ d b, p = .die d b → det = 0x2B → Counts s u p DB8.CC_MEM_CORR 1 ∧ Reported s u p det info 1 ∧ only u []) ∧
        (∀ d b, p = .die d b → det = 0x2C → Counts s u p DB8.CC_MEM_UNCORR 1 ∧ Raised u p 0 ∧
          Reported s u p det (info % 4) 1 ∧ bit (fget u (.die d 9) DB9.CC_STATUS_RUNNING) (info % 4) = false ∧
          bit (fget u (.die d 9) DB9.CC_STATUS_HALTED) (info % 4) = true ∧ only u (pageWords (.die d 9))) ∧
        (∀ b, p = .pkg b → det = 0x33 → inReset s (.die 1) = false → fbit s (.pkg 0) PB0.PKG_STATUS_MIRROR_OK = true →
          fbit u (.pkg 0) PB0.PKG_STATUS_MIRROR_OK = false ∧ Reported s u p det info 1 ∧
          bit (rawWord u (.pkg 10) 0x54) 4 = true ∧ only u []) ∧
        (∀ b, p = .pkg b → det = 0x38 → Counts s u p PB7.AER_UNCORR 1 ∧ Raised u p 3 ∧ Reported s u p det info 1 ∧ only u []) ∧
        (∀ b, p = .pkg b → det = 0x39 → (∀ q r, SMap.find s.hist.recs info = some (q, r) →
          SMap.find u.hist.recs info = some (q, { r with kind := 0 })) ∧ only u []) ∧
        (∀ d b, p = .die d b → det = 0x2A → ∀ f x, slotFor s d f = some x → (hallAt s d).slots.map Prod.snd = [x] → x.landed = false →
          f % 2 = info % 2 → (slotFor u d f).map (fun y => y.stopped) = some true ∧
          (hallAt u d).alcove = (hallAt s d).alcove.filter (fun e => e.1 ≠ f))))

/-- R591, R596 to R600: at the end of a second of device time one record is written for each detector that reported corrected
events in it, with the rise, in the order of their sources; the history takes the oldest record of its queue, or after a drop a
LOST record, into its next place; and a write of HIST_SEL latches the record that it names. -/
def Obligations.TheHistoryKeepsItsRecords : Prop :=
  ∀ (s : State),
    let pg := Page.pkg 10
    let sec := devSec s.tb.dev
    let held := fun (u : State) (raised : List Nat) =>
      Counts s u pg PB10.HIST_WR 1 ∧ Counts s u pg PB10.HIST_SEQ 1 ∧ (∀ b ∈ raised, Raised u pg b) ∧
      (∀ i, i ≠ fget s pg PB10.HIST_WR → SMap.find u.hist.recs i = SMap.find s.hist.recs i) ∧
      { u with hist := s.hist, reg := s.reg, msix := s.msix, err.inj := s.err.inj } = s ∧
      WordsBut [pageBase pg + PB10.HIST_WR.off, pageBase pg + PB10.HIST_SEQ.off, pageBase pg + 0x14] s u
    (sec = s.err.second → exec .errorRecordSecond s = .next s) ∧
    (sec ≠ s.err.second → s.hist.queue.length + s.err.rises.length ≤ 64 → Completes (exec .errorRecordSecond s) (fun u =>
      u.err = { s.err with rises := [], second := sec, inj := false } ∧
      { u with err := s.err, hist := { u.hist with queue := s.hist.queue }, msix := s.msix } = s ∧
      ∃ rs : List Record, u.hist.queue = s.hist.queue ++ rs ∧ rs.length = s.err.rises.length ∧
        rs.Pairwise (fun x y => x.source ≤ y.source) ∧
        (∀ x ∈ s.err.rises, ∃ r ∈ rs, r.kind = 0x01 ∧ r.source = x.page + x.det * 2 ^ 24 ∧ r.arg0 = x.info % 2 ^ 32 ∧
          r.arg1 = x.addr % 2 ^ 32 ∧ r.arg2 = x.rise % 2 ^ 32 ∧ r.ns = 0 ∧ r.sec = sec))) ∧
    (s.hist.dropped = 0 → s.hist.queue = [] → exec .historyRecordWrite s = .next s) ∧
    (∀ r rest, s.hist.dropped = 0 → s.hist.queue = r :: rest → Completes (exec .historyRecordWrite s) (fun u =>
      SMap.find u.hist.recs (fget s pg PB10.HIST_WR) = some (fget s pg PB10.HIST_SEQ, r) ∧ u.hist.queue = rest ∧
      u.hist.dropped = 0 ∧ held u [0])) ∧
    (s.hist.dropped ≠ 0 → Completes (exec .historyRecordWrite s) (fun u => u.hist.queue = s.hist.queue ∧ u.hist.dropped = 0 ∧
      (∃ r, SMap.find u.hist.recs (fget s pg PB10.HIST_WR) = some (fget s pg PB10.HIST_SEQ, r) ∧ r.kind = 0x0B ∧
        r.arg0 = s.hist.dropped % 2 ^ 32) ∧ held u [0, 1])) ∧
    (∀ rq (v : Word), Accepted s rq 0x7FA04C false true pg → Completes (exec (.histSelWrite rq v) s) (fun u =>
      let i := v.toNat % 2048
      fget u pg PB10.HIST_SEL = i ∧
      (match SMap.find s.hist.recs i with
       | some (q, r) =>
         rawWord u pg 0x60 = q % 2 ^ 32 ∧ rawWord u pg 0x64 = r.ns % 2 ^ 32 ∧ rawWord u pg 0x68 = r.sec % 2 ^ 32 ∧
         rawWord u pg 0x6C = r.sec / 2 ^ 32 % 65536 + r.kind % 256 * 65536 + r.flags % 256 * 2 ^ 24 ∧
         rawWord u pg 0x70 = r.source % 2 ^ 32 ∧ rawWord u pg 0x74 = r.arg0 % 2 ^ 32 ∧ rawWord u pg 0x78 = r.arg1 % 2 ^ 32 ∧
         rawWord u pg 0x7C = r.arg2 % 2 ^ 32
       | none => ∀ j, j < 8 → rawWord u pg (0x60 + 4 * j) = 0) ∧
      u.ans = .none ∧ OnlyRegisters s u ∧
      WordsBut ((pageBase pg + 0x4C) :: (List.range 8).map (fun j => pageBase pg + 0x60 + 4 * j)) s u))

/-- R374, R395, R406, R602, R608, R609, R612, R616, R677: SLOT_FENCE takes a slot out of service and discards its passes and held
writes; INJECT arms what its page's detectors can take; CTX_CMD frees a FAULTED context and makes one that is not FREE exit;
an arrival counter takes the value written; QUIESCE_REQ holds what is written. A command that does not apply counts. -/
def Obligations.CommandsToUnitsTakeEffectOrCount : Prop :=
  ∀ (s : State) (rq : Requester),
    let refused := fun (p : Page) (u : State) =>
      Counts s u p HDR.VIOL_COUNT 1 ∧ OnlyRegisters s u ∧ WordsBut [pageBase p + HDR.VIOL_COUNT.off] s u
    (∀ (d : Fin 2) (c : Fin 4) (v : Word), Accepted s rq (pageBase (.cl d.val c.val 3) + 0x44) false true (.cl d.val c.val 3) →
      Completes (exec (.slotFenceWrite rq d c v) s) (fun u =>
        fget u (.cl d.val c.val 3) CB3.SLOT_FENCE = v.toNat % 32 ∧
        (∀ k, k < 5 → bit v.toNat k = true → slotFenced s (slotOf d.val c.val k) = false →
          SMap.find u.grp (slotOf d.val c.val k) = none ∧ (coreAt u (slotOf d.val c.val k)).inbound = []) ∧
        (∀ n, n < 40 → (slotDie n ≠ d.val ∨ slotCluster n ≠ c.val ∨ slotFenced s n = true ∨ bit v.toNat (slotK n) = false) →
          SMap.find u.grp n = SMap.find s.grp n ∧ (coreAt u n).inbound = (coreAt s n).inbound) ∧
        ∀ a, a < 2 ^ 44 → rdByte u a = rdByte s a)) ∧
    (∀ (p : Page) (v : Word), Accepted s rq (pageBase p + 0x20) false true p →
      let mode := bits v.toNat 24 2
      let det := bits v.toNat 16 8
      let n := bits v.toNat 0 16
      let good := n = 0 ∨ ((pageDetectors p).contains det = true ∧ mode < 2 ∧ (mode = 1 → noCorrupt det = false))
      (fbit s (.pkg 10) PB10.HIST_CTRL_INJ_LOCK = true ∨ ¬ good → Completes (exec (.injectWrite rq p v) s) (refused p)) ∧
      (fbit s (.pkg 10) PB10.HIST_CTRL_INJ_LOCK = false → good → Completes (exec (.injectWrite rq p v) s) (fun u =>
        fget u p HDR.INJECT_MODE = mode ∧ fget u p HDR.INJECT_DETECTOR = det ∧ fget u p HDR.INJECT_COUNT = n ∧
        OnlyRegisters s u ∧ WordsBut [pageBase p + 0x20] s u))) ∧
    (∀ slot : Fin 40, Accepted s rq (pageBase (.core slot.val 1) + 0x7C) false true (.core slot.val 1) →
      let p := Page.core slot.val 1
      let c := fget s p KB1.CTX_SEL
      let others := fun (u : State) => ∀ n m, m < 2048 → (n ≠ slot.val ∨ m ≠ c) → ctxAt u n m = ctxAt s n m
      ((ctxAt s slot.val c).st ≠ .faulted → Completes (exec (.ctxCmdFree rq slot) s) (refused p)) ∧
      ((ctxAt s slot.val c).st = .faulted → Completes (exec (.ctxCmdFree rq slot) s) (fun u =>
        ctxAt u slot.val c = Ctx.idle ∧ others u ∧ SameBytes s u ∧ u.reg = s.reg)) ∧
      ((ctxAt s slot.val c).st = .free → Completes (exec (.ctxCmdKill rq slot) s) (refused p)) ∧
      ((ctxAt s slot.val c).st ≠ .free → Completes (exec (.ctxCmdKill rq slot) s) (fun u =>
        (ctxAt u slot.val c).st = .exiting ∧ (ctxAt u slot.val c).spawnCtr = none ∧ others u ∧
        { u with ctx := s.ctx, ans := s.ans, msix := s.msix, err.inj := s.err.inj } = s))) ∧
    (∀ (slot : Fin 40) (n : Fin 64) (v : Word),
      Accepted s rq (pageBase (.core slot.val 1) + 0x100 + 4 * n.val) false true (.core slot.val 1) →
      Completes (exec (.ctrWrite rq slot n v) s) (fun u => rawWord u (.core slot.val 1) (0x100 + 4 * n.val) = v.toNat ∧
        OnlyRegisters s u ∧ WordsBut [pageBase (.core slot.val 1) + 0x100 + 4 * n.val] s u)) ∧
    (∀ (p : Page) (on : Bool), Accepted s rq (pageBase p + 0x08) false true p →
      Completes (exec (.quiesceReqWrite rq p on) s) (fun u => fbit u p HDR.PAGE_CTRL_QUIESCE_REQ = on ∧
        fget u p HDR.PAGE_CTRL_EN = fget s p HDR.PAGE_CTRL_EN ∧ OnlyRegisters s u ∧ WordsBut [pageBase p + 0x08] s u))

/-- R601 to R604, R618: firmware fences the slot of the oldest trigger, once: the slot is out of service and reset at L4; a spare
takes its position, or the position becomes vacant; and a saved context of a domain with a restart entry restarts on the
promoted slot with the registers that R603 gives. (Stated with FENCE_SAVE 0, where no image is written.) -/
def Obligations.FencesPromoteAndRestart : Prop :=
  ∀ (s : State) (n : Fin 40) (rest : List Nat), s.err.fenceReq = n.val :: rest → ccRunning s 0 = true ∨ ccRunning s 1 = true →
    let d := slotDie n.val
    let c := slotCluster n.val
    let p := Page.die d 8
    let sp := mapField s d c 4
    (slotFenced s n.val = true → exec .coreFence s = .next { s with err.fenceReq := rest }) ∧
    (slotFenced s n.val = false → fenceSave s d = 0 → Completes (exec .coreFence s) (fun u =>
      slotFenced u n.val = true ∧ slotState u n.val ≠ 0 ∧ (blockState u (.core n.val)).inReset = true ∧
      Counts s u p DB8.FENCES 1 ∧ Raised u p 1 ∧ (∀ a, a < 2 ^ 44 → rdByte u a = rdByte s a) ∧ u.hostMem = s.hostMem ∧
      (∀ i, (List.range 4).find? (fun j => mapField s d c j = slotK n.val) = some i →
        (sp < 5 → sp ≠ slotK n.val → slotState s (slotOf d c sp) = 1 →
          mapField u d c i = sp ∧ mapField u d c 4 = 7 ∧ Counts s u (.cl d c 3) CB3.PROMOTIONS 1 ∧ Raised u (.cl d c 3) 3 ∧
          ∀ k x, liveContexts s n.val = [(k, x)] → x.domain < 16 → fbit s p (DB8.RESTART_PC_HI_VALID x.domain) = true →
            (ctxAt s (slotOf d c sp) 0).st = .free →
            let y := ctxAt u (slotOf d c sp) 0
            let l := (slotLogical s n.val).getD 0
            y.st = .ready ∧ y.domain = x.domain ∧ y.cls = x.cls ∧
            y.pc = fget s p (DB8.RESTART_PC_LO x.domain) / 4 * 4 + fget s p (DB8.RESTART_PC_HI_PC x.domain) * 2 ^ 32 ∧
            y.rget 1 = BitVec.ofNat 64 (l * 2048 + k) ∧ y.rget 2 = 0#64 ∧
            y.rget 3 = BitVec.ofNat 64 (ctxCode x.st + 2 ^ 8 + l * 2 ^ 16) ∧ y.rget 5 = BitVec.allOnes 64 ∧
            ∀ r, 5 < r → r < 32 → y.rget r = 0#64) ∧
        (7 ≤ sp → mapField u d c i = 7))))

/-! ### Identity, measurements, debug and the service ports -/

/-- R638 to R642, R645: the identity key gives DEVICE_ID; EXTEND_CMD extends one measurement; QUOTE_CMD captures the quote and
counts it, unless one is in progress or the identity is not ready; a quote that ends is written at its aligned destination as
the master that asked for it; and the host alone opens the debug gate, while it is not locked. -/
def Obligations.IdentityMeasurementsAndQuotes : Prop :=
  ∀ (s : State),
    let p := Page.pkg 9
    let refused := fun (u : State) =>
      Counts s u p HDR.VIOL_COUNT 1 ∧ OnlyRegisters s u ∧ WordsBut [pageBase p + HDR.VIOL_COUNT.off] s u
    Completes (exec .identityKeyDerived s) (fun u =>
      u.att.pubKey.length = 1312 ∧ fbit u p PB9.ACC_STATUS_IDENT_READY = true ∧
      toLe 4 (rawWord u p 0x74) ++ toLe 4 (rawWord u p 0x78) = (sha3_256 (u.att.pubKey.map BitVec.toNat)).take 8 ∧
      { u with att.pubKey := s.att.pubKey, reg := s.reg, msix := s.msix, err.inj := s.err.inj } = s ∧
      WordsBut ([0x44, 0x74, 0x78].map (fun o => pageBase p + o)) s u) ∧
    (∀ rq (m : Fin 4), Accepted s rq 0x7F907C false true p → Completes (exec (.extendCmdGo rq m) s) (fun u =>
      measBytes u (4 + m.val) = sha3_256 (measBytes s (4 + m.val) ++ regBytes s p 0xA0 8) ∧
      (∀ k, k < 8 → k ≠ 4 + m.val → measBytes u k = measBytes s k) ∧ OnlyRegisters s u ∧
      WordsBut ((List.range 8).map (fun i => pageBase p + 0x400 + 32 * (4 + m.val) + 4 * i)) s u)) ∧
    (∀ rq, Accepted s rq 0x7F9064 false true p →
      (fbit s p PB9.ACC_STATUS_QUOTE_BUSY = true ∨ fbit s p PB9.ACC_STATUS_IDENT_READY = false →
        Completes (exec (.quoteCmdGo rq) s) refused) ∧
      (fbit s p PB9.ACC_STATUS_QUOTE_BUSY = false → fbit s p PB9.ACC_STATUS_IDENT_READY = true →
        Completes (exec (.quoteCmdGo rq) s) (fun u =>
          fbit u p PB9.ACC_STATUS_QUOTE_BUSY = true ∧ Counts s u p PB9.QUOTE_SEQ 1 ∧ measBytes u 3 = tableDigest s ∧
          (∃ q, u.att.quote = some q ∧ q.rq = rq ∧
            q.head.take 8 = [0x49, 0x54, 0x51, 0x54, 1, 0].map (BitVec.ofNat 8) ++
              [BitVec.ofNat 8 s.fuse.grade, BitVec.ofNat 8 s.fuse.siliconRev] ∧
            (q.head.drop 0x40).take 32 = (regBytes s p 0x80 8).map (BitVec.ofNat 8) ∧
            (∀ k, k < 8 → (q.head.drop (0x60 + 32 * k)).take 32 = (measBytes u k).map (BitVec.ofNat 8)) ∧
            q.head.drop 0x160 = s.att.pubKey) ∧
          { u with att.quote := s.att.quote, reg := s.reg, ans := s.ans, msix := s.msix, err.inj := s.err.inj } = s))) ∧
    (s.att.quote = none → exec .quoteDone s = .next s) ∧
    (∀ q, s.att.quote = some q →
      let dst := fget s p PB9.QUOTE_DST_LO + fget s p PB9.QUOTE_DST_HI * 2 ^ 32
      (dst % 64 ≠ 0 → Completes (exec .quoteDone s) (fun u => Counts s u p HDR.VIOL_COUNT 1 ∧ u.att.quote = none ∧
        fbit u p PB9.ACC_STATUS_QUOTE_BUSY = false ∧ SameBytes s u ∧ (Raised u p 1 ↔ Raised s p 1))) ∧
      (dst % 64 = 0 → q.head.length = 0x680 → Reaches s q.rq 40 dst 4096 false true →
        Completes (exec .quoteDone s) (fun u => u.att.quote = none ∧ fbit u p PB9.ACC_STATUS_QUOTE_BUSY = false ∧ Raised u p 1 ∧
          (∀ lo, placeAt (locate s dst 4096) = some lo → BytesBut lo 4096 s u ∧
            (∀ i, i < 0x680 → rdByte u (lo + i) = ((q.head.getD i 0).toNat)) ∧ ∀ i, i < 12 → rdByte u (lo + 0xFF4 + i) = 0) ∧
          u.ctx = s.ctx))) ∧
    (∀ rq, Accepted s rq 0x7F9040 false true p →
      (rq.mid ≠ midHost → fbit s p PB9.ACC_CTRL_LOCK = false → fbit s p PB9.ACC_CTRL_DEBUG_EN = false →
        Completes (exec (.debugEnSet rq) s) refused) ∧
      (fbit s p PB9.ACC_CTRL_LOCK = true → Completes (exec (.debugEnSet rq) s) refused) ∧
      (rq.mid = midHost → fbit s p PB9.ACC_CTRL_LOCK = false → fbit s p PB9.ACC_CTRL_DEBUG_EN = false →
        Completes (exec (.debugEnSet rq) s) (fun u => fbit u p PB9.ACC_CTRL_DEBUG_EN = true ∧
          fbit u p PB9.ACC_CTRL_DEBUG_WAS_OPEN = true ∧ fbit u p PB9.ACC_CTRL_LOCK = false ∧ Raised u p 2 ∧ OnlyRegisters s u ∧
          WordsBut [pageBase p + 0x40, pageBase p + 0x14] s u)))

/-- R643, R644, R714, R717: JTAG's instructions load the register and what they capture, and nothing while TRSTn is low; a debug
access outside its regions, or denied, reads zero, and without DEBUG_EN none is made; and the SMBus target answers its six
commands and NACKs writes while VDD_AON is present, and changes nothing. -/
def Obligations.ServicePortsAnswer : Prop :=
  ∀ (s : State),
    let j := s.jtag
    (s.rst.trstN = false → exec .extest s = .next s ∧ exec .idcode s = .next s ∧ exec .dbgAccessCapture s = .next s ∧
      (∀ cells, exec (.samplePreload cells) s = .next s) ∧ (∀ code, exec (.jtagBypass code) s = .next s) ∧
      ∀ wr a v, exec (.dbgAccessUpdate wr a v) s = .next s) ∧
    (s.rst.trstN = true →
      exec .extest s = .next { s with jtag := { j with ir := 0x00#8, driving := true } } ∧
      (∀ cells, exec (.samplePreload cells) s = .next { s with jtag := { j with ir := 0x01#8, driving := false, boundary := cells } }) ∧
      Completes (exec .idcode s) (fun u => { u with jtag := s.jtag } = s ∧ u.jtag.ir = 0x02#8 ∧
        bits u.jtag.shiftOut 28 4 = s.fuse.siliconRev % 16 ∧ bits u.jtag.shiftOut 12 16 = 0x2640 ∧
        bits u.jtag.shiftOut 1 11 = 0x2B5 ∧ bits u.jtag.shiftOut 0 1 = 1 ∧ u.jtag.shiftOut < 2 ^ 32) ∧
      (∀ code, Completes (exec (.jtagBypass code) s) (fun u => { u with jtag := s.jtag } = s ∧ u.jtag.ir = code ∧
        u.jtag.shiftOut = 0)) ∧
      Completes (exec .dbgAccessCapture s) (fun u => { u with jtag := s.jtag } = s ∧ u.jtag.ir = 0x10#8 ∧
        u.jtag.shiftOut % 2 ^ 32 = j.rdata.toNat ∧ bits u.jtag.shiftOut 33 1 = b2n j.denied ∧
        bits u.jtag.shiftOut 32 1 = b2n (j.done && fbit s (.pkg 9) PB9.ACC_CTRL_DEBUG_EN)) ∧
      (∀ wr (a : BitVec 58) (v : Word),
        (fbit s (.pkg 9) PB9.ACC_CTRL_DEBUG_EN = false → Completes (exec (.dbgAccessUpdate wr a v) s) (fun u =>
          { u with jtag := s.jtag } = s ∧ u.jtag.done = false ∧ u.jtag.rdata = j.rdata)) ∧
        (fbit s (.pkg 9) PB9.ACC_CTRL_DEBUG_EN = true →
          a.toNat % 4 ≠ 0 ∨ a.toNat / 2 ^ 48 ≠ ownNode s ∨ a.toNat / 2 ^ 44 % 16 ∉ [0, 1, 3] →
          Completes (exec (.dbgAccessUpdate wr a v) s) (fun u =>
            { u with jtag := s.jtag } = s ∧ u.jtag.done = true ∧ u.jtag.denied = true ∧ u.jtag.rdata = 0#32)) ∧
        (∀ d off, fbit s (.pkg 9) PB9.ACC_CTRL_DEBUG_EN = true → a.toNat % 4 = 0 → a.toNat / 2 ^ 48 = ownNode s →
          a.toNat / 2 ^ 44 % 16 ∈ [0, 1, 3] → locate s a.toNat 4 = .dram d off → s.ecc = [] → Unarmed s (.die d 5) [0x20, 0x21] →
          Reaches s ⟨midDebug, false, none⟩ 40 a.toNat 4 (!wr) wr →
          Completes (exec (.dbgAccessUpdate wr a v) s) (fun u => u.jtag.done = true ∧ u.jtag.denied = false ∧ u.ctx = s.ctx ∧
            (wr = true → rdBytes u (dramBase d + off) 4 = toLe 4 v.toNat ∧ BytesBut (dramBase d + off) 4 s u) ∧
            (wr = false → u.jtag.rdata.toNat = leNat (rdBytes s (dramBase d + off) 4) ∧ SameBytes s u))))) ∧
    (let answer := fun (i : Instr) (bs : List Nat) =>
       exec i s = .next { s with ans := if s.rst.aonPresent then .bytes bs else .none }
     answer .smbReadPkgInfo (toLe 4 (rawWord s (.pkg 0) 0x40)) ∧
     answer .smbReadFaultLatch [fget s (.pkg 10) PB10.FAULT_LATCH] ∧
     answer .smbReadPoweredHours (toLe 4 (fget s (.pkg 12) PB12.POWERED_HOURS)) ∧
     answer .smbReadTemperature
       (if .core0 ∈ s.rst.lowRails ∨ .core1 ∈ s.rst.lowRails then [0x80, 0x80]
        else [fget s (.pkg 12) PB12.TEMP_MAX_TJ_C, fget s (.pkg 12) PB12.TEMP_MAX_DRAM_C]) ∧
     (s.rst.aonPresent = true → Completes (exec .smbReadFail s) (fun u => ∃ b, u = { s with ans := .bytes [b] } ∧
       bits b 4 4 = fget s (.pkg 13) PB13.BOOT_STATUS_FAIL_CODE ∧ bits b 0 4 = fget s (.pkg 13) PB13.BOOT_STATUS_FAIL_COUNT)) ∧
     (s.rst.aonPresent = true → Completes (exec .smbReadStatus s) (fun u => ∃ b, u = { s with ans := .bytes [b] } ∧ b < 32 ∧
       bit b 0 = fbit s (.pkg 13) PB13.BOOT_STATUS_BOOT_DONE ∧ bit b 1 = fbit s (.pkg 13) PB13.BOOT_STATUS_RECOVERY ∧
       bit b 2 = fbit s (.pkg 6) PB6.LED_STATUS_SUPPLY_HOLD ∧ bit b 3 = fbit s (.pkg 6) PB6.LED_STATUS_THERM_WARN ∧
       bit b 4 = fbit s (.pkg 12) PB12.AGE_STATUS_DERATED)) ∧
     (∀ cmd data, exec (.smbWrite cmd data) s = .next { s with ans := if s.rst.aonPresent then .nacked else .none }))

/-! ### The host interface and the mailbox -/

/-- R40, R504, R570, R578, R653, R659 to R661, R666, R667, R682: a host access through BAR2 reaches the image buffer before
BOOT_DONE and WIN_BASE + offset after it, and completes as R660 gives; HOST_IRQ_SET sets bits; an unmasked vector that is pending
sends; D3hot holds vectors until D0; the link's state and width show; an outbound read that times out faults its load. -/
def Obligations.HostAccessesAndVectors : Prop :=
  ∀ (s : State),
    let pg := Page.pkg 7
    (∀ wr (off : BitVec 36) len data, inD3 s = true → exec (.slidingWindowAccess wr off len data) s = .next s) ∧
    (inD3 s = false → bootDone s = false → ∀ (off : BitVec 36) len (data : List Byte),
      let o := off.toNat
      (o + len ≤ 0x100000 → exec (.slidingWindowAccess false off len []) s =
        .next { s with ans := .bytes ((List.range len).map (fun i => (SMap.getD s.boot.imgBuf (o + i) 0#8).toNat)) }) ∧
      (o + data.length ≤ 0x100000 → Completes (exec (.slidingWindowAccess true off 0 data) s) (fun u =>
        (∀ i, i < data.length → SMap.getD u.boot.imgBuf (o + i) 0#8 = data.getD i 0#8) ∧
        (∀ a, a < o ∨ o + data.length ≤ a → SMap.getD u.boot.imgBuf a 0#8 = SMap.getD s.boot.imgBuf a 0#8) ∧
        { u with boot.imgBuf := s.boot.imgBuf } = s)) ∧
      (0x100000 < o + len → exec (.slidingWindowAccess false off len []) s = .next { s with ans := .bytes (List.replicate len 0) }) ∧
      (0x100000 < o + data.length → exec (.slidingWindowAccess true off 0 data) s = .next s)) ∧
    (inD3 s = false → bootDone s = true → ∀ (off : BitVec 36) len (data : List Byte) d x,
      let g := winBase s + off.toNat
      let lo := dramBase d + x
      s.ecc = [] → Unarmed s (.die d 5) [0x20, 0x21] → g / 2 ^ 48 % 1024 = ownNode s →
      (locate s g len = .dram d x → Reaches s rqHost 40 g len true false →
        Completes (exec (.slidingWindowAccess false off len []) s) (fun u => u.ans = .bytes (rdBytes s lo len) ∧ SameBytes s u ∧
          u.ctx = s.ctx ∧ fget u pg PB7.HOST_REFUSED = fget s pg PB7.HOST_REFUSED)) ∧
      (locate s g data.length = .dram d x → Reaches s rqHost 40 g data.length false true →
        Completes (exec (.slidingWindowAccess true off 0 data) s) (fun u => u.ans = .none ∧ BytesBut lo data.length s u ∧
          rdBytes u lo data.length = data.map BitVec.toNat ∧ u.ctx = s.ctx)) ∧
      (locate s g len = .dram d x → dramAllows s d x len rqHost true false = false →
        Completes (exec (.slidingWindowAccess false off len []) s) (fun u => u.ans = .bytes (List.replicate len 0) ∧
          Counts s u pg PB7.HOST_REFUSED 1 ∧ Raised u pg 2 ∧ Counts s u (.die d 7) DB7.DENY_COUNT 1 ∧ SameBytes s u)) ∧
      (locate s g len = .down → Completes (exec (.slidingWindowAccess false off len []) s) (fun u =>
        u.ans = .bytes (List.replicate len 0xFF) ∧ Counts s u pg PB7.HOST_TGT_RESET 1 ∧
        Counts s u (.pkg 1) PB1.STUB_ANSWERS 1 ∧ SameBytes s u))) ∧
    (∀ rq (v : Word), Accepted s rq 0x7F704C false true pg → Completes (exec (.hostIrqSetWrite rq v) s) (fun u =>
      rawWord u pg 0x50 = Nat.lor (rawWord s pg 0x50) v.toNat ∧ u.ans = .none ∧ OnlyRegisters s u ∧
      WordsBut [pageBase pg + 0x50] s u)) ∧
    (Settled s →
      (∀ (v : Fin 64) a w, Completes (exec (.msixUnmask v a w) s) (fun u =>
        { u with msix := s.msix } = s ∧ u.msix.masked.getLsbD v.val = false ∧
        (∀ i, i ≠ v.val → u.msix.masked.getLsbD i = s.msix.masked.getLsbD i ∧ u.msix.pend.getLsbD i = s.msix.pend.getLsbD i) ∧
        SMap.find u.msix.entries v.val = some (a, w) ∧
        (s.msix.pend.getLsbD v.val = true → inD3 s = false →
          u.msix.sent = (v.val, (a, w)) :: s.msix.sent ∧ u.msix.pend.getLsbD v.val = false) ∧
        (s.msix.pend.getLsbD v.val = true → inD3 s = true → u.msix.sent = s.msix.sent ∧ u.msix.pend.getLsbD v.val = true) ∧
        (s.msix.pend.getLsbD v.val = false → u.msix.sent = s.msix.sent)))) ∧
    (∀ d3, Completes (exec (.pcieDstateChange d3) s) (fun u => inD3 u = d3 ∧ (inD3 s ≠ d3 → Raised u pg 4) ∧
      (d3 = true → u.msix.sent = s.msix.sent) ∧ (d3 = false → u.msix.pend &&& ~~~ u.msix.masked = 0#64) ∧
      { u with reg := s.reg, msix := s.msix } = s ∧
      WordsBut [pageBase pg + PB7.PCIE_STATUS_DSTATE.off, pageBase pg + 0x14] s u)) ∧
    (∀ up speed width, Completes (exec (.pcieLinkChange up speed width) s) (fun u =>
      let was := fbit s pg PB7.PCIE_STATUS_LINK_UP
      fbit u pg PB7.PCIE_STATUS_LINK_UP = up ∧ (was ≠ up → Raised u pg 0) ∧
      fget u pg PB7.LINK_DOWN = (fget s pg PB7.LINK_DOWN + b2n (was && !up)) % 2 ^ PB7.LINK_DOWN.w ∧
      fget u pg PB7.PCIE_STATUS_SPEED =
        (if up = false then 0 else if inRecovery s then 1 else speed) % 2 ^ PB7.PCIE_STATUS_SPEED.w ∧
      fget u pg PB7.PCIE_STATUS_WIDTH =
        (if up = false then 0 else if inRecovery s then 1 else width) % 2 ^ PB7.PCIE_STATUS_WIDTH.w ∧
      u.mem = s.mem ∧ u.ctx = s.ctx ∧ u.rst = s.rst)) ∧
    (∀ (t : ThreadRef) l, (cref s t).loads = [l] → (cref s t).st ≠ .free → (cref s t).st ≠ .faulted →
      (l.tag.isSome = true ∨ l.value.isSome = true ∨ (∀ w x, locate s l.addr 1 ≠ .host w x) →
        exec (.outboundCompletionTimeout (.load t 0)) s = .next s) ∧
      (l.tag = none → l.value = none → (∃ w x, locate s l.addr 1 = .host w x) →
        Completes (exec (.outboundCompletionTimeout (.load t 0)) s) (fun u => Counts s u pg PB7.OUT_TIMEOUT 1 ∧ Raised u pg 1 ∧
          (cref u t).st = .faulted ∧ (cref u t).fault = fTargetReset ∧ (cref u t).pc = l.pc ∧ (cref u t).loads = [] ∧
          (∀ q, q ≠ t → cref u q = cref s q) ∧ u.mem = s.mem)))

/-- The message that a scan has come to: slot `e`, whose 128 bytes stand at `lo` of d0's DRAM, in the mailbox page at `pg`, which
firmware may read and write and which holds no bit error; further messages follow in the scan. -/
def MessageAt (s : State) (e : Nat × Nat) (pg lo : Nat) : Prop :=
  s.mbx.head? = some e ∧ 2 ≤ s.mbx.length ∧ e.2 < 31 ∧ mbxServes s = true ∧ s.ecc = [] ∧
  Unarmed s (.die 0 5) [0x20, 0x21] ∧ Reaches s rqCC 40 (mbxPage s e.1) 4096 true true ∧
  locate s (mbxPage s e.1) 4096 = .dram 0 pg ∧ lo = pg + 0x80 + 128 * e.2

/-- The message is done: its STATUS and result stand in its slot, and then STATE 3; LAST_SEQ is its SEQ; every other byte reads as
before; and it counts as taken, and as refused where STATUS is not OK (R669, R670). -/
def MessageDone (s u : State) (pg lo status : Nat) (result : List Nat) : Prop :=
  u.mbx = s.mbx.drop 1 ∧ rdByte u lo = 3 ∧ rdByte u (lo + 2) = status ∧
  rdBytes u (lo + 0x60) result.length = result ∧ rdBytes u (pg + 4) 4 = rdBytes s (lo + 4) 4 ∧
  (∀ a, a ≠ lo → a ≠ lo + 2 → (a < lo + 0x60 ∨ lo + 0x60 + result.length ≤ a) → (a < pg + 4 ∨ pg + 8 ≤ a) →
    rdByte u a = rdByte s a) ∧
  Counts s u (.pkg 11) PB11.MBX_TAKEN 1 ∧ (status ≠ 0 → Counts s u (.pkg 11) PB11.MBX_REFUSED 1 ∧ Raised u (.pkg 11) 1) ∧
  (bit (rdByte s (lo + 3)) 0 = true → Raised u (.pkg 11) 0)

/-- R371, R372, R406, R661, R669 to R673: a write of MBX_NUDGE triggers a scan; firmware carries out the messages in the scan's order:
NOP answers FW_VERSION, SPAWN starts a thread or answers DENIED, BAD_ARG or DOWN, KILL and FREE apply to the context named, and
an OP not in the table is answered BAD_OP. -/
def Obligations.MailboxMessagesAreCarriedOut : Prop :=
  ∀ (s : State),
    (∀ rq v, Accepted s rq 0x7FB048 false true (.pkg 11) → Completes (exec (.mbxNudge rq v) s) (fun u =>
      fbit u (.pkg 11) PB11.MBX_STATUS_TRIGGERED = true ∧ OnlyRegisters s u ∧
      WordsBut [pageBase (.pkg 11) + PB11.MBX_STATUS_TRIGGERED.off] s u)) ∧
    (mbxServes s = false → exec .mbxScan s = .next s ∧ exec .nop s = .next s ∧ exec .mbxSpawn s = .next s ∧
      exec .kill s = .next s ∧ exec .free s = .next s) ∧
    (s.mbx = [] → exec .nop s = .next s ∧ exec .mbxSpawn s = .next s ∧ exec .kill s = .next s ∧ exec .free s = .next s ∧
      (fbit s (.pkg 11) PB11.MBX_STATUS_TRIGGERED = false → exec .mbxScan s = .next s)) ∧
    (∀ e pg lo, MessageAt s e pg lo →
      let b := rdBytes s lo 128
      let op := b.getD 1 0
      let dom := b.getD 8 0
      let core := b.getD 10 0
      let pc := mbxArg b 0x10 8
      let plain := b.getD 9 0 ≤ 3 ∧ b.getD 12 0 = 0 ∧ pc % 4 = 0 ∧ pc < 2 ^ 58 ∧ mbxZero b 11 12 = true ∧
        mbxZero b 13 16 = true ∧ mbxZero b 0x38 0x60 = true
      let done := fun (u : State) (status : Nat) (result : List Nat) => MessageDone s u pg lo status result
      (4 ≤ op → Completes (exec .mbxScan s) (fun u => done u 1 [] ∧ u.ctx = s.ctx)) ∧
      (op < 4 → exec .mbxScan s = .next s) ∧
      (op ≠ 0 → exec .nop s = .next s) ∧ (op ≠ 1 → exec .mbxSpawn s = .next s) ∧
      (op ≠ 2 → exec .kill s = .next s) ∧ (op ≠ 3 → exec .free s = .next s) ∧
      (op = 0 → mbxZero b 8 0x60 = true → Completes (exec .nop s) (fun u =>
        done u 0 (toLe 4 (fget s (.die 0 9) DB9.FW_VERSION)) ∧ u.ctx = s.ctx)) ∧
      (op = 0 → mbxZero b 8 0x60 = false → Completes (exec .nop s) (fun u => done u 2 [] ∧ u.ctx = s.ctx)) ∧
      (op = 1 → dom < 16 → mbxMayName s e.1 dom = false → Completes (exec .mbxSpawn s) (fun u => done u 3 [] ∧ u.ctx = s.ctx)) ∧
      (op = 1 → 16 ≤ dom ∨ (mbxMayName s e.1 dom = true ∧
          (3 < b.getD 9 0 ∨ (32 ≤ core ∧ core ≠ 0xFF) ∨ pc % 4 ≠ 0 ∨ 2 ^ 58 ≤ pc)) →
        Completes (exec .mbxSpawn s) (fun u => done u 2 [] ∧ u.ctx = s.ctx)) ∧
      (op = 1 → dom < 16 → mbxMayName s e.1 dom = true → core < 32 → plain → coreInService s core = none →
        Completes (exec .mbxSpawn s) (fun u => done u 4 [] ∧ u.ctx = s.ctx)) ∧
      (∀ k, op = 1 → dom < 16 → mbxMayName s e.1 dom = true → core < 32 → plain → coreInService s core = some k →
        (ctxAt s k 0).st = .free → Completes (exec .mbxSpawn s) (fun u =>
          let y := ctxAt u k 0
          done u 0 (toLe 8 (threadId s k 0)) ∧ y.st = .ready ∧ y.domain = dom ∧ y.cls = b.getD 9 0 ∧ y.pc = pc ∧
          (∀ i, i < 4 → y.rget (i + 1) = BitVec.ofNat 64 (mbxArg b (0x18 + 8 * i) 8)) ∧
          y.rget 5 = BitVec.ofNat 64 (2 ^ 63 + e.1 * 256 + e.2) ∧ (∀ r, 5 < r → r < 32 → y.rget r = 0#64) ∧
          Counts s u (.core k 1) KB1.TE_SPAWNS 1 ∧
          ∀ n c, c < 2048 → (n ≠ k ∨ c ≠ 0) → ctxAt u n c = ctxAt s n c)) ∧
      (∀ k c, mbxZero b 0x10 0x60 = true → mbxThread s (mbxArg b 8 8) = some (k, c) →
        let x := ctxAt s k c
        let others := fun (u : State) => ∀ n m, m < 2048 → (n ≠ k ∨ m ≠ c) → ctxAt u n m = ctxAt s n m
        (mbxMayName s e.1 x.domain = false →
          (op = 2 → Completes (exec .kill s) (fun u => done u 3 [] ∧ u.ctx = s.ctx)) ∧
          (op = 3 → Completes (exec .free s) (fun u => done u 3 [] ∧ u.ctx = s.ctx))) ∧
        (mbxMayName s e.1 x.domain = true →
          (op = 2 → Completes (exec .kill s) (fun u => done u 0 [] ∧ (ctxAt u k c).st = .exiting ∧
            (ctxAt u k c).spawnCtr = none ∧ others u)) ∧
          (op = 3 → x.st ≠ .faulted → Completes (exec .free s) (fun u => done u 2 [] ∧ u.ctx = s.ctx)) ∧
          (op = 3 → x.st = .faulted → Completes (exec .free s) (fun u => done u 0 [] ∧ ctxAt u k c = Ctx.idle ∧ others u)))))
end

