-- ==== Sys2Proof/Laws/Maps.lean ====
section
/-!
SUPPORT. The laws of the sorted association lists: what a read sees after a write, and that every operation keeps the
canonical form.
-/

namespace Sys2Proof.Machine

@[simp] theorem SMap.find_put_self {α : Type} (m : List (Nat × α)) (k : Nat) (v : α) :
    SMap.find (SMap.put m k v) k = some v := by
  induction m with
  | nil => simp [SMap.put, SMap.find]
  | cons e m ih =>
    obtain ⟨a, u⟩ := e
    simp only [SMap.put]
    split
    · simp [SMap.find]
    · split
      · simp [SMap.find]
      · rename_i h
        simp [SMap.find, h, ih]

theorem SMap.find_put_ne {α : Type} (m : List (Nat × α)) {k j : Nat} (v : α) (h : j ≠ k) :
    SMap.find (SMap.put m k v) j = SMap.find m j := by
  induction m with
  | nil => simp [SMap.put, SMap.find, h]
  | cons e m ih =>
    obtain ⟨a, u⟩ := e
    simp only [SMap.put]
    split
    · simp [SMap.find, h]
    · split
      · rename_i h2
        subst h2
        simp [SMap.find, h]
      · simp [SMap.find, ih]

theorem SMap.sorted_weaken {α : Type} (m : List (Nat × α)) (a b : Nat) (hab : a ≤ b)
    (h : SMap.sorted (some b) m = true) : SMap.sorted (some a) m = true := by
  cases m with
  | nil => rfl
  | cons e m =>
    obtain ⟨k, v⟩ := e
    simp only [SMap.sorted, Bool.and_eq_true, decide_eq_true_eq] at h ⊢
    exact ⟨by omega, h.2⟩

theorem SMap.sorted_of_bound {α : Type} (m : List (Nat × α)) (b : Nat) (h : SMap.sorted (some b) m = true) :
    SMap.sorted none m = true := by
  cases m with
  | nil => rfl
  | cons e m =>
    obtain ⟨k, v⟩ := e
    simp only [SMap.sorted, Bool.and_eq_true] at h ⊢
    exact h.2

theorem SMap.sorted_put {α : Type} (m : List (Nat × α)) (b k : Nat) (v : α) (h : SMap.sorted (some b) m = true)
    (hk : b < k) : SMap.sorted (some b) (SMap.put m k v) = true := by
  induction m generalizing b with
  | nil => simp [SMap.put, SMap.sorted, hk]
  | cons e m ih =>
    obtain ⟨a, u⟩ := e
    simp only [SMap.sorted, Bool.and_eq_true, decide_eq_true_eq] at h
    simp only [SMap.put]
    split
    · rename_i h1
      simp [SMap.sorted, hk, h1, h.2]
    · split
      · rename_i h2
        subst h2
        simp [SMap.sorted, hk, h.2]
      · rename_i h1 h2
        have : a < k := by omega
        simp [SMap.sorted, h.1, ih a h.2 this]

theorem SMap.sorted_put_none {α : Type} (m : List (Nat × α)) (k : Nat) (v : α) (h : SMap.sorted none m = true) :
    SMap.sorted none (SMap.put m k v) = true := by
  cases m with
  | nil => simp [SMap.put, SMap.sorted]
  | cons e m =>
    obtain ⟨a, u⟩ := e
    simp only [SMap.sorted] at h
    simp only [SMap.put]
    split
    · rename_i h1
      simp [SMap.sorted, h1, h]
    · split
      · rename_i h2
        subst h2
        simpa [SMap.sorted] using h
      · rename_i h1 h2
        simpa [SMap.sorted] using SMap.sorted_put m a k v h (by omega)

theorem SMap.sorted_del {α : Type} (m : List (Nat × α)) (b k : Nat) (h : SMap.sorted (some b) m = true) :
    SMap.sorted (some b) (SMap.del m k) = true := by
  induction m generalizing b with
  | nil => rfl
  | cons e m ih =>
    obtain ⟨a, u⟩ := e
    simp only [SMap.sorted, Bool.and_eq_true, decide_eq_true_eq] at h
    simp only [SMap.del]
    split
    · exact SMap.sorted_weaken _ b a (by omega) (ih a h.2)
    · simp [SMap.sorted, h.1, ih a h.2]

theorem SMap.sorted_del_none {α : Type} (m : List (Nat × α)) (k : Nat) (h : SMap.sorted none m = true) :
    SMap.sorted none (SMap.del m k) = true := by
  cases m with
  | nil => rfl
  | cons e m =>
    obtain ⟨a, u⟩ := e
    simp only [SMap.sorted] at h
    simp only [SMap.del]
    split
    · exact SMap.sorted_of_bound _ a (SMap.sorted_del m a k h)
    · simpa [SMap.sorted] using SMap.sorted_del m a k h

theorem SMap.sorted_filter {α : Type} (f : Nat × α → Bool) (m : List (Nat × α)) (b : Nat)
    (h : SMap.sorted (some b) m = true) : SMap.sorted (some b) (m.filter f) = true := by
  induction m generalizing b with
  | nil => rfl
  | cons e m ih =>
    obtain ⟨a, u⟩ := e
    simp only [SMap.sorted, Bool.and_eq_true, decide_eq_true_eq] at h
    simp only [List.filter_cons]
    split
    · simp [SMap.sorted, h.1, ih a h.2]
    · exact ih b (SMap.sorted_weaken m b a (by omega) h.2)

theorem SMap.sorted_filter_none {α : Type} (f : Nat × α → Bool) (m : List (Nat × α)) (h : SMap.sorted none m = true) :
    SMap.sorted none (m.filter f) = true := by
  cases m with
  | nil => rfl
  | cons e m =>
    obtain ⟨a, u⟩ := e
    simp only [SMap.sorted] at h
    simp only [List.filter_cons]
    split
    · simpa [SMap.sorted] using SMap.sorted_filter f m a h
    · exact SMap.sorted_of_bound _ a (SMap.sorted_filter f m a h)

/-- A deleted key is not listed. -/
theorem SMap.find_del_self {α : Type} (m : List (Nat × α)) (k : Nat) : SMap.find (SMap.del m k) k = none := by
  induction m with
  | nil => rfl
  | cons e m ih =>
    obtain ⟨a, u⟩ := e
    simp only [SMap.del]
    split
    · exact ih
    · rename_i h1
      simp [SMap.find, h1, ih]

theorem SMap.find_del_ne {α : Type} (m : List (Nat × α)) {k j : Nat} (h : j ≠ k) :
    SMap.find (SMap.del m k) j = SMap.find m j := by
  induction m with
  | nil => rfl
  | cons e m ih =>
    obtain ⟨a, u⟩ := e
    simp only [SMap.del]
    split
    · rename_i h1
      subst h1
      simp [SMap.find, h, ih]
    · simp [SMap.find, ih]

@[simp] theorem SMap.getD_setD_self {α : Type} [DecidableEq α] (m : List (Nat × α)) (k : Nat) (v d : α) :
    SMap.getD (SMap.setD m k v d) k d = v := by
  unfold SMap.getD SMap.setD
  split
  · rename_i h1
    simp [SMap.find_del_self m k, h1]
  · simp

theorem SMap.getD_setD_ne {α : Type} [DecidableEq α] (m : List (Nat × α)) {k j : Nat} (v d e : α) (h : j ≠ k) :
    SMap.getD (SMap.setD m k v d) j e = SMap.getD m j e := by
  unfold SMap.getD SMap.setD
  split
  · rw [SMap.find_del_ne m h]
  · rw [SMap.find_put_ne m v h]

theorem SMap.mem_put {α : Type} (m : List (Nat × α)) (k : Nat) (v : α) (c : Nat × α) (h : c ∈ SMap.put m k v) :
    c = (k, v) ∨ c ∈ m := by
  induction m with
  | nil => simpa [SMap.put] using h
  | cons e m ih =>
    obtain ⟨a, u⟩ := e
    simp only [SMap.put] at h
    split at h
    · simpa using h
    · split at h
      · rcases List.mem_cons.mp h with h | h
        · exact .inl h
        · exact .inr (by simp [h])
      · rcases List.mem_cons.mp h with h | h
        · exact .inr (by simp [h])
        · rcases ih h with h | h
          · exact .inl h
          · exact .inr (by simp [h])

theorem SMap.mem_del {α : Type} (m : List (Nat × α)) (k : Nat) (c : Nat × α) (h : c ∈ SMap.del m k) : c ∈ m := by
  induction m with
  | nil => exact h
  | cons e m ih =>
    obtain ⟨a, u⟩ := e
    simp only [SMap.del] at h
    split at h
    · simp [ih h]
    · rcases List.mem_cons.mp h with h | h
      · simp [h]
      · simp [ih h]

theorem SMap.canon_nil {α : Type} [DecidableEq α] (d : α) : SMap.canon d ([] : List (Nat × α)) = true := rfl

theorem SMap.canon_setD {α : Type} [DecidableEq α] (m : List (Nat × α)) (k : Nat) (v d : α)
    (h : SMap.canon d m = true) : SMap.canon d (SMap.setD m k v d) = true := by
  simp only [SMap.canon, Bool.and_eq_true, List.all_eq_true, decide_eq_true_eq] at h ⊢
  unfold SMap.setD
  split
  · exact ⟨SMap.sorted_del_none m k h.1, fun c hc => h.2 c (SMap.mem_del m k c hc)⟩
  · rename_i hv
    refine ⟨SMap.sorted_put_none m k v h.1, fun c hc => ?_⟩
    rcases SMap.mem_put m k v c hc with e | hm
    · simpa [e] using hv
    · exact h.2 c hm

theorem SMap.canon_filter {α : Type} [DecidableEq α] (f : Nat × α → Bool) (m : List (Nat × α)) (d : α)
    (h : SMap.canon d m = true) : SMap.canon d (m.filter f) = true := by
  simp only [SMap.canon, Bool.and_eq_true, List.all_eq_true, decide_eq_true_eq] at h ⊢
  exact ⟨SMap.sorted_filter_none f m h.1, fun c hc => h.2 c ((List.mem_filter.mp hc).1)⟩

end Sys2Proof.Machine
end

