-- ==== Sys2Proof/Laws/Memory.lean ====
section
/-!
SUPPORT. Bytes of memory: a read after a write, what a write leaves, and that every memory operation keeps the canonical
form.
-/

namespace Sys2Proof.Machine

/-! ### One byte -/

theorem rdByte_wrByte_self (s : State) (a v : Nat) : rdByte (wrByte s a v) a = v % 256 := by
  unfold rdByte wrByte
  rw [SMap.getD_setD_self, BitVec.toNat_ofNat]

theorem rdByte_wrByte_ne (s : State) {a b : Nat} (v : Nat) (h : b ≠ a) : rdByte (wrByte s a v) b = rdByte s b := by
  unfold rdByte wrByte
  rw [SMap.getD_setD_ne _ _ _ _ h]

theorem wf_wrByte (s : State) (a v : Nat) (h : Memory.wf s.mem = true) : Memory.wf (wrByte s a v).mem = true :=
  SMap.canon_setD _ _ _ _ h

theorem wf_wrHost (s : State) (a v : Nat) (h : Memory.wf s.hostMem = true) : Memory.wf (wrHost s a v).hostMem = true :=
  SMap.canon_setD _ _ _ _ h

/-! ### Several bytes -/

theorem rdByte_wrBytes_below (s : State) (a b : Nat) (bs : List Nat) (h : b < a) :
    rdByte (wrBytes s a bs) b = rdByte s b := by
  induction bs generalizing s a with
  | nil => rfl
  | cons x xs ih =>
    rw [wrBytes, ih _ _ (by omega), rdByte_wrByte_ne _ _ (by omega)]

/-- A write leaves every byte outside its extent. -/
theorem rdByte_wrBytes_outside (s : State) (a b : Nat) (bs : List Nat) (h : b < a ∨ a + bs.length ≤ b) :
    rdByte (wrBytes s a bs) b = rdByte s b := by
  induction bs generalizing s a with
  | nil => rfl
  | cons x xs ih =>
    simp only [List.length_cons] at h
    rw [wrBytes, ih _ _ (by omega), rdByte_wrByte_ne _ _ (by omega)]

theorem wf_wrBytes (s : State) (a : Nat) (bs : List Nat) (h : Memory.wf s.mem = true) :
    Memory.wf (wrBytes s a bs).mem = true := by
  induction bs generalizing s a with
  | nil => exact h
  | cons x xs ih => exact ih _ _ (wf_wrByte s a x h)

theorem wf_wrN (s : State) (a n v : Nat) (h : Memory.wf s.mem = true) : Memory.wf (wrN s a n v).mem = true :=
  wf_wrBytes _ _ _ h

theorem wf_wrHostBytes (s : State) (a : Nat) (bs : List Nat) (h : Memory.wf s.hostMem = true) :
    Memory.wf (wrHostBytes s a bs).hostMem = true := by
  induction bs generalizing s a with
  | nil => exact h
  | cons x xs ih => exact ih _ _ (wf_wrHost s a x h)

/-- The bytes just written are read back. -/
theorem rdBytes_wrBytes (s : State) (a : Nat) (bs : List Nat) : rdBytes (wrBytes s a bs) a bs.length = bs.map (· % 256) := by
  induction bs generalizing s a with
  | nil => rfl
  | cons x xs ih =>
    simp only [wrBytes, List.length_cons, rdBytes, List.map_cons]
    rw [rdByte_wrBytes_below _ _ _ _ (by omega), rdByte_wrByte_self, ih]

theorem toLe_length (k n : Nat) : (toLe k n).length = k := by
  induction k generalizing n with
  | zero => rfl
  | succ k ih => simp [toLe, ih]

theorem leNat_toLe (k n : Nat) : leNat ((toLe k n).map (· % 256)) = n % 256 ^ k := by
  induction k generalizing n with
  | zero => simp [toLe, leNat, Nat.mod_one]
  | succ k ih =>
    simp only [toLe, List.map_cons, leNat, ih]
    rw [Nat.mod_mod, Nat.mod_mod, Nat.pow_succ, Nat.mul_comm (256 ^ k), Nat.mod_mul]

/-- A little-endian number just written is read back (R6). -/
theorem rdN_wrN_self (s : State) (a n v : Nat) : rdN (wrN s a n v) a n = v % 256 ^ n := by
  have := rdBytes_wrBytes s a (toLe n v)
  rw [toLe_length] at this
  rw [rdN, wrN, this, leNat_toLe]

theorem rdByte_wrN_outside (s : State) (a b n v : Nat) (h : b < a ∨ a + n ≤ b) : rdByte (wrN s a n v) b = rdByte s b :=
  rdByte_wrBytes_outside _ _ _ _ (by rw [toLe_length]; exact h)

/-! ### Clearing -/

/-- Dropping listed bytes keeps the canonical form: a clear of a scratchpad, of a die's memory or of a frame slot. -/
theorem wf_filter (f : Host.Cell → Bool) (m : List Host.Cell) (h : Memory.wf m = true) : Memory.wf (m.filter f) = true :=
  SMap.canon_filter f m _ h

theorem wf_reset : Memory.wf State.reset.mem = true := rfl

end Sys2Proof.Machine
end

