-- ==== Sys2Proof/Laws/PerInstr.lean ====
section
/-!
SUPPORT. A family of facts about every command as syntax: a command has words exactly when it is an instruction of a thread, and
then it has one, or four for a tensor instruction (R410, R414, R429).
-/

namespace Sys2Proof.Laws

open Sys2Proof.Machine

/-- The command has words exactly when it belongs to a thread, and then one or four. -/
def Words.Statement (i : Instr) : Prop :=
  (threadOf i).isSome = (wordsOf i).isSome ∧ ∀ ws, wordsOf i = some ws → ws.length = 1 ∨ ws.length = 4

theorem Words.ofNone {i : Instr} (h : threadOf i = none) (h' : wordsOf i = none) : Words.Statement i :=
  ⟨by rw [h, h']; rfl, fun ws e => by rw [h'] at e; cases e⟩

theorem Words.ofWord {i : Instr} {t : ThreadRef} {w : Nat} (h : threadOf i = some t) (h' : wordsOf i = some [w]) :
    Words.Statement i :=
  ⟨by rw [h, h']; rfl, fun ws e => by rw [h'] at e; cases e; exact .inl rfl⟩

theorem Words.ofTensor {i : Instr} {op : Nat} (o : TensorOp) (h : threadOf i = threadT o) (h' : wordsOf i = wordsT op o) :
    Words.Statement i := by
  unfold Words.Statement
  rw [h, h']
  cases o with
  | issue t base offset notify result => exact ⟨rfl, fun ws e => by cases e; exact .inr rfl⟩
  | run slot id => exact ⟨rfl, fun ws e => by cases e⟩

theorem Words.registerWrite (rq : Requester) (addr : BitVec 24) (width : Nat) (v : Word) :
    Words.Statement (.registerWrite rq addr width v) := Words.ofNone rfl rfl
theorem Words.rcRegisterRead (rq : Requester) (addr : BitVec 24) (width : Nat) :
    Words.Statement (.rcRegisterRead rq addr width) := Words.ofNone rfl rfl
theorem Words.loRegisterRead (rq : Requester) (addr : BitVec 24) (width : Nat) :
    Words.Statement (.loRegisterRead rq addr width) := Words.ofNone rfl rfl
theorem Words.timeSecHiRead (rq : Requester) : Words.Statement (.timeSecHiRead rq) := Words.ofNone rfl rfl
theorem Words.capHeadHiRead (rq : Requester) (n : Fin 4) : Words.Statement (.capHeadHiRead rq n) := Words.ofNone rfl rfl
theorem Words.histSelWrite (rq : Requester) (v : Word) : Words.Statement (.histSelWrite rq v) := Words.ofNone rfl rfl
theorem Words.pageCommit (rq : Requester) (p : Page) (v : Word) : Words.Statement (.pageCommit rq p v) := Words.ofNone rfl rfl
theorem Words.commitTakeEffect (p : Page) : Words.Statement (.commitTakeEffect p) := Words.ofNone rfl rfl
theorem Words.portSetTakeEffect (n : Fin 4) : Words.Statement (.portSetTakeEffect n) := Words.ofNone rfl rfl
theorem Words.set (rq : Requester) : Words.Statement (.set rq) := Words.ofNone rfl rfl
theorem Words.armPps (rq : Requester) : Words.Statement (.armPps rq) := Words.ofNone rfl rfl
theorem Words.sync (port : Fin 2) (m : PtpMsg) (ing : Int) (eg : Option Int) :
    Words.Statement (.sync port m ing eg) := Words.ofNone rfl rfl
theorem Words.followUp (port : Fin 2) (m : PtpMsg) : Words.Statement (.followUp port m) := Words.ofNone rfl rfl
theorem Words.followUpRelease (port : Fin 2) (m : PtpMsg) (ing eg : Int) :
    Words.Statement (.followUpRelease port m ing eg) := Words.ofNone rfl rfl
theorem Words.announce (port : Fin 2) (m : PtpMsg) : Words.Statement (.announce port m) := Words.ofNone rfl rfl
theorem Words.delayResp (port : Fin 2) (m : PtpMsg) : Words.Statement (.delayResp port m) := Words.ofNone rfl rfl
theorem Words.pdelayReq (port : Fin 2) (m : PtpMsg) (ing eg : Int) : Words.Statement (.pdelayReq port m ing eg) := Words.ofNone rfl rfl
theorem Words.pdelayResp (port : Fin 2) (m : PtpMsg) (ing : Int) : Words.Statement (.pdelayResp port m ing) := Words.ofNone rfl rfl
theorem Words.pdelayRespFollowUp (port : Fin 2) (m : PtpMsg) : Words.Statement (.pdelayRespFollowUp port m) := Words.ofNone rfl rfl
theorem Words.encoderEdge (a b : Bool) : Words.Statement (.encoderEdge a b) := Words.ofNone rfl rfl
theorem Words.alcoveMergeDone (d : Fin 2) : Words.Statement (.alcoveMergeDone d) := Words.ofNone rfl rfl
theorem Words.indexEmpty (d : Fin 2) : Words.Statement (.indexEmpty d) := Words.ofNone rfl rfl
theorem Words.carryDone (d : Fin 2) : Words.Statement (.carryDone d) := Words.ofNone rfl rfl
theorem Words.waitComplete (t : ThreadRef) : Words.Statement (.waitComplete t) := Words.ofNone rfl rfl
theorem Words.waitDeadlineExpire (t : ThreadRef) : Words.Statement (.waitDeadlineExpire t) := Words.ofNone rfl rfl
theorem Words.triggerFire (n : Fin 8) : Words.Statement (.triggerFire n) := Words.ofNone rfl rfl
theorem Words.captureEdge (n : Fin 4) (rising : Bool) : Words.Statement (.captureEdge n rising) := Words.ofNone rfl rfl
theorem Words.ethernetFrameReceive (n : Fin 4) (f : EthFrame) : Words.Statement (.ethernetFrameReceive n f) := Words.ofNone rfl rfl
theorem Words.relayStart (e : Fin 2) (arriving : Bool) : Words.Statement (.relayStart e arriving) := Words.ofNone rfl rfl
theorem Words.portLinkChange (n : Fin 4) (up : Bool) : Words.Statement (.portLinkChange n up) := Words.ofNone rfl rfl
theorem Words.bypassForceChange (high : Bool) : Words.Statement (.bypassForceChange high) := Words.ofNone rfl rfl
theorem Words.pointProbe (d : Fin 2) : Words.Statement (.pointProbe d) := Words.ofNone rfl rfl
theorem Words.egoWrWrite (rq : Requester) (d : Fin 2) (v : Word) : Words.Statement (.egoWrWrite rq d v) := Words.ofNone rfl rfl
theorem Words.egoWrBothWrite (rq : Requester) (v : Word) : Words.Statement (.egoWrBothWrite rq v) := Words.ofNone rfl rfl
theorem Words.egoSampleRead (d : Fin 2) : Words.Statement (.egoSampleRead d) := Words.ofNone rfl rfl
theorem Words.replayWrWrite (rq : Requester) (d : Fin 2) (v : Word) : Words.Statement (.replayWrWrite rq d v) := Words.ofNone rfl rfl
theorem Words.replayRelease (d : Fin 2) : Words.Statement (.replayRelease d) := Words.ofNone rfl rfl
theorem Words.hallQuery (o : TensorOp) : Words.Statement (.hallQuery o) := Words.ofTensor o rfl rfl
theorem Words.rbBuild (o : TensorOp) : Words.Statement (.rbBuild o) := Words.ofTensor o rfl rfl
theorem Words.segmentBuildDone (d : Fin 2) : Words.Statement (.segmentBuildDone d) := Words.ofNone rfl rfl
theorem Words.nbrQuery (o : TensorOp) : Words.Statement (.nbrQuery o) := Words.ofTensor o rfl rfl
theorem Words.nbrRequestRun (d : Fin 2) : Words.Statement (.nbrRequestRun d) := Words.ofNone rfl rfl
theorem Words.pass (o : TensorOp) : Words.Statement (.pass o) := Words.ofTensor o rfl rfl
theorem Words.move (o : TensorOp) : Words.Statement (.move o) := Words.ofTensor o rfl rfl
theorem Words.spGather (o : TensorOp) : Words.Statement (.spGather o) := Words.ofTensor o rfl rfl
theorem Words.spCompress (o : TensorOp) : Words.Statement (.spCompress o) := Words.ofTensor o rfl rfl
theorem Words.ruleGather (o : TensorOp) : Words.Statement (.ruleGather o) := Words.ofTensor o rfl rfl
theorem Words.ruleScatter (o : TensorOp) : Words.Statement (.ruleScatter o) := Words.ofTensor o rfl rfl
theorem Words.cellFinish (o : TensorOp) : Words.Statement (.cellFinish o) := Words.ofTensor o rfl rfl
theorem Words.mapScatter (o : TensorOp) : Words.Statement (.mapScatter o) := Words.ofTensor o rfl rfl
theorem Words.embGather (o : TensorOp) : Words.Statement (.embGather o) := Words.ofTensor o rfl rfl
theorem Words.missFill (d : Fin 2) (c : Fin 4) : Words.Statement (.missFill d c) := Words.ofNone rfl rfl
theorem Words.embUpdate (o : TensorOp) : Words.Statement (.embUpdate o) := Words.ofTensor o rfl rfl
theorem Words.embFlush (o : TensorOp) : Words.Statement (.embFlush o) := Words.ofTensor o rfl rfl
theorem Words.embApply (o : TensorOp) : Words.Statement (.embApply o) := Words.ofTensor o rfl rfl
theorem Words.instructionFetch (t : ThreadRef) : Words.Statement (.instructionFetch t) := Words.ofNone rfl rfl
theorem Words.add (t : ThreadRef) (dst src1 src2 : RegNum) : Words.Statement (.add t dst src1 src2) := Words.ofWord rfl rfl
theorem Words.sub (t : ThreadRef) (dst src1 src2 : RegNum) : Words.Statement (.sub t dst src1 src2) := Words.ofWord rfl rfl
theorem Words.and (t : ThreadRef) (dst src1 src2 : RegNum) : Words.Statement (.and t dst src1 src2) := Words.ofWord rfl rfl
theorem Words.or (t : ThreadRef) (dst src1 src2 : RegNum) : Words.Statement (.or t dst src1 src2) := Words.ofWord rfl rfl
theorem Words.xor (t : ThreadRef) (dst src1 src2 : RegNum) : Words.Statement (.xor t dst src1 src2) := Words.ofWord rfl rfl
theorem Words.sll (t : ThreadRef) (dst src1 src2 : RegNum) : Words.Statement (.sll t dst src1 src2) := Words.ofWord rfl rfl
theorem Words.srl (t : ThreadRef) (dst src1 src2 : RegNum) : Words.Statement (.srl t dst src1 src2) := Words.ofWord rfl rfl
theorem Words.sra (t : ThreadRef) (dst src1 src2 : RegNum) : Words.Statement (.sra t dst src1 src2) := Words.ofWord rfl rfl
theorem Words.slt (t : ThreadRef) (dst src1 src2 : RegNum) : Words.Statement (.slt t dst src1 src2) := Words.ofWord rfl rfl
theorem Words.sltu (t : ThreadRef) (dst src1 src2 : RegNum) : Words.Statement (.sltu t dst src1 src2) := Words.ofWord rfl rfl
theorem Words.min (t : ThreadRef) (dst src1 src2 : RegNum) : Words.Statement (.min t dst src1 src2) := Words.ofWord rfl rfl
theorem Words.max (t : ThreadRef) (dst src1 src2 : RegNum) : Words.Statement (.max t dst src1 src2) := Words.ofWord rfl rfl
theorem Words.minu (t : ThreadRef) (dst src1 src2 : RegNum) : Words.Statement (.minu t dst src1 src2) := Words.ofWord rfl rfl
theorem Words.maxu (t : ThreadRef) (dst src1 src2 : RegNum) : Words.Statement (.maxu t dst src1 src2) := Words.ofWord rfl rfl
theorem Words.mul (t : ThreadRef) (dst src1 src2 : RegNum) : Words.Statement (.mul t dst src1 src2) := Words.ofWord rfl rfl
theorem Words.mulh (t : ThreadRef) (dst src1 src2 : RegNum) : Words.Statement (.mulh t dst src1 src2) := Words.ofWord rfl rfl
theorem Words.mulhu (t : ThreadRef) (dst src1 src2 : RegNum) : Words.Statement (.mulhu t dst src1 src2) := Words.ofWord rfl rfl
theorem Words.div (t : ThreadRef) (dst src1 src2 : RegNum) : Words.Statement (.div t dst src1 src2) := Words.ofWord rfl rfl
theorem Words.divu (t : ThreadRef) (dst src1 src2 : RegNum) : Words.Statement (.divu t dst src1 src2) := Words.ofWord rfl rfl
theorem Words.rem (t : ThreadRef) (dst src1 src2 : RegNum) : Words.Statement (.rem t dst src1 src2) := Words.ofWord rfl rfl
theorem Words.remu (t : ThreadRef) (dst src1 src2 : RegNum) : Words.Statement (.remu t dst src1 src2) := Words.ofWord rfl rfl
theorem Words.fadd (t : ThreadRef) (dst src1 src2 : RegNum) : Words.Statement (.fadd t dst src1 src2) := Words.ofWord rfl rfl
theorem Words.fsub (t : ThreadRef) (dst src1 src2 : RegNum) : Words.Statement (.fsub t dst src1 src2) := Words.ofWord rfl rfl
theorem Words.fmul (t : ThreadRef) (dst src1 src2 : RegNum) : Words.Statement (.fmul t dst src1 src2) := Words.ofWord rfl rfl
theorem Words.fmin (t : ThreadRef) (dst src1 src2 : RegNum) : Words.Statement (.fmin t dst src1 src2) := Words.ofWord rfl rfl
theorem Words.fmax (t : ThreadRef) (dst src1 src2 : RegNum) : Words.Statement (.fmax t dst src1 src2) := Words.ofWord rfl rfl
theorem Words.feq (t : ThreadRef) (dst src1 src2 : RegNum) : Words.Statement (.feq t dst src1 src2) := Words.ofWord rfl rfl
theorem Words.flt (t : ThreadRef) (dst src1 src2 : RegNum) : Words.Statement (.flt t dst src1 src2) := Words.ofWord rfl rfl
theorem Words.fle (t : ThreadRef) (dst src1 src2 : RegNum) : Words.Statement (.fle t dst src1 src2) := Words.ofWord rfl rfl
theorem Words.fcvtFi (t : ThreadRef) (dst src1 : RegNum) : Words.Statement (.fcvtFi t dst src1) := Words.ofWord rfl rfl
theorem Words.fcvtIf (t : ThreadRef) (dst src1 : RegNum) : Words.Statement (.fcvtIf t dst src1) := Words.ofWord rfl rfl
theorem Words.addi (t : ThreadRef) (dst src1 : RegNum) (imm : BitVec 14) :
    Words.Statement (.addi t dst src1 imm) := Words.ofWord rfl rfl
theorem Words.andi (t : ThreadRef) (dst src1 : RegNum) (imm : BitVec 14) :
    Words.Statement (.andi t dst src1 imm) := Words.ofWord rfl rfl
theorem Words.ori (t : ThreadRef) (dst src1 : RegNum) (imm : BitVec 14) : Words.Statement (.ori t dst src1 imm) := Words.ofWord rfl rfl
theorem Words.xori (t : ThreadRef) (dst src1 : RegNum) (imm : BitVec 14) :
    Words.Statement (.xori t dst src1 imm) := Words.ofWord rfl rfl
theorem Words.slti (t : ThreadRef) (dst src1 : RegNum) (imm : BitVec 14) :
    Words.Statement (.slti t dst src1 imm) := Words.ofWord rfl rfl
theorem Words.sltiu (t : ThreadRef) (dst src1 : RegNum) (imm : BitVec 14) :
    Words.Statement (.sltiu t dst src1 imm) := Words.ofWord rfl rfl
theorem Words.slli (t : ThreadRef) (dst src1 : RegNum) (count : BitVec 6) :
    Words.Statement (.slli t dst src1 count) := Words.ofWord rfl rfl
theorem Words.srli (t : ThreadRef) (dst src1 : RegNum) (count : BitVec 6) :
    Words.Statement (.srli t dst src1 count) := Words.ofWord rfl rfl
theorem Words.srai (t : ThreadRef) (dst src1 : RegNum) (count : BitVec 6) :
    Words.Statement (.srai t dst src1 count) := Words.ofWord rfl rfl
theorem Words.lui (t : ThreadRef) (dst : RegNum) (imm : BitVec 19) : Words.Statement (.lui t dst imm) := Words.ofWord rfl rfl
theorem Words.pcadd (t : ThreadRef) (dst : RegNum) (imm : BitVec 19) : Words.Statement (.pcadd t dst imm) := Words.ofWord rfl rfl
theorem Words.ldpc (t : ThreadRef) (dst : RegNum) (imm : BitVec 19) : Words.Statement (.ldpc t dst imm) := Words.ofWord rfl rfl
theorem Words.ld8 (t : ThreadRef) (dst src1 : RegNum) (imm : BitVec 14) : Words.Statement (.ld8 t dst src1 imm) := Words.ofWord rfl rfl
theorem Words.ld8u (t : ThreadRef) (dst src1 : RegNum) (imm : BitVec 14) :
    Words.Statement (.ld8u t dst src1 imm) := Words.ofWord rfl rfl
theorem Words.ld16 (t : ThreadRef) (dst src1 : RegNum) (imm : BitVec 14) :
    Words.Statement (.ld16 t dst src1 imm) := Words.ofWord rfl rfl
theorem Words.ld16u (t : ThreadRef) (dst src1 : RegNum) (imm : BitVec 14) :
    Words.Statement (.ld16u t dst src1 imm) := Words.ofWord rfl rfl
theorem Words.ld32 (t : ThreadRef) (dst src1 : RegNum) (imm : BitVec 14) :
    Words.Statement (.ld32 t dst src1 imm) := Words.ofWord rfl rfl
theorem Words.ld32u (t : ThreadRef) (dst src1 : RegNum) (imm : BitVec 14) :
    Words.Statement (.ld32u t dst src1 imm) := Words.ofWord rfl rfl
theorem Words.ld64 (t : ThreadRef) (dst src1 : RegNum) (imm : BitVec 14) :
    Words.Statement (.ld64 t dst src1 imm) := Words.ofWord rfl rfl
theorem Words.st8 (t : ThreadRef) (src1 src2 : RegNum) (imm : BitVec 14) :
    Words.Statement (.st8 t src1 src2 imm) := Words.ofWord rfl rfl
theorem Words.st16 (t : ThreadRef) (src1 src2 : RegNum) (imm : BitVec 14) :
    Words.Statement (.st16 t src1 src2 imm) := Words.ofWord rfl rfl
theorem Words.st32 (t : ThreadRef) (src1 src2 : RegNum) (imm : BitVec 14) :
    Words.Statement (.st32 t src1 src2 imm) := Words.ofWord rfl rfl
theorem Words.st64 (t : ThreadRef) (src1 src2 : RegNum) (imm : BitVec 14) :
    Words.Statement (.st64 t src1 src2 imm) := Words.ofWord rfl rfl
theorem Words.stc (t : ThreadRef) (src1 src2 : RegNum) (width : Fin 4) (ctr : Fin 64) :
    Words.Statement (.stc t src1 src2 width ctr) := Words.ofWord rfl rfl
theorem Words.loadComplete (t : ThreadRef) (n : Nat) : Words.Statement (.loadComplete t n) := Words.ofNone rfl rfl
theorem Words.scalarAccessRelease (t : ThreadRef) : Words.Statement (.scalarAccessRelease t) := Words.ofNone rfl rfl
theorem Words.inboundWriteRelease (slot : Fin 40) (n : Nat) : Words.Statement (.inboundWriteRelease slot n) := Words.ofNone rfl rfl
theorem Words.amoAdd (t : ThreadRef) (dst src1 src2 : RegNum) (f : AmoFlags) :
    Words.Statement (.amoAdd t dst src1 src2 f) := Words.ofWord rfl rfl
theorem Words.amoMin (t : ThreadRef) (dst src1 src2 : RegNum) (f : AmoFlags) :
    Words.Statement (.amoMin t dst src1 src2 f) := Words.ofWord rfl rfl
theorem Words.amoMax (t : ThreadRef) (dst src1 src2 : RegNum) (f : AmoFlags) :
    Words.Statement (.amoMax t dst src1 src2 f) := Words.ofWord rfl rfl
theorem Words.amoMinu (t : ThreadRef) (dst src1 src2 : RegNum) (f : AmoFlags) :
    Words.Statement (.amoMinu t dst src1 src2 f) := Words.ofWord rfl rfl
theorem Words.amoMaxu (t : ThreadRef) (dst src1 src2 : RegNum) (f : AmoFlags) :
    Words.Statement (.amoMaxu t dst src1 src2 f) := Words.ofWord rfl rfl
theorem Words.amoCas (t : ThreadRef) (dst src1 src2 : RegNum) (f : AmoFlags) :
    Words.Statement (.amoCas t dst src1 src2 f) := Words.ofWord rfl rfl
theorem Words.amoFadd (t : ThreadRef) (dst src1 src2 : RegNum) (f : AmoFlags) :
    Words.Statement (.amoFadd t dst src1 src2 f) := Words.ofWord rfl rfl
theorem Words.beq (t : ThreadRef) (src1 src2 : RegNum) (imm : BitVec 14) :
    Words.Statement (.beq t src1 src2 imm) := Words.ofWord rfl rfl
theorem Words.bne (t : ThreadRef) (src1 src2 : RegNum) (imm : BitVec 14) :
    Words.Statement (.bne t src1 src2 imm) := Words.ofWord rfl rfl
theorem Words.blt (t : ThreadRef) (src1 src2 : RegNum) (imm : BitVec 14) :
    Words.Statement (.blt t src1 src2 imm) := Words.ofWord rfl rfl
theorem Words.bge (t : ThreadRef) (src1 src2 : RegNum) (imm : BitVec 14) :
    Words.Statement (.bge t src1 src2 imm) := Words.ofWord rfl rfl
theorem Words.bltu (t : ThreadRef) (src1 src2 : RegNum) (imm : BitVec 14) :
    Words.Statement (.bltu t src1 src2 imm) := Words.ofWord rfl rfl
theorem Words.bgeu (t : ThreadRef) (src1 src2 : RegNum) (imm : BitVec 14) :
    Words.Statement (.bgeu t src1 src2 imm) := Words.ofWord rfl rfl
theorem Words.jal (t : ThreadRef) (dst : RegNum) (imm : BitVec 19) : Words.Statement (.jal t dst imm) := Words.ofWord rfl rfl
theorem Words.jalr (t : ThreadRef) (dst src1 : RegNum) (imm : BitVec 14) :
    Words.Statement (.jalr t dst src1 imm) := Words.ofWord rfl rfl
theorem Words.fenceAcq (t : ThreadRef) : Words.Statement (.fenceAcq t) := Words.ofWord rfl rfl
theorem Words.fenceRel (t : ThreadRef) : Words.Statement (.fenceRel t) := Words.ofWord rfl rfl
theorem Words.fenceFull (t : ThreadRef) : Words.Statement (.fenceFull t) := Words.ofWord rfl rfl
theorem Words.fenceComplete (t : ThreadRef) : Words.Statement (.fenceComplete t) := Words.ofNone rfl rfl
theorem Words.ifence (t : ThreadRef) : Words.Statement (.ifence t) := Words.ofWord rfl rfl
theorem Words.exit (t : ThreadRef) : Words.Statement (.exit t) := Words.ofWord rfl rfl
theorem Words.contextFree (t : ThreadRef) : Words.Statement (.contextFree t) := Words.ofNone rfl rfl
theorem Words.arrive (t : ThreadRef) (src1 src2 : RegNum) : Words.Statement (.arrive t src1 src2) := Words.ofWord rfl rfl
theorem Words.spawn (t : ThreadRef) (dst src1 src2 : RegNum) (a : Fin 29) :
    Words.Statement (.spawn t dst src1 src2 a) := Words.ofWord rfl rfl
theorem Words.selfThreadId (t : ThreadRef) (dst : RegNum) : Words.Statement (.selfThreadId t dst) := Words.ofWord rfl rfl
theorem Words.selfNodeId (t : ThreadRef) (dst : RegNum) : Words.Statement (.selfNodeId t dst) := Words.ofWord rfl rfl
theorem Words.selfLogicalCore (t : ThreadRef) (dst : RegNum) : Words.Statement (.selfLogicalCore t dst) := Words.ofWord rfl rfl
theorem Words.selfContext (t : ThreadRef) (dst : RegNum) : Words.Statement (.selfContext t dst) := Words.ofWord rfl rfl
theorem Words.selfDomain (t : ThreadRef) (dst : RegNum) : Words.Statement (.selfDomain t dst) := Words.ofWord rfl rfl
theorem Words.selfClass (t : ThreadRef) (dst : RegNum) : Words.Statement (.selfClass t dst) := Words.ofWord rfl rfl
theorem Words.selfDeviceTime (t : ThreadRef) (dst : RegNum) : Words.Statement (.selfDeviceTime t dst) := Words.ofWord rfl rfl
theorem Words.selfFrameNo (t : ThreadRef) (dst : RegNum) : Words.Statement (.selfFrameNo t dst) := Words.ofWord rfl rfl
theorem Words.waitTread (t : ThreadRef) (dst src1 src2 : RegNum) : Words.Statement (.waitTread t dst src1 src2) := Words.ofWord rfl rfl
theorem Words.waitLanding (t : ThreadRef) (dst src1 src2 : RegNum) :
    Words.Statement (.waitLanding t dst src1 src2) := Words.ofWord rfl rfl
theorem Words.waitTime (t : ThreadRef) (dst src1 src2 : RegNum) : Words.Statement (.waitTime t dst src1 src2) := Words.ofWord rfl rfl
theorem Words.waitCount (t : ThreadRef) (dst src1 src2 : RegNum) (n : Fin 64) :
    Words.Statement (.waitCount t dst src1 src2 n) := Words.ofWord rfl rfl
theorem Words.waitHalo (t : ThreadRef) (dst src1 src2 : RegNum) (j : Fin 32) :
    Words.Statement (.waitHalo t dst src1 src2 j) := Words.ofWord rfl rfl
theorem Words.treadMark (t : ThreadRef) (src1 : RegNum) (j : Fin 32) : Words.Statement (.treadMark t src1 j) := Words.ofWord rfl rfl
theorem Words.treadMarkEffect (t : ThreadRef) : Words.Statement (.treadMarkEffect t) := Words.ofNone rfl rfl
theorem Words.starvationPromote (t : ThreadRef) : Words.Statement (.starvationPromote t) := Words.ofNone rfl rfl
theorem Words.tensorEnter (t : ThreadRef) : Words.Statement (.tensorEnter t) := Words.ofNone rfl rfl
theorem Words.tensorAdmit (slot : Fin 40) (id : Nat) : Words.Statement (.tensorAdmit slot id) := Words.ofNone rfl rfl
theorem Words.queueDispatch (slot : Fin 40) (q : Queue) : Words.Statement (.queueDispatch slot q) := Words.ofNone rfl rfl
theorem Words.tensorRetire (slot : Fin 40) (id : Nat) : Words.Statement (.tensorRetire slot id) := Words.ofNone rfl rfl
theorem Words.tensorFaultDeliver (slot : Fin 40) (id : Nat) : Words.Statement (.tensorFaultDeliver slot id) := Words.ofNone rfl rfl
theorem Words.passNext (slot : Fin 40) : Words.Statement (.passNext slot) := Words.ofNone rfl rfl
theorem Words.passLedgerAdmit (slot : Fin 40) : Words.Statement (.passLedgerAdmit slot) := Words.ofNone rfl rfl
theorem Words.passIssue (slot : Fin 40) (cycle : Nat) : Words.Statement (.passIssue slot cycle) := Words.ofNone rfl rfl
theorem Words.chainAbandon (slot : Fin 40) (cycle : Nat) : Words.Statement (.chainAbandon slot cycle) := Words.ofNone rfl rfl
theorem Words.correctedWriteback (slot : Fin 40) (off : BitVec 23) :
    Words.Statement (.correctedWriteback slot off) := Words.ofNone rfl rfl
theorem Words.scrubRead (slot : Fin 40) (bank : Fin 16) : Words.Statement (.scrubRead slot bank) := Words.ofNone rfl rfl
theorem Words.scrubForce (slot : Fin 40) (bank : Fin 16) : Words.Statement (.scrubForce slot bank) := Words.ofNone rfl rfl
theorem Words.scratchpadClearDone (slot : Fin 40) : Words.Statement (.scratchpadClearDone slot) := Words.ofNone rfl rfl
theorem Words.patrolRead (d : Fin 2) (ch : Fin 16) : Words.Statement (.patrolRead d ch) := Words.ofNone rfl rfl
theorem Words.hopParityReplay (h : Hop) (fails : Fin 5) (v : HopVictim) :
    Words.Statement (.hopParityReplay h fails v) := Words.ofNone rfl rfl
theorem Words.spareCmdGo (rq : Requester) (d : Fin 2) (ch : Fin 16) : Words.Statement (.spareCmdGo rq d ch) := Words.ofNone rfl rfl
theorem Words.sparingDone (d : Fin 2) : Words.Statement (.sparingDone d) := Words.ofNone rfl rfl
theorem Words.channelFail (d : Fin 2) (ch : Fin 17) : Words.Statement (.channelFail d ch) := Words.ofNone rfl rfl
theorem Words.corridorLaneSpare (group : Fin 64) : Words.Statement (.corridorLaneSpare group) := Words.ofNone rfl rfl
theorem Words.galleryDetect (p : Fin 6) (seen : BitVec 5) : Words.Statement (.galleryDetect p seen) := Words.ofNone rfl rfl
theorem Words.equaliseDone (p : Fin 6) (locked : BitVec 5) : Words.Statement (.equaliseDone p locked) := Words.ofNone rfl rfl
theorem Words.alignDone (p : Fin 6) : Words.Statement (.alignDone p) := Words.ofNone rfl rfl
theorem Words.exchange (p : Fin 6) (node : Fin 1024) (port : Fin 6) (x y z : Nat) :
    Words.Statement (.exchange p node port x y z) := Words.ofNone rfl rfl
theorem Words.laneLockLoss (p : Fin 6) : Words.Statement (.laneLockLoss p) := Words.ofNone rfl rfl
theorem Words.retrainTimeout (p : Fin 6) : Words.Statement (.retrainTimeout p) := Words.ofNone rfl rfl
theorem Words.flitTransmit (p : Fin 6) : Words.Statement (.flitTransmit p) := Words.ofNone rfl rfl
theorem Words.flitReceive (p : Fin 6) (flit : List Byte) : Words.Statement (.flitReceive p flit) := Words.ofNone rfl rfl
theorem Words.nakRepeat (p : Fin 6) : Words.Statement (.nakRepeat p) := Words.ofNone rfl rfl
theorem Words.galleryRoute (p : Fin 6) : Words.Statement (.galleryRoute p) := Words.ofNone rfl rfl
theorem Words.galleryRequestTimeout (tag : Fin 4096) : Words.Statement (.galleryRequestTimeout tag) := Words.ofNone rfl rfl
theorem Words.msgPop (rq : Requester) : Words.Statement (.msgPop rq) := Words.ofNone rfl rfl
theorem Words.ledgerSample (rails : List (Nat × Nat)) : Words.Statement (.ledgerSample rails) := Words.ofNone rfl rfl
theorem Words.frequencyStepLock (d : Fin 2) : Words.Statement (.frequencyStepLock d) := Words.ofNone rfl rfl
theorem Words.frequencyStepSwitch (d : Fin 2) : Words.Statement (.frequencyStepSwitch d) := Words.ofNone rfl rfl
theorem Words.frequencyStepAbandon (d : Fin 2) : Words.Statement (.frequencyStepAbandon d) := Words.ofNone rfl rfl
theorem Words.clusterTempSample (m : Fin 8) (t : Int) : Words.Statement (.clusterTempSample m t) := Words.ofNone rfl rfl
theorem Words.marginSample (m : Fin 8) (slacks drifts : List Int) :
    Words.Statement (.marginSample m slacks drifts) := Words.ofNone rfl rfl
theorem Words.replan (derate0 derate1 : Nat) : Words.Statement (.replan derate0 derate1) := Words.ofNone rfl rfl
theorem Words.ageCmdReplan (rq : Requester) : Words.Statement (.ageCmdReplan rq) := Words.ofNone rfl rfl
theorem Words.watchdogExpire (d : Fin 2) (n : Fin 4) : Words.Statement (.watchdogExpire d n) := Words.ofNone rfl rfl
theorem Words.pornChange (high : Bool) : Words.Statement (.pornChange high) := Words.ofNone rfl rfl
theorem Words.resetnChange (high : Bool) : Words.Statement (.resetnChange high) := Words.ofNone rfl rfl
theorem Words.perstnChange (high : Bool) : Words.Statement (.perstnChange high) := Words.ofNone rfl rfl
theorem Words.trstnChange (high : Bool) : Words.Statement (.trstnChange high) := Words.ofNone rfl rfl
theorem Words.brownout (r : Rail) : Words.Statement (.brownout r) := Words.ofNone rfl rfl
theorem Words.brownoutRelease (r : Rail) : Words.Statement (.brownoutRelease r) := Words.ofNone rfl rfl
theorem Words.clkGoodRise (c : Clk) : Words.Statement (.clkGoodRise c) := Words.ofNone rfl rfl
theorem Words.clkLoss (c : Clk) : Words.Statement (.clkLoss c) := Words.ofNone rfl rfl
theorem Words.swResetPulse (rq : Requester) (level : Fin 8) (scope : Byte) :
    Words.Statement (.swResetPulse rq level scope) := Words.ofNone rfl rfl
theorem Words.swResetAssert (rq : Requester) (level : Fin 8) (scope : Byte) :
    Words.Statement (.swResetAssert rq level scope) := Words.ofNone rfl rfl
theorem Words.swResetRelease (rq : Requester) (level : Fin 8) (scope : Byte) :
    Words.Statement (.swResetRelease rq level scope) := Words.ofNone rfl rfl
theorem Words.stubAnswer (rq : Requester) (wr : Bool) (addr : BitVec 58) :
    Words.Statement (.stubAnswer rq wr addr) := Words.ofNone rfl rfl
theorem Words.blockRelease (b : Block) : Words.Statement (.blockRelease b) := Words.ofNone rfl rfl
theorem Words.releaseDone (b : Block) : Words.Statement (.releaseDone b) := Words.ofNone rfl rfl
theorem Words.accessTableRestore (d : Fin 2) : Words.Statement (.accessTableRestore d) := Words.ofNone rfl rfl
theorem Words.bootImageCheck (src : ImageSource) (img : List Byte) : Words.Statement (.bootImageCheck src img) := Words.ofNone rfl rfl
theorem Words.bootDoneSet (fw : List (Page × Nat × Word)) : Words.Statement (.bootDoneSet fw) := Words.ofNone rfl rfl
theorem Words.bootCmdGo (rq : Requester) : Words.Statement (.bootCmdGo rq) := Words.ofNone rfl rfl
theorem Words.bootCmdRecoveryExit (rq : Requester) : Words.Statement (.bootCmdRecoveryExit rq) := Words.ofNone rfl rfl
theorem Words.detectorEvent (u : Upset) : Words.Statement (.detectorEvent u) := Words.ofNone rfl rfl
theorem Words.slotFenceWrite (rq : Requester) (d : Fin 2) (c : Fin 4) (v : Word) :
    Words.Statement (.slotFenceWrite rq d c v) := Words.ofNone rfl rfl
theorem Words.injectWrite (rq : Requester) (p : Page) (v : Word) : Words.Statement (.injectWrite rq p v) := Words.ofNone rfl rfl
theorem Words.ctxCmdFree (rq : Requester) (slot : Fin 40) : Words.Statement (.ctxCmdFree rq slot) := Words.ofNone rfl rfl
theorem Words.ctxCmdKill (rq : Requester) (slot : Fin 40) : Words.Statement (.ctxCmdKill rq slot) := Words.ofNone rfl rfl
theorem Words.ctrWrite (rq : Requester) (slot : Fin 40) (n : Fin 64) (v : Word) :
    Words.Statement (.ctrWrite rq slot n v) := Words.ofNone rfl rfl
theorem Words.quiesceReqWrite (rq : Requester) (p : Page) (on : Bool) :
    Words.Statement (.quiesceReqWrite rq p on) := Words.ofNone rfl rfl
theorem Words.quoteCmdGo (rq : Requester) : Words.Statement (.quoteCmdGo rq) := Words.ofNone rfl rfl
theorem Words.extendCmdGo (rq : Requester) (slot : Fin 4) : Words.Statement (.extendCmdGo rq slot) := Words.ofNone rfl rfl
theorem Words.debugEnSet (rq : Requester) : Words.Statement (.debugEnSet rq) := Words.ofNone rfl rfl
theorem Words.samplePreload (cells : List Bool) : Words.Statement (.samplePreload cells) := Words.ofNone rfl rfl
theorem Words.jtagBypass (code : Byte) : Words.Statement (.jtagBypass code) := Words.ofNone rfl rfl
theorem Words.dbgAccessUpdate (wr : Bool) (addr : BitVec 58) (data : Word) :
    Words.Statement (.dbgAccessUpdate wr addr data) := Words.ofNone rfl rfl
theorem Words.smbWrite (cmd : Byte) (data : List Byte) : Words.Statement (.smbWrite cmd data) := Words.ofNone rfl rfl
theorem Words.slidingWindowAccess (wr : Bool) (off : BitVec 36) (len : Nat) (data : List Byte) :
    Words.Statement (.slidingWindowAccess wr off len data) := Words.ofNone rfl rfl
theorem Words.hostIrqSetWrite (rq : Requester) (v : Word) : Words.Statement (.hostIrqSetWrite rq v) := Words.ofNone rfl rfl
theorem Words.msixUnmask (v : Fin 64) (addr : BitVec 64) (data : Word) :
    Words.Statement (.msixUnmask v addr data) := Words.ofNone rfl rfl
theorem Words.pcieDstateChange (d3 : Bool) : Words.Statement (.pcieDstateChange d3) := Words.ofNone rfl rfl
theorem Words.pcieLinkChange (up : Bool) (speed width : Nat) : Words.Statement (.pcieLinkChange up speed width) := Words.ofNone rfl rfl
theorem Words.outboundCompletionTimeout (o : Outbound) : Words.Statement (.outboundCompletionTimeout o) := Words.ofNone rfl rfl
theorem Words.mbxNudge (rq : Requester) (v : Word) : Words.Statement (.mbxNudge rq v) := Words.ofNone rfl rfl
theorem Words.avsbusTransactionDone (d : Fin 2) (ok : Bool) (mv : BitVec 16) :
    Words.Statement (.avsbusTransactionDone d ok mv) := Words.ofNone rfl rfl
theorem Words.dramTempSample (d : Fin 2) (t : BitVec 8) : Words.Statement (.dramTempSample d t) := Words.ofNone rfl rfl
theorem Words.dramTrainingDone (ok : Bool) : Words.Statement (.dramTrainingDone ok) := Words.ofNone rfl rfl
theorem Words.ptpRequestInterval : Words.Statement .ptpRequestInterval := Words.ofNone rfl rfl
theorem Words.residenceEntryExpire : Words.Statement .residenceEntryExpire := Words.ofNone rfl rfl
theorem Words.discTimeoutExpire : Words.Statement .discTimeoutExpire := Words.ofNone rfl rfl
theorem Words.ppsInEdge : Words.Statement .ppsInEdge := Words.ofNone rfl rfl
theorem Words.ppsOutPulse : Words.Statement .ppsOutPulse := Words.ofNone rfl rfl
theorem Words.encoderIndex : Words.Statement .encoderIndex := Words.ofNone rfl rfl
theorem Words.newelTimeoutExpire : Words.Statement .newelTimeoutExpire := Words.ofNone rfl rfl
theorem Words.catchupDone : Words.Statement .catchupDone := Words.ofNone rfl rfl
theorem Words.frame0Open : Words.Statement .frame0Open := Words.ofNone rfl rfl
theorem Words.treadCut : Words.Statement .treadCut := Words.ofNone rfl rfl
theorem Words.pointFrontBarrierDone : Words.Statement .pointFrontBarrierDone := Words.ofNone rfl rfl
theorem Words.treadEvent : Words.Statement .treadEvent := Words.ofNone rfl rfl
theorem Words.violationRecordSecond : Words.Statement .violationRecordSecond := Words.ofNone rfl rfl
theorem Words.holdoffExpire : Words.Statement .holdoffExpire := Words.ofNone rfl rfl
theorem Words.rd : Words.Statement .rd := Words.ofNone rfl rfl
theorem Words.wr : Words.Statement .wr := Words.ofNone rfl rfl
theorem Words.wrc : Words.Statement .wrc := Words.ofNone rfl rfl
theorem Words.amo : Words.Statement .amo := Words.ofNone rfl rfl
theorem Words.galleryArrive : Words.Statement .galleryArrive := Words.ofNone rfl rfl
theorem Words.msg : Words.Statement .msg := Words.ofNone rfl rfl
theorem Words.reset : Words.Statement .reset := Words.ofNone rfl rfl
theorem Words.contrib : Words.Statement .contrib := Words.ofNone rfl rfl
theorem Words.cpl : Words.Statement .cpl := Words.ofNone rfl rfl
theorem Words.cplData : Words.Statement .cplData := Words.ofNone rfl rfl
theorem Words.ledgerPeriodEnd : Words.Statement .ledgerPeriodEnd := Words.ofNone rfl rfl
theorem Words.throttleTick : Words.Statement .throttleTick := Words.ofNone rfl rfl
theorem Words.thermalTripRelease : Words.Statement .thermalTripRelease := Words.ofNone rfl rfl
theorem Words.supplyWarnFall : Words.Statement .supplyWarnFall := Words.ofNone rfl rfl
theorem Words.holdDeadlineExpire : Words.Statement .holdDeadlineExpire := Words.ofNone rfl rfl
theorem Words.supplyHoldEnter : Words.Statement .supplyHoldEnter := Words.ofNone rfl rfl
theorem Words.supplyWarnRise : Words.Statement .supplyWarnRise := Words.ofNone rfl rfl
theorem Words.supplyRelease : Words.Statement .supplyRelease := Words.ofNone rfl rfl
theorem Words.poweredHour : Words.Statement .poweredHour := Words.ofNone rfl rfl
theorem Words.pcieHotReset : Words.Statement .pcieHotReset := Words.ofNone rfl rfl
theorem Words.pcieFlr : Words.Statement .pcieFlr := Words.ofNone rfl rfl
theorem Words.resetSourceTimer : Words.Statement .resetSourceTimer := Words.ofNone rfl rfl
theorem Words.vddAonLoss : Words.Statement .vddAonLoss := Words.ofNone rfl rfl
theorem Words.mirrorResyncDone : Words.Statement .mirrorResyncDone := Words.ofNone rfl rfl
theorem Words.bootTimerExpire : Words.Statement .bootTimerExpire := Words.ofNone rfl rfl
theorem Words.errorRecordSecond : Words.Statement .errorRecordSecond := Words.ofNone rfl rfl
theorem Words.historyRecordWrite : Words.Statement .historyRecordWrite := Words.ofNone rfl rfl
theorem Words.coreFence : Words.Statement .coreFence := Words.ofNone rfl rfl
theorem Words.quoteDone : Words.Statement .quoteDone := Words.ofNone rfl rfl
theorem Words.extest : Words.Statement .extest := Words.ofNone rfl rfl
theorem Words.idcode : Words.Statement .idcode := Words.ofNone rfl rfl
theorem Words.dbgAccessCapture : Words.Statement .dbgAccessCapture := Words.ofNone rfl rfl
theorem Words.smbReadPkgInfo : Words.Statement .smbReadPkgInfo := Words.ofNone rfl rfl
theorem Words.smbReadStatus : Words.Statement .smbReadStatus := Words.ofNone rfl rfl
theorem Words.smbReadTemperature : Words.Statement .smbReadTemperature := Words.ofNone rfl rfl
theorem Words.smbReadFaultLatch : Words.Statement .smbReadFaultLatch := Words.ofNone rfl rfl
theorem Words.smbReadFail : Words.Statement .smbReadFail := Words.ofNone rfl rfl
theorem Words.smbReadPoweredHours : Words.Statement .smbReadPoweredHours := Words.ofNone rfl rfl
theorem Words.mbxScan : Words.Statement .mbxScan := Words.ofNone rfl rfl
theorem Words.nop : Words.Statement .nop := Words.ofNone rfl rfl
theorem Words.mbxSpawn : Words.Statement .mbxSpawn := Words.ofNone rfl rfl
theorem Words.kill : Words.Statement .kill := Words.ofNone rfl rfl
theorem Words.free : Words.Statement .free := Words.ofNone rfl rfl
theorem Words.identityKeyDerived : Words.Statement .identityKeyDerived := Words.ofNone rfl rfl
theorem Words.vddAonReturn : Words.Statement .vddAonReturn := Words.ofNone rfl rfl

end Sys2Proof.Laws
end

