-- ==== Sys2Proof/Laws/State.lean ====
section
/-!
SUPPORT. Each update of the state leaves every other field as it is: one law per field per update.
-/

namespace Sys2Proof.Machine

/-! ### putWord -/

@[simp] theorem putWord_pending (s : State) (p : Page) (o v : Nat) : (putWord s p o v).pending = s.pending := rfl
@[simp] theorem putWord_now (s : State) (p : Page) (o v : Nat) : (putWord s p o v).now = s.now := rfl
@[simp] theorem putWord_free (s : State) (p : Page) (o v : Nat) : (putWord s p o v).free = s.free := rfl
@[simp] theorem putWord_ans (s : State) (p : Page) (o v : Nat) : (putWord s p o v).ans = s.ans := rfl
@[simp] theorem putWord_fuse (s : State) (p : Page) (o v : Nat) : (putWord s p o v).fuse = s.fuse := rfl
@[simp] theorem putWord_rst (s : State) (p : Page) (o v : Nat) : (putWord s p o v).rst = s.rst := rfl
@[simp] theorem putWord_boot (s : State) (p : Page) (o v : Nat) : (putWord s p o v).boot = s.boot := rfl
@[simp] theorem putWord_hist (s : State) (p : Page) (o v : Nat) : (putWord s p o v).hist = s.hist := rfl
@[simp] theorem putWord_err (s : State) (p : Page) (o v : Nat) : (putWord s p o v).err = s.err := rfl
@[simp] theorem putWord_msix (s : State) (p : Page) (o v : Nat) : (putWord s p o v).msix = s.msix := rfl
@[simp] theorem putWord_led (s : State) (p : Page) (o v : Nat) : (putWord s p o v).led = s.led := rfl
@[simp] theorem putWord_sup (s : State) (p : Page) (o v : Nat) : (putWord s p o v).sup = s.sup := rfl
@[simp] theorem putWord_mon (s : State) (p : Page) (o v : Nat) : (putWord s p o v).mon = s.mon := rfl
@[simp] theorem putWord_att (s : State) (p : Page) (o v : Nat) : (putWord s p o v).att = s.att := rfl
@[simp] theorem putWord_jtag (s : State) (p : Page) (o v : Nat) : (putWord s p o v).jtag = s.jtag := rfl
@[simp] theorem putWord_mem (s : State) (p : Page) (o v : Nat) : (putWord s p o v).mem = s.mem := rfl
@[simp] theorem putWord_hostMem (s : State) (p : Page) (o v : Nat) : (putWord s p o v).hostMem = s.hostMem := rfl
@[simp] theorem putWord_tb (s : State) (p : Page) (o v : Nat) : (putWord s p o v).tb = s.tb := rfl
@[simp] theorem putWord_stair (s : State) (p : Page) (o v : Nat) : (putWord s p o v).stair = s.stair := rfl
@[simp] theorem putWord_trig (s : State) (p : Page) (o v : Nat) : (putWord s p o v).trig = s.trig := rfl
@[simp] theorem putWord_cap (s : State) (p : Page) (o v : Nat) : (putWord s p o v).cap = s.cap := rfl
@[simp] theorem putWord_byp (s : State) (p : Page) (o v : Nat) : (putWord s p o v).byp = s.byp := rfl
@[simp] theorem putWord_ports (s : State) (p : Page) (o v : Nat) : (putWord s p o v).ports = s.ports := rfl
@[simp] theorem putWord_ctx (s : State) (p : Page) (o v : Nat) : (putWord s p o v).ctx = s.ctx := rfl
@[simp] theorem putWord_core (s : State) (p : Page) (o v : Nat) : (putWord s p o v).core = s.core := rfl
@[simp] theorem putWord_ecc (s : State) (p : Page) (o v : Nat) : (putWord s p o v).ecc = s.ecc := rfl
@[simp] theorem putWord_front (s : State) (p : Page) (o v : Nat) : (putWord s p o v).front = s.front := rfl
@[simp] theorem putWord_hall (s : State) (p : Page) (o v : Nat) : (putWord s p o v).hall = s.hall := rfl
@[simp] theorem putWord_gal (s : State) (p : Page) (o v : Nat) : (putWord s p o v).gal = s.gal := rfl
@[simp] theorem putWord_emb (s : State) (p : Page) (o v : Nat) : (putWord s p o v).emb = s.emb := rfl
@[simp] theorem putWord_flow (s : State) (p : Page) (o v : Nat) : (putWord s p o v).flow = s.flow := rfl
@[simp] theorem putWord_bld (s : State) (p : Page) (o v : Nat) : (putWord s p o v).bld = s.bld := rfl
@[simp] theorem putWord_nbr (s : State) (p : Page) (o v : Nat) : (putWord s p o v).nbr = s.nbr := rfl
@[simp] theorem putWord_grp (s : State) (p : Page) (o v : Nat) : (putWord s p o v).grp = s.grp := rfl
@[simp] theorem putWord_scrub (s : State) (p : Page) (o v : Nat) : (putWord s p o v).scrub = s.scrub := rfl
@[simp] theorem putWord_patrol (s : State) (p : Page) (o v : Nat) : (putWord s p o v).patrol = s.patrol := rfl
@[simp] theorem putWord_mbx (s : State) (p : Page) (o v : Nat) : (putWord s p o v).mbx = s.mbx := rfl

/-! ### fset -/

@[simp] theorem fset_pending (s : State) (p : Page) (f : Fld) (v : Nat) : (fset s p f v).pending = s.pending := rfl
@[simp] theorem fset_now (s : State) (p : Page) (f : Fld) (v : Nat) : (fset s p f v).now = s.now := rfl
@[simp] theorem fset_free (s : State) (p : Page) (f : Fld) (v : Nat) : (fset s p f v).free = s.free := rfl
@[simp] theorem fset_ans (s : State) (p : Page) (f : Fld) (v : Nat) : (fset s p f v).ans = s.ans := rfl
@[simp] theorem fset_fuse (s : State) (p : Page) (f : Fld) (v : Nat) : (fset s p f v).fuse = s.fuse := rfl
@[simp] theorem fset_rst (s : State) (p : Page) (f : Fld) (v : Nat) : (fset s p f v).rst = s.rst := rfl
@[simp] theorem fset_boot (s : State) (p : Page) (f : Fld) (v : Nat) : (fset s p f v).boot = s.boot := rfl
@[simp] theorem fset_hist (s : State) (p : Page) (f : Fld) (v : Nat) : (fset s p f v).hist = s.hist := rfl
@[simp] theorem fset_err (s : State) (p : Page) (f : Fld) (v : Nat) : (fset s p f v).err = s.err := rfl
@[simp] theorem fset_msix (s : State) (p : Page) (f : Fld) (v : Nat) : (fset s p f v).msix = s.msix := rfl
@[simp] theorem fset_led (s : State) (p : Page) (f : Fld) (v : Nat) : (fset s p f v).led = s.led := rfl
@[simp] theorem fset_sup (s : State) (p : Page) (f : Fld) (v : Nat) : (fset s p f v).sup = s.sup := rfl
@[simp] theorem fset_mon (s : State) (p : Page) (f : Fld) (v : Nat) : (fset s p f v).mon = s.mon := rfl
@[simp] theorem fset_att (s : State) (p : Page) (f : Fld) (v : Nat) : (fset s p f v).att = s.att := rfl
@[simp] theorem fset_jtag (s : State) (p : Page) (f : Fld) (v : Nat) : (fset s p f v).jtag = s.jtag := rfl
@[simp] theorem fset_mem (s : State) (p : Page) (f : Fld) (v : Nat) : (fset s p f v).mem = s.mem := rfl
@[simp] theorem fset_hostMem (s : State) (p : Page) (f : Fld) (v : Nat) : (fset s p f v).hostMem = s.hostMem := rfl
@[simp] theorem fset_tb (s : State) (p : Page) (f : Fld) (v : Nat) : (fset s p f v).tb = s.tb := rfl
@[simp] theorem fset_stair (s : State) (p : Page) (f : Fld) (v : Nat) : (fset s p f v).stair = s.stair := rfl
@[simp] theorem fset_trig (s : State) (p : Page) (f : Fld) (v : Nat) : (fset s p f v).trig = s.trig := rfl
@[simp] theorem fset_cap (s : State) (p : Page) (f : Fld) (v : Nat) : (fset s p f v).cap = s.cap := rfl
@[simp] theorem fset_byp (s : State) (p : Page) (f : Fld) (v : Nat) : (fset s p f v).byp = s.byp := rfl
@[simp] theorem fset_ports (s : State) (p : Page) (f : Fld) (v : Nat) : (fset s p f v).ports = s.ports := rfl
@[simp] theorem fset_ctx (s : State) (p : Page) (f : Fld) (v : Nat) : (fset s p f v).ctx = s.ctx := rfl
@[simp] theorem fset_core (s : State) (p : Page) (f : Fld) (v : Nat) : (fset s p f v).core = s.core := rfl
@[simp] theorem fset_ecc (s : State) (p : Page) (f : Fld) (v : Nat) : (fset s p f v).ecc = s.ecc := rfl
@[simp] theorem fset_front (s : State) (p : Page) (f : Fld) (v : Nat) : (fset s p f v).front = s.front := rfl
@[simp] theorem fset_hall (s : State) (p : Page) (f : Fld) (v : Nat) : (fset s p f v).hall = s.hall := rfl
@[simp] theorem fset_gal (s : State) (p : Page) (f : Fld) (v : Nat) : (fset s p f v).gal = s.gal := rfl
@[simp] theorem fset_emb (s : State) (p : Page) (f : Fld) (v : Nat) : (fset s p f v).emb = s.emb := rfl
@[simp] theorem fset_flow (s : State) (p : Page) (f : Fld) (v : Nat) : (fset s p f v).flow = s.flow := rfl
@[simp] theorem fset_bld (s : State) (p : Page) (f : Fld) (v : Nat) : (fset s p f v).bld = s.bld := rfl
@[simp] theorem fset_nbr (s : State) (p : Page) (f : Fld) (v : Nat) : (fset s p f v).nbr = s.nbr := rfl
@[simp] theorem fset_grp (s : State) (p : Page) (f : Fld) (v : Nat) : (fset s p f v).grp = s.grp := rfl
@[simp] theorem fset_scrub (s : State) (p : Page) (f : Fld) (v : Nat) : (fset s p f v).scrub = s.scrub := rfl
@[simp] theorem fset_patrol (s : State) (p : Page) (f : Fld) (v : Nat) : (fset s p f v).patrol = s.patrol := rfl
@[simp] theorem fset_mbx (s : State) (p : Page) (f : Fld) (v : Nat) : (fset s p f v).mbx = s.mbx := rfl

/-! ### fadd -/

@[simp] theorem fadd_pending (s : State) (p : Page) (f : Fld) (v : Nat) : (fadd s p f v).pending = s.pending := rfl
@[simp] theorem fadd_now (s : State) (p : Page) (f : Fld) (v : Nat) : (fadd s p f v).now = s.now := rfl
@[simp] theorem fadd_free (s : State) (p : Page) (f : Fld) (v : Nat) : (fadd s p f v).free = s.free := rfl
@[simp] theorem fadd_ans (s : State) (p : Page) (f : Fld) (v : Nat) : (fadd s p f v).ans = s.ans := rfl
@[simp] theorem fadd_fuse (s : State) (p : Page) (f : Fld) (v : Nat) : (fadd s p f v).fuse = s.fuse := rfl
@[simp] theorem fadd_rst (s : State) (p : Page) (f : Fld) (v : Nat) : (fadd s p f v).rst = s.rst := rfl
@[simp] theorem fadd_boot (s : State) (p : Page) (f : Fld) (v : Nat) : (fadd s p f v).boot = s.boot := rfl
@[simp] theorem fadd_hist (s : State) (p : Page) (f : Fld) (v : Nat) : (fadd s p f v).hist = s.hist := rfl
@[simp] theorem fadd_err (s : State) (p : Page) (f : Fld) (v : Nat) : (fadd s p f v).err = s.err := rfl
@[simp] theorem fadd_msix (s : State) (p : Page) (f : Fld) (v : Nat) : (fadd s p f v).msix = s.msix := rfl
@[simp] theorem fadd_led (s : State) (p : Page) (f : Fld) (v : Nat) : (fadd s p f v).led = s.led := rfl
@[simp] theorem fadd_sup (s : State) (p : Page) (f : Fld) (v : Nat) : (fadd s p f v).sup = s.sup := rfl
@[simp] theorem fadd_mon (s : State) (p : Page) (f : Fld) (v : Nat) : (fadd s p f v).mon = s.mon := rfl
@[simp] theorem fadd_att (s : State) (p : Page) (f : Fld) (v : Nat) : (fadd s p f v).att = s.att := rfl
@[simp] theorem fadd_jtag (s : State) (p : Page) (f : Fld) (v : Nat) : (fadd s p f v).jtag = s.jtag := rfl
@[simp] theorem fadd_mem (s : State) (p : Page) (f : Fld) (v : Nat) : (fadd s p f v).mem = s.mem := rfl
@[simp] theorem fadd_hostMem (s : State) (p : Page) (f : Fld) (v : Nat) : (fadd s p f v).hostMem = s.hostMem := rfl
@[simp] theorem fadd_tb (s : State) (p : Page) (f : Fld) (v : Nat) : (fadd s p f v).tb = s.tb := rfl
@[simp] theorem fadd_stair (s : State) (p : Page) (f : Fld) (v : Nat) : (fadd s p f v).stair = s.stair := rfl
@[simp] theorem fadd_trig (s : State) (p : Page) (f : Fld) (v : Nat) : (fadd s p f v).trig = s.trig := rfl
@[simp] theorem fadd_cap (s : State) (p : Page) (f : Fld) (v : Nat) : (fadd s p f v).cap = s.cap := rfl
@[simp] theorem fadd_byp (s : State) (p : Page) (f : Fld) (v : Nat) : (fadd s p f v).byp = s.byp := rfl
@[simp] theorem fadd_ports (s : State) (p : Page) (f : Fld) (v : Nat) : (fadd s p f v).ports = s.ports := rfl
@[simp] theorem fadd_ctx (s : State) (p : Page) (f : Fld) (v : Nat) : (fadd s p f v).ctx = s.ctx := rfl
@[simp] theorem fadd_core (s : State) (p : Page) (f : Fld) (v : Nat) : (fadd s p f v).core = s.core := rfl
@[simp] theorem fadd_ecc (s : State) (p : Page) (f : Fld) (v : Nat) : (fadd s p f v).ecc = s.ecc := rfl
@[simp] theorem fadd_front (s : State) (p : Page) (f : Fld) (v : Nat) : (fadd s p f v).front = s.front := rfl
@[simp] theorem fadd_hall (s : State) (p : Page) (f : Fld) (v : Nat) : (fadd s p f v).hall = s.hall := rfl
@[simp] theorem fadd_gal (s : State) (p : Page) (f : Fld) (v : Nat) : (fadd s p f v).gal = s.gal := rfl
@[simp] theorem fadd_emb (s : State) (p : Page) (f : Fld) (v : Nat) : (fadd s p f v).emb = s.emb := rfl
@[simp] theorem fadd_flow (s : State) (p : Page) (f : Fld) (v : Nat) : (fadd s p f v).flow = s.flow := rfl
@[simp] theorem fadd_bld (s : State) (p : Page) (f : Fld) (v : Nat) : (fadd s p f v).bld = s.bld := rfl
@[simp] theorem fadd_nbr (s : State) (p : Page) (f : Fld) (v : Nat) : (fadd s p f v).nbr = s.nbr := rfl
@[simp] theorem fadd_grp (s : State) (p : Page) (f : Fld) (v : Nat) : (fadd s p f v).grp = s.grp := rfl
@[simp] theorem fadd_scrub (s : State) (p : Page) (f : Fld) (v : Nat) : (fadd s p f v).scrub = s.scrub := rfl
@[simp] theorem fadd_patrol (s : State) (p : Page) (f : Fld) (v : Nat) : (fadd s p f v).patrol = s.patrol := rfl
@[simp] theorem fadd_mbx (s : State) (p : Page) (f : Fld) (v : Nat) : (fadd s p f v).mbx = s.mbx := rfl

/-! ### raiseInt -/

@[simp] theorem raiseInt_pending (s : State) (p : Page) (b : Nat) : (raiseInt s p b).pending = s.pending := rfl
@[simp] theorem raiseInt_now (s : State) (p : Page) (b : Nat) : (raiseInt s p b).now = s.now := rfl
@[simp] theorem raiseInt_free (s : State) (p : Page) (b : Nat) : (raiseInt s p b).free = s.free := rfl
@[simp] theorem raiseInt_ans (s : State) (p : Page) (b : Nat) : (raiseInt s p b).ans = s.ans := rfl
@[simp] theorem raiseInt_fuse (s : State) (p : Page) (b : Nat) : (raiseInt s p b).fuse = s.fuse := rfl
@[simp] theorem raiseInt_rst (s : State) (p : Page) (b : Nat) : (raiseInt s p b).rst = s.rst := rfl
@[simp] theorem raiseInt_boot (s : State) (p : Page) (b : Nat) : (raiseInt s p b).boot = s.boot := rfl
@[simp] theorem raiseInt_hist (s : State) (p : Page) (b : Nat) : (raiseInt s p b).hist = s.hist := rfl
@[simp] theorem raiseInt_err (s : State) (p : Page) (b : Nat) : (raiseInt s p b).err = s.err := rfl
@[simp] theorem raiseInt_msix (s : State) (p : Page) (b : Nat) : (raiseInt s p b).msix = s.msix := rfl
@[simp] theorem raiseInt_led (s : State) (p : Page) (b : Nat) : (raiseInt s p b).led = s.led := rfl
@[simp] theorem raiseInt_sup (s : State) (p : Page) (b : Nat) : (raiseInt s p b).sup = s.sup := rfl
@[simp] theorem raiseInt_mon (s : State) (p : Page) (b : Nat) : (raiseInt s p b).mon = s.mon := rfl
@[simp] theorem raiseInt_att (s : State) (p : Page) (b : Nat) : (raiseInt s p b).att = s.att := rfl
@[simp] theorem raiseInt_jtag (s : State) (p : Page) (b : Nat) : (raiseInt s p b).jtag = s.jtag := rfl
@[simp] theorem raiseInt_mem (s : State) (p : Page) (b : Nat) : (raiseInt s p b).mem = s.mem := rfl
@[simp] theorem raiseInt_hostMem (s : State) (p : Page) (b : Nat) : (raiseInt s p b).hostMem = s.hostMem := rfl
@[simp] theorem raiseInt_tb (s : State) (p : Page) (b : Nat) : (raiseInt s p b).tb = s.tb := rfl
@[simp] theorem raiseInt_stair (s : State) (p : Page) (b : Nat) : (raiseInt s p b).stair = s.stair := rfl
@[simp] theorem raiseInt_trig (s : State) (p : Page) (b : Nat) : (raiseInt s p b).trig = s.trig := rfl
@[simp] theorem raiseInt_cap (s : State) (p : Page) (b : Nat) : (raiseInt s p b).cap = s.cap := rfl
@[simp] theorem raiseInt_byp (s : State) (p : Page) (b : Nat) : (raiseInt s p b).byp = s.byp := rfl
@[simp] theorem raiseInt_ports (s : State) (p : Page) (b : Nat) : (raiseInt s p b).ports = s.ports := rfl
@[simp] theorem raiseInt_ctx (s : State) (p : Page) (b : Nat) : (raiseInt s p b).ctx = s.ctx := rfl
@[simp] theorem raiseInt_core (s : State) (p : Page) (b : Nat) : (raiseInt s p b).core = s.core := rfl
@[simp] theorem raiseInt_ecc (s : State) (p : Page) (b : Nat) : (raiseInt s p b).ecc = s.ecc := rfl
@[simp] theorem raiseInt_front (s : State) (p : Page) (b : Nat) : (raiseInt s p b).front = s.front := rfl
@[simp] theorem raiseInt_hall (s : State) (p : Page) (b : Nat) : (raiseInt s p b).hall = s.hall := rfl
@[simp] theorem raiseInt_gal (s : State) (p : Page) (b : Nat) : (raiseInt s p b).gal = s.gal := rfl
@[simp] theorem raiseInt_emb (s : State) (p : Page) (b : Nat) : (raiseInt s p b).emb = s.emb := rfl
@[simp] theorem raiseInt_flow (s : State) (p : Page) (b : Nat) : (raiseInt s p b).flow = s.flow := rfl
@[simp] theorem raiseInt_bld (s : State) (p : Page) (b : Nat) : (raiseInt s p b).bld = s.bld := rfl
@[simp] theorem raiseInt_nbr (s : State) (p : Page) (b : Nat) : (raiseInt s p b).nbr = s.nbr := rfl
@[simp] theorem raiseInt_grp (s : State) (p : Page) (b : Nat) : (raiseInt s p b).grp = s.grp := rfl
@[simp] theorem raiseInt_scrub (s : State) (p : Page) (b : Nat) : (raiseInt s p b).scrub = s.scrub := rfl
@[simp] theorem raiseInt_patrol (s : State) (p : Page) (b : Nat) : (raiseInt s p b).patrol = s.patrol := rfl
@[simp] theorem raiseInt_mbx (s : State) (p : Page) (b : Nat) : (raiseInt s p b).mbx = s.mbx := rfl

/-! ### setCtx -/

@[simp] theorem setCtx_pending (s : State) (n c : Nat) (x : Ctx) : (setCtx s n c x).pending = s.pending := rfl
@[simp] theorem setCtx_now (s : State) (n c : Nat) (x : Ctx) : (setCtx s n c x).now = s.now := rfl
@[simp] theorem setCtx_free (s : State) (n c : Nat) (x : Ctx) : (setCtx s n c x).free = s.free := rfl
@[simp] theorem setCtx_ans (s : State) (n c : Nat) (x : Ctx) : (setCtx s n c x).ans = s.ans := rfl
@[simp] theorem setCtx_fuse (s : State) (n c : Nat) (x : Ctx) : (setCtx s n c x).fuse = s.fuse := rfl
@[simp] theorem setCtx_reg (s : State) (n c : Nat) (x : Ctx) : (setCtx s n c x).reg = s.reg := rfl
@[simp] theorem setCtx_rst (s : State) (n c : Nat) (x : Ctx) : (setCtx s n c x).rst = s.rst := rfl
@[simp] theorem setCtx_boot (s : State) (n c : Nat) (x : Ctx) : (setCtx s n c x).boot = s.boot := rfl
@[simp] theorem setCtx_hist (s : State) (n c : Nat) (x : Ctx) : (setCtx s n c x).hist = s.hist := rfl
@[simp] theorem setCtx_err (s : State) (n c : Nat) (x : Ctx) : (setCtx s n c x).err = s.err := rfl
@[simp] theorem setCtx_msix (s : State) (n c : Nat) (x : Ctx) : (setCtx s n c x).msix = s.msix := rfl
@[simp] theorem setCtx_led (s : State) (n c : Nat) (x : Ctx) : (setCtx s n c x).led = s.led := rfl
@[simp] theorem setCtx_sup (s : State) (n c : Nat) (x : Ctx) : (setCtx s n c x).sup = s.sup := rfl
@[simp] theorem setCtx_mon (s : State) (n c : Nat) (x : Ctx) : (setCtx s n c x).mon = s.mon := rfl
@[simp] theorem setCtx_att (s : State) (n c : Nat) (x : Ctx) : (setCtx s n c x).att = s.att := rfl
@[simp] theorem setCtx_jtag (s : State) (n c : Nat) (x : Ctx) : (setCtx s n c x).jtag = s.jtag := rfl
@[simp] theorem setCtx_mem (s : State) (n c : Nat) (x : Ctx) : (setCtx s n c x).mem = s.mem := rfl
@[simp] theorem setCtx_hostMem (s : State) (n c : Nat) (x : Ctx) : (setCtx s n c x).hostMem = s.hostMem := rfl
@[simp] theorem setCtx_tb (s : State) (n c : Nat) (x : Ctx) : (setCtx s n c x).tb = s.tb := rfl
@[simp] theorem setCtx_stair (s : State) (n c : Nat) (x : Ctx) : (setCtx s n c x).stair = s.stair := rfl
@[simp] theorem setCtx_trig (s : State) (n c : Nat) (x : Ctx) : (setCtx s n c x).trig = s.trig := rfl
@[simp] theorem setCtx_cap (s : State) (n c : Nat) (x : Ctx) : (setCtx s n c x).cap = s.cap := rfl
@[simp] theorem setCtx_byp (s : State) (n c : Nat) (x : Ctx) : (setCtx s n c x).byp = s.byp := rfl
@[simp] theorem setCtx_ports (s : State) (n c : Nat) (x : Ctx) : (setCtx s n c x).ports = s.ports := rfl
@[simp] theorem setCtx_core (s : State) (n c : Nat) (x : Ctx) : (setCtx s n c x).core = s.core := rfl
@[simp] theorem setCtx_ecc (s : State) (n c : Nat) (x : Ctx) : (setCtx s n c x).ecc = s.ecc := rfl
@[simp] theorem setCtx_front (s : State) (n c : Nat) (x : Ctx) : (setCtx s n c x).front = s.front := rfl
@[simp] theorem setCtx_hall (s : State) (n c : Nat) (x : Ctx) : (setCtx s n c x).hall = s.hall := rfl
@[simp] theorem setCtx_gal (s : State) (n c : Nat) (x : Ctx) : (setCtx s n c x).gal = s.gal := rfl
@[simp] theorem setCtx_emb (s : State) (n c : Nat) (x : Ctx) : (setCtx s n c x).emb = s.emb := rfl
@[simp] theorem setCtx_flow (s : State) (n c : Nat) (x : Ctx) : (setCtx s n c x).flow = s.flow := rfl
@[simp] theorem setCtx_bld (s : State) (n c : Nat) (x : Ctx) : (setCtx s n c x).bld = s.bld := rfl
@[simp] theorem setCtx_nbr (s : State) (n c : Nat) (x : Ctx) : (setCtx s n c x).nbr = s.nbr := rfl
@[simp] theorem setCtx_grp (s : State) (n c : Nat) (x : Ctx) : (setCtx s n c x).grp = s.grp := rfl
@[simp] theorem setCtx_scrub (s : State) (n c : Nat) (x : Ctx) : (setCtx s n c x).scrub = s.scrub := rfl
@[simp] theorem setCtx_patrol (s : State) (n c : Nat) (x : Ctx) : (setCtx s n c x).patrol = s.patrol := rfl
@[simp] theorem setCtx_mbx (s : State) (n c : Nat) (x : Ctx) : (setCtx s n c x).mbx = s.mbx := rfl

/-! ### setRef -/

@[simp] theorem setRef_pending (s : State) (t : ThreadRef) (x : Ctx) : (setRef s t x).pending = s.pending := rfl
@[simp] theorem setRef_now (s : State) (t : ThreadRef) (x : Ctx) : (setRef s t x).now = s.now := rfl
@[simp] theorem setRef_free (s : State) (t : ThreadRef) (x : Ctx) : (setRef s t x).free = s.free := rfl
@[simp] theorem setRef_ans (s : State) (t : ThreadRef) (x : Ctx) : (setRef s t x).ans = s.ans := rfl
@[simp] theorem setRef_fuse (s : State) (t : ThreadRef) (x : Ctx) : (setRef s t x).fuse = s.fuse := rfl
@[simp] theorem setRef_reg (s : State) (t : ThreadRef) (x : Ctx) : (setRef s t x).reg = s.reg := rfl
@[simp] theorem setRef_rst (s : State) (t : ThreadRef) (x : Ctx) : (setRef s t x).rst = s.rst := rfl
@[simp] theorem setRef_boot (s : State) (t : ThreadRef) (x : Ctx) : (setRef s t x).boot = s.boot := rfl
@[simp] theorem setRef_hist (s : State) (t : ThreadRef) (x : Ctx) : (setRef s t x).hist = s.hist := rfl
@[simp] theorem setRef_err (s : State) (t : ThreadRef) (x : Ctx) : (setRef s t x).err = s.err := rfl
@[simp] theorem setRef_msix (s : State) (t : ThreadRef) (x : Ctx) : (setRef s t x).msix = s.msix := rfl
@[simp] theorem setRef_led (s : State) (t : ThreadRef) (x : Ctx) : (setRef s t x).led = s.led := rfl
@[simp] theorem setRef_sup (s : State) (t : ThreadRef) (x : Ctx) : (setRef s t x).sup = s.sup := rfl
@[simp] theorem setRef_mon (s : State) (t : ThreadRef) (x : Ctx) : (setRef s t x).mon = s.mon := rfl
@[simp] theorem setRef_att (s : State) (t : ThreadRef) (x : Ctx) : (setRef s t x).att = s.att := rfl
@[simp] theorem setRef_jtag (s : State) (t : ThreadRef) (x : Ctx) : (setRef s t x).jtag = s.jtag := rfl
@[simp] theorem setRef_mem (s : State) (t : ThreadRef) (x : Ctx) : (setRef s t x).mem = s.mem := rfl
@[simp] theorem setRef_hostMem (s : State) (t : ThreadRef) (x : Ctx) : (setRef s t x).hostMem = s.hostMem := rfl
@[simp] theorem setRef_tb (s : State) (t : ThreadRef) (x : Ctx) : (setRef s t x).tb = s.tb := rfl
@[simp] theorem setRef_stair (s : State) (t : ThreadRef) (x : Ctx) : (setRef s t x).stair = s.stair := rfl
@[simp] theorem setRef_trig (s : State) (t : ThreadRef) (x : Ctx) : (setRef s t x).trig = s.trig := rfl
@[simp] theorem setRef_cap (s : State) (t : ThreadRef) (x : Ctx) : (setRef s t x).cap = s.cap := rfl
@[simp] theorem setRef_byp (s : State) (t : ThreadRef) (x : Ctx) : (setRef s t x).byp = s.byp := rfl
@[simp] theorem setRef_ports (s : State) (t : ThreadRef) (x : Ctx) : (setRef s t x).ports = s.ports := rfl
@[simp] theorem setRef_core (s : State) (t : ThreadRef) (x : Ctx) : (setRef s t x).core = s.core := rfl
@[simp] theorem setRef_ecc (s : State) (t : ThreadRef) (x : Ctx) : (setRef s t x).ecc = s.ecc := rfl
@[simp] theorem setRef_front (s : State) (t : ThreadRef) (x : Ctx) : (setRef s t x).front = s.front := rfl
@[simp] theorem setRef_hall (s : State) (t : ThreadRef) (x : Ctx) : (setRef s t x).hall = s.hall := rfl
@[simp] theorem setRef_gal (s : State) (t : ThreadRef) (x : Ctx) : (setRef s t x).gal = s.gal := rfl
@[simp] theorem setRef_emb (s : State) (t : ThreadRef) (x : Ctx) : (setRef s t x).emb = s.emb := rfl
@[simp] theorem setRef_flow (s : State) (t : ThreadRef) (x : Ctx) : (setRef s t x).flow = s.flow := rfl
@[simp] theorem setRef_bld (s : State) (t : ThreadRef) (x : Ctx) : (setRef s t x).bld = s.bld := rfl
@[simp] theorem setRef_nbr (s : State) (t : ThreadRef) (x : Ctx) : (setRef s t x).nbr = s.nbr := rfl
@[simp] theorem setRef_grp (s : State) (t : ThreadRef) (x : Ctx) : (setRef s t x).grp = s.grp := rfl
@[simp] theorem setRef_scrub (s : State) (t : ThreadRef) (x : Ctx) : (setRef s t x).scrub = s.scrub := rfl
@[simp] theorem setRef_patrol (s : State) (t : ThreadRef) (x : Ctx) : (setRef s t x).patrol = s.patrol := rfl
@[simp] theorem setRef_mbx (s : State) (t : ThreadRef) (x : Ctx) : (setRef s t x).mbx = s.mbx := rfl

/-! ### setCore -/

@[simp] theorem setCore_pending (s : State) (n : Nat) (x : CoreState) : (setCore s n x).pending = s.pending := rfl
@[simp] theorem setCore_now (s : State) (n : Nat) (x : CoreState) : (setCore s n x).now = s.now := rfl
@[simp] theorem setCore_free (s : State) (n : Nat) (x : CoreState) : (setCore s n x).free = s.free := rfl
@[simp] theorem setCore_ans (s : State) (n : Nat) (x : CoreState) : (setCore s n x).ans = s.ans := rfl
@[simp] theorem setCore_fuse (s : State) (n : Nat) (x : CoreState) : (setCore s n x).fuse = s.fuse := rfl
@[simp] theorem setCore_reg (s : State) (n : Nat) (x : CoreState) : (setCore s n x).reg = s.reg := rfl
@[simp] theorem setCore_rst (s : State) (n : Nat) (x : CoreState) : (setCore s n x).rst = s.rst := rfl
@[simp] theorem setCore_boot (s : State) (n : Nat) (x : CoreState) : (setCore s n x).boot = s.boot := rfl
@[simp] theorem setCore_hist (s : State) (n : Nat) (x : CoreState) : (setCore s n x).hist = s.hist := rfl
@[simp] theorem setCore_err (s : State) (n : Nat) (x : CoreState) : (setCore s n x).err = s.err := rfl
@[simp] theorem setCore_msix (s : State) (n : Nat) (x : CoreState) : (setCore s n x).msix = s.msix := rfl
@[simp] theorem setCore_led (s : State) (n : Nat) (x : CoreState) : (setCore s n x).led = s.led := rfl
@[simp] theorem setCore_sup (s : State) (n : Nat) (x : CoreState) : (setCore s n x).sup = s.sup := rfl
@[simp] theorem setCore_mon (s : State) (n : Nat) (x : CoreState) : (setCore s n x).mon = s.mon := rfl
@[simp] theorem setCore_att (s : State) (n : Nat) (x : CoreState) : (setCore s n x).att = s.att := rfl
@[simp] theorem setCore_jtag (s : State) (n : Nat) (x : CoreState) : (setCore s n x).jtag = s.jtag := rfl
@[simp] theorem setCore_mem (s : State) (n : Nat) (x : CoreState) : (setCore s n x).mem = s.mem := rfl
@[simp] theorem setCore_hostMem (s : State) (n : Nat) (x : CoreState) : (setCore s n x).hostMem = s.hostMem := rfl
@[simp] theorem setCore_tb (s : State) (n : Nat) (x : CoreState) : (setCore s n x).tb = s.tb := rfl
@[simp] theorem setCore_stair (s : State) (n : Nat) (x : CoreState) : (setCore s n x).stair = s.stair := rfl
@[simp] theorem setCore_trig (s : State) (n : Nat) (x : CoreState) : (setCore s n x).trig = s.trig := rfl
@[simp] theorem setCore_cap (s : State) (n : Nat) (x : CoreState) : (setCore s n x).cap = s.cap := rfl
@[simp] theorem setCore_byp (s : State) (n : Nat) (x : CoreState) : (setCore s n x).byp = s.byp := rfl
@[simp] theorem setCore_ports (s : State) (n : Nat) (x : CoreState) : (setCore s n x).ports = s.ports := rfl
@[simp] theorem setCore_ctx (s : State) (n : Nat) (x : CoreState) : (setCore s n x).ctx = s.ctx := rfl
@[simp] theorem setCore_ecc (s : State) (n : Nat) (x : CoreState) : (setCore s n x).ecc = s.ecc := rfl
@[simp] theorem setCore_front (s : State) (n : Nat) (x : CoreState) : (setCore s n x).front = s.front := rfl
@[simp] theorem setCore_hall (s : State) (n : Nat) (x : CoreState) : (setCore s n x).hall = s.hall := rfl
@[simp] theorem setCore_gal (s : State) (n : Nat) (x : CoreState) : (setCore s n x).gal = s.gal := rfl
@[simp] theorem setCore_emb (s : State) (n : Nat) (x : CoreState) : (setCore s n x).emb = s.emb := rfl
@[simp] theorem setCore_flow (s : State) (n : Nat) (x : CoreState) : (setCore s n x).flow = s.flow := rfl
@[simp] theorem setCore_bld (s : State) (n : Nat) (x : CoreState) : (setCore s n x).bld = s.bld := rfl
@[simp] theorem setCore_nbr (s : State) (n : Nat) (x : CoreState) : (setCore s n x).nbr = s.nbr := rfl
@[simp] theorem setCore_grp (s : State) (n : Nat) (x : CoreState) : (setCore s n x).grp = s.grp := rfl
@[simp] theorem setCore_scrub (s : State) (n : Nat) (x : CoreState) : (setCore s n x).scrub = s.scrub := rfl
@[simp] theorem setCore_patrol (s : State) (n : Nat) (x : CoreState) : (setCore s n x).patrol = s.patrol := rfl
@[simp] theorem setCore_mbx (s : State) (n : Nat) (x : CoreState) : (setCore s n x).mbx = s.mbx := rfl

/-! ### wrByte -/

@[simp] theorem wrByte_pending (s : State) (a v : Nat) : (wrByte s a v).pending = s.pending := rfl
@[simp] theorem wrByte_now (s : State) (a v : Nat) : (wrByte s a v).now = s.now := rfl
@[simp] theorem wrByte_free (s : State) (a v : Nat) : (wrByte s a v).free = s.free := rfl
@[simp] theorem wrByte_ans (s : State) (a v : Nat) : (wrByte s a v).ans = s.ans := rfl
@[simp] theorem wrByte_fuse (s : State) (a v : Nat) : (wrByte s a v).fuse = s.fuse := rfl
@[simp] theorem wrByte_reg (s : State) (a v : Nat) : (wrByte s a v).reg = s.reg := rfl
@[simp] theorem wrByte_rst (s : State) (a v : Nat) : (wrByte s a v).rst = s.rst := rfl
@[simp] theorem wrByte_boot (s : State) (a v : Nat) : (wrByte s a v).boot = s.boot := rfl
@[simp] theorem wrByte_hist (s : State) (a v : Nat) : (wrByte s a v).hist = s.hist := rfl
@[simp] theorem wrByte_err (s : State) (a v : Nat) : (wrByte s a v).err = s.err := rfl
@[simp] theorem wrByte_msix (s : State) (a v : Nat) : (wrByte s a v).msix = s.msix := rfl
@[simp] theorem wrByte_led (s : State) (a v : Nat) : (wrByte s a v).led = s.led := rfl
@[simp] theorem wrByte_sup (s : State) (a v : Nat) : (wrByte s a v).sup = s.sup := rfl
@[simp] theorem wrByte_mon (s : State) (a v : Nat) : (wrByte s a v).mon = s.mon := rfl
@[simp] theorem wrByte_att (s : State) (a v : Nat) : (wrByte s a v).att = s.att := rfl
@[simp] theorem wrByte_jtag (s : State) (a v : Nat) : (wrByte s a v).jtag = s.jtag := rfl
@[simp] theorem wrByte_hostMem (s : State) (a v : Nat) : (wrByte s a v).hostMem = s.hostMem := rfl
@[simp] theorem wrByte_tb (s : State) (a v : Nat) : (wrByte s a v).tb = s.tb := rfl
@[simp] theorem wrByte_stair (s : State) (a v : Nat) : (wrByte s a v).stair = s.stair := rfl
@[simp] theorem wrByte_trig (s : State) (a v : Nat) : (wrByte s a v).trig = s.trig := rfl
@[simp] theorem wrByte_cap (s : State) (a v : Nat) : (wrByte s a v).cap = s.cap := rfl
@[simp] theorem wrByte_byp (s : State) (a v : Nat) : (wrByte s a v).byp = s.byp := rfl
@[simp] theorem wrByte_ports (s : State) (a v : Nat) : (wrByte s a v).ports = s.ports := rfl
@[simp] theorem wrByte_ctx (s : State) (a v : Nat) : (wrByte s a v).ctx = s.ctx := rfl
@[simp] theorem wrByte_core (s : State) (a v : Nat) : (wrByte s a v).core = s.core := rfl
@[simp] theorem wrByte_ecc (s : State) (a v : Nat) : (wrByte s a v).ecc = s.ecc := rfl
@[simp] theorem wrByte_front (s : State) (a v : Nat) : (wrByte s a v).front = s.front := rfl
@[simp] theorem wrByte_hall (s : State) (a v : Nat) : (wrByte s a v).hall = s.hall := rfl
@[simp] theorem wrByte_gal (s : State) (a v : Nat) : (wrByte s a v).gal = s.gal := rfl
@[simp] theorem wrByte_emb (s : State) (a v : Nat) : (wrByte s a v).emb = s.emb := rfl
@[simp] theorem wrByte_flow (s : State) (a v : Nat) : (wrByte s a v).flow = s.flow := rfl
@[simp] theorem wrByte_bld (s : State) (a v : Nat) : (wrByte s a v).bld = s.bld := rfl
@[simp] theorem wrByte_nbr (s : State) (a v : Nat) : (wrByte s a v).nbr = s.nbr := rfl
@[simp] theorem wrByte_grp (s : State) (a v : Nat) : (wrByte s a v).grp = s.grp := rfl
@[simp] theorem wrByte_scrub (s : State) (a v : Nat) : (wrByte s a v).scrub = s.scrub := rfl
@[simp] theorem wrByte_patrol (s : State) (a v : Nat) : (wrByte s a v).patrol = s.patrol := rfl
@[simp] theorem wrByte_mbx (s : State) (a v : Nat) : (wrByte s a v).mbx = s.mbx := rfl

/-! ### wrHost -/

@[simp] theorem wrHost_pending (s : State) (a v : Nat) : (wrHost s a v).pending = s.pending := rfl
@[simp] theorem wrHost_now (s : State) (a v : Nat) : (wrHost s a v).now = s.now := rfl
@[simp] theorem wrHost_free (s : State) (a v : Nat) : (wrHost s a v).free = s.free := rfl
@[simp] theorem wrHost_ans (s : State) (a v : Nat) : (wrHost s a v).ans = s.ans := rfl
@[simp] theorem wrHost_fuse (s : State) (a v : Nat) : (wrHost s a v).fuse = s.fuse := rfl
@[simp] theorem wrHost_reg (s : State) (a v : Nat) : (wrHost s a v).reg = s.reg := rfl
@[simp] theorem wrHost_rst (s : State) (a v : Nat) : (wrHost s a v).rst = s.rst := rfl
@[simp] theorem wrHost_boot (s : State) (a v : Nat) : (wrHost s a v).boot = s.boot := rfl
@[simp] theorem wrHost_hist (s : State) (a v : Nat) : (wrHost s a v).hist = s.hist := rfl
@[simp] theorem wrHost_err (s : State) (a v : Nat) : (wrHost s a v).err = s.err := rfl
@[simp] theorem wrHost_msix (s : State) (a v : Nat) : (wrHost s a v).msix = s.msix := rfl
@[simp] theorem wrHost_led (s : State) (a v : Nat) : (wrHost s a v).led = s.led := rfl
@[simp] theorem wrHost_sup (s : State) (a v : Nat) : (wrHost s a v).sup = s.sup := rfl
@[simp] theorem wrHost_mon (s : State) (a v : Nat) : (wrHost s a v).mon = s.mon := rfl
@[simp] theorem wrHost_att (s : State) (a v : Nat) : (wrHost s a v).att = s.att := rfl
@[simp] theorem wrHost_jtag (s : State) (a v : Nat) : (wrHost s a v).jtag = s.jtag := rfl
@[simp] theorem wrHost_mem (s : State) (a v : Nat) : (wrHost s a v).mem = s.mem := rfl
@[simp] theorem wrHost_tb (s : State) (a v : Nat) : (wrHost s a v).tb = s.tb := rfl
@[simp] theorem wrHost_stair (s : State) (a v : Nat) : (wrHost s a v).stair = s.stair := rfl
@[simp] theorem wrHost_trig (s : State) (a v : Nat) : (wrHost s a v).trig = s.trig := rfl
@[simp] theorem wrHost_cap (s : State) (a v : Nat) : (wrHost s a v).cap = s.cap := rfl
@[simp] theorem wrHost_byp (s : State) (a v : Nat) : (wrHost s a v).byp = s.byp := rfl
@[simp] theorem wrHost_ports (s : State) (a v : Nat) : (wrHost s a v).ports = s.ports := rfl
@[simp] theorem wrHost_ctx (s : State) (a v : Nat) : (wrHost s a v).ctx = s.ctx := rfl
@[simp] theorem wrHost_core (s : State) (a v : Nat) : (wrHost s a v).core = s.core := rfl
@[simp] theorem wrHost_ecc (s : State) (a v : Nat) : (wrHost s a v).ecc = s.ecc := rfl
@[simp] theorem wrHost_front (s : State) (a v : Nat) : (wrHost s a v).front = s.front := rfl
@[simp] theorem wrHost_hall (s : State) (a v : Nat) : (wrHost s a v).hall = s.hall := rfl
@[simp] theorem wrHost_gal (s : State) (a v : Nat) : (wrHost s a v).gal = s.gal := rfl
@[simp] theorem wrHost_emb (s : State) (a v : Nat) : (wrHost s a v).emb = s.emb := rfl
@[simp] theorem wrHost_flow (s : State) (a v : Nat) : (wrHost s a v).flow = s.flow := rfl
@[simp] theorem wrHost_bld (s : State) (a v : Nat) : (wrHost s a v).bld = s.bld := rfl
@[simp] theorem wrHost_nbr (s : State) (a v : Nat) : (wrHost s a v).nbr = s.nbr := rfl
@[simp] theorem wrHost_grp (s : State) (a v : Nat) : (wrHost s a v).grp = s.grp := rfl
@[simp] theorem wrHost_scrub (s : State) (a v : Nat) : (wrHost s a v).scrub = s.scrub := rfl
@[simp] theorem wrHost_patrol (s : State) (a v : Nat) : (wrHost s a v).patrol = s.patrol := rfl
@[simp] theorem wrHost_mbx (s : State) (a v : Nat) : (wrHost s a v).mbx = s.mbx := rfl

/-! ### setBlock -/

@[simp] theorem setBlock_pending (s : State) (b : Block) (x : BlockState) : (setBlock s b x).pending = s.pending := rfl
@[simp] theorem setBlock_now (s : State) (b : Block) (x : BlockState) : (setBlock s b x).now = s.now := rfl
@[simp] theorem setBlock_free (s : State) (b : Block) (x : BlockState) : (setBlock s b x).free = s.free := rfl
@[simp] theorem setBlock_ans (s : State) (b : Block) (x : BlockState) : (setBlock s b x).ans = s.ans := rfl
@[simp] theorem setBlock_fuse (s : State) (b : Block) (x : BlockState) : (setBlock s b x).fuse = s.fuse := rfl
@[simp] theorem setBlock_reg (s : State) (b : Block) (x : BlockState) : (setBlock s b x).reg = s.reg := rfl
@[simp] theorem setBlock_boot (s : State) (b : Block) (x : BlockState) : (setBlock s b x).boot = s.boot := rfl
@[simp] theorem setBlock_hist (s : State) (b : Block) (x : BlockState) : (setBlock s b x).hist = s.hist := rfl
@[simp] theorem setBlock_err (s : State) (b : Block) (x : BlockState) : (setBlock s b x).err = s.err := rfl
@[simp] theorem setBlock_msix (s : State) (b : Block) (x : BlockState) : (setBlock s b x).msix = s.msix := rfl
@[simp] theorem setBlock_led (s : State) (b : Block) (x : BlockState) : (setBlock s b x).led = s.led := rfl
@[simp] theorem setBlock_sup (s : State) (b : Block) (x : BlockState) : (setBlock s b x).sup = s.sup := rfl
@[simp] theorem setBlock_mon (s : State) (b : Block) (x : BlockState) : (setBlock s b x).mon = s.mon := rfl
@[simp] theorem setBlock_att (s : State) (b : Block) (x : BlockState) : (setBlock s b x).att = s.att := rfl
@[simp] theorem setBlock_jtag (s : State) (b : Block) (x : BlockState) : (setBlock s b x).jtag = s.jtag := rfl
@[simp] theorem setBlock_mem (s : State) (b : Block) (x : BlockState) : (setBlock s b x).mem = s.mem := rfl
@[simp] theorem setBlock_hostMem (s : State) (b : Block) (x : BlockState) : (setBlock s b x).hostMem = s.hostMem := rfl
@[simp] theorem setBlock_tb (s : State) (b : Block) (x : BlockState) : (setBlock s b x).tb = s.tb := rfl
@[simp] theorem setBlock_stair (s : State) (b : Block) (x : BlockState) : (setBlock s b x).stair = s.stair := rfl
@[simp] theorem setBlock_trig (s : State) (b : Block) (x : BlockState) : (setBlock s b x).trig = s.trig := rfl
@[simp] theorem setBlock_cap (s : State) (b : Block) (x : BlockState) : (setBlock s b x).cap = s.cap := rfl
@[simp] theorem setBlock_byp (s : State) (b : Block) (x : BlockState) : (setBlock s b x).byp = s.byp := rfl
@[simp] theorem setBlock_ports (s : State) (b : Block) (x : BlockState) : (setBlock s b x).ports = s.ports := rfl
@[simp] theorem setBlock_ctx (s : State) (b : Block) (x : BlockState) : (setBlock s b x).ctx = s.ctx := rfl
@[simp] theorem setBlock_core (s : State) (b : Block) (x : BlockState) : (setBlock s b x).core = s.core := rfl
@[simp] theorem setBlock_ecc (s : State) (b : Block) (x : BlockState) : (setBlock s b x).ecc = s.ecc := rfl
@[simp] theorem setBlock_front (s : State) (b : Block) (x : BlockState) : (setBlock s b x).front = s.front := rfl
@[simp] theorem setBlock_hall (s : State) (b : Block) (x : BlockState) : (setBlock s b x).hall = s.hall := rfl
@[simp] theorem setBlock_gal (s : State) (b : Block) (x : BlockState) : (setBlock s b x).gal = s.gal := rfl
@[simp] theorem setBlock_emb (s : State) (b : Block) (x : BlockState) : (setBlock s b x).emb = s.emb := rfl
@[simp] theorem setBlock_flow (s : State) (b : Block) (x : BlockState) : (setBlock s b x).flow = s.flow := rfl
@[simp] theorem setBlock_bld (s : State) (b : Block) (x : BlockState) : (setBlock s b x).bld = s.bld := rfl
@[simp] theorem setBlock_nbr (s : State) (b : Block) (x : BlockState) : (setBlock s b x).nbr = s.nbr := rfl
@[simp] theorem setBlock_grp (s : State) (b : Block) (x : BlockState) : (setBlock s b x).grp = s.grp := rfl
@[simp] theorem setBlock_scrub (s : State) (b : Block) (x : BlockState) : (setBlock s b x).scrub = s.scrub := rfl
@[simp] theorem setBlock_patrol (s : State) (b : Block) (x : BlockState) : (setBlock s b x).patrol = s.patrol := rfl
@[simp] theorem setBlock_mbx (s : State) (b : Block) (x : BlockState) : (setBlock s b x).mbx = s.mbx := rfl

/-! ### setFront -/

@[simp] theorem setFront_pending (s : State) (d : Nat) (x : Front) : (setFront s d x).pending = s.pending := rfl
@[simp] theorem setFront_now (s : State) (d : Nat) (x : Front) : (setFront s d x).now = s.now := rfl
@[simp] theorem setFront_free (s : State) (d : Nat) (x : Front) : (setFront s d x).free = s.free := rfl
@[simp] theorem setFront_ans (s : State) (d : Nat) (x : Front) : (setFront s d x).ans = s.ans := rfl
@[simp] theorem setFront_fuse (s : State) (d : Nat) (x : Front) : (setFront s d x).fuse = s.fuse := rfl
@[simp] theorem setFront_reg (s : State) (d : Nat) (x : Front) : (setFront s d x).reg = s.reg := rfl
@[simp] theorem setFront_rst (s : State) (d : Nat) (x : Front) : (setFront s d x).rst = s.rst := rfl
@[simp] theorem setFront_boot (s : State) (d : Nat) (x : Front) : (setFront s d x).boot = s.boot := rfl
@[simp] theorem setFront_hist (s : State) (d : Nat) (x : Front) : (setFront s d x).hist = s.hist := rfl
@[simp] theorem setFront_err (s : State) (d : Nat) (x : Front) : (setFront s d x).err = s.err := rfl
@[simp] theorem setFront_msix (s : State) (d : Nat) (x : Front) : (setFront s d x).msix = s.msix := rfl
@[simp] theorem setFront_led (s : State) (d : Nat) (x : Front) : (setFront s d x).led = s.led := rfl
@[simp] theorem setFront_sup (s : State) (d : Nat) (x : Front) : (setFront s d x).sup = s.sup := rfl
@[simp] theorem setFront_mon (s : State) (d : Nat) (x : Front) : (setFront s d x).mon = s.mon := rfl
@[simp] theorem setFront_att (s : State) (d : Nat) (x : Front) : (setFront s d x).att = s.att := rfl
@[simp] theorem setFront_jtag (s : State) (d : Nat) (x : Front) : (setFront s d x).jtag = s.jtag := rfl
@[simp] theorem setFront_mem (s : State) (d : Nat) (x : Front) : (setFront s d x).mem = s.mem := rfl
@[simp] theorem setFront_hostMem (s : State) (d : Nat) (x : Front) : (setFront s d x).hostMem = s.hostMem := rfl
@[simp] theorem setFront_tb (s : State) (d : Nat) (x : Front) : (setFront s d x).tb = s.tb := rfl
@[simp] theorem setFront_stair (s : State) (d : Nat) (x : Front) : (setFront s d x).stair = s.stair := rfl
@[simp] theorem setFront_trig (s : State) (d : Nat) (x : Front) : (setFront s d x).trig = s.trig := rfl
@[simp] theorem setFront_cap (s : State) (d : Nat) (x : Front) : (setFront s d x).cap = s.cap := rfl
@[simp] theorem setFront_byp (s : State) (d : Nat) (x : Front) : (setFront s d x).byp = s.byp := rfl
@[simp] theorem setFront_ports (s : State) (d : Nat) (x : Front) : (setFront s d x).ports = s.ports := rfl
@[simp] theorem setFront_ctx (s : State) (d : Nat) (x : Front) : (setFront s d x).ctx = s.ctx := rfl
@[simp] theorem setFront_core (s : State) (d : Nat) (x : Front) : (setFront s d x).core = s.core := rfl
@[simp] theorem setFront_ecc (s : State) (d : Nat) (x : Front) : (setFront s d x).ecc = s.ecc := rfl
@[simp] theorem setFront_hall (s : State) (d : Nat) (x : Front) : (setFront s d x).hall = s.hall := rfl
@[simp] theorem setFront_gal (s : State) (d : Nat) (x : Front) : (setFront s d x).gal = s.gal := rfl
@[simp] theorem setFront_emb (s : State) (d : Nat) (x : Front) : (setFront s d x).emb = s.emb := rfl
@[simp] theorem setFront_flow (s : State) (d : Nat) (x : Front) : (setFront s d x).flow = s.flow := rfl
@[simp] theorem setFront_bld (s : State) (d : Nat) (x : Front) : (setFront s d x).bld = s.bld := rfl
@[simp] theorem setFront_nbr (s : State) (d : Nat) (x : Front) : (setFront s d x).nbr = s.nbr := rfl
@[simp] theorem setFront_grp (s : State) (d : Nat) (x : Front) : (setFront s d x).grp = s.grp := rfl
@[simp] theorem setFront_scrub (s : State) (d : Nat) (x : Front) : (setFront s d x).scrub = s.scrub := rfl
@[simp] theorem setFront_patrol (s : State) (d : Nat) (x : Front) : (setFront s d x).patrol = s.patrol := rfl
@[simp] theorem setFront_mbx (s : State) (d : Nat) (x : Front) : (setFront s d x).mbx = s.mbx := rfl

/-! ### setHall -/

@[simp] theorem setHall_pending (s : State) (d : Nat) (x : Hall) : (setHall s d x).pending = s.pending := rfl
@[simp] theorem setHall_now (s : State) (d : Nat) (x : Hall) : (setHall s d x).now = s.now := rfl
@[simp] theorem setHall_free (s : State) (d : Nat) (x : Hall) : (setHall s d x).free = s.free := rfl
@[simp] theorem setHall_ans (s : State) (d : Nat) (x : Hall) : (setHall s d x).ans = s.ans := rfl
@[simp] theorem setHall_fuse (s : State) (d : Nat) (x : Hall) : (setHall s d x).fuse = s.fuse := rfl
@[simp] theorem setHall_reg (s : State) (d : Nat) (x : Hall) : (setHall s d x).reg = s.reg := rfl
@[simp] theorem setHall_rst (s : State) (d : Nat) (x : Hall) : (setHall s d x).rst = s.rst := rfl
@[simp] theorem setHall_boot (s : State) (d : Nat) (x : Hall) : (setHall s d x).boot = s.boot := rfl
@[simp] theorem setHall_hist (s : State) (d : Nat) (x : Hall) : (setHall s d x).hist = s.hist := rfl
@[simp] theorem setHall_err (s : State) (d : Nat) (x : Hall) : (setHall s d x).err = s.err := rfl
@[simp] theorem setHall_msix (s : State) (d : Nat) (x : Hall) : (setHall s d x).msix = s.msix := rfl
@[simp] theorem setHall_led (s : State) (d : Nat) (x : Hall) : (setHall s d x).led = s.led := rfl
@[simp] theorem setHall_sup (s : State) (d : Nat) (x : Hall) : (setHall s d x).sup = s.sup := rfl
@[simp] theorem setHall_mon (s : State) (d : Nat) (x : Hall) : (setHall s d x).mon = s.mon := rfl
@[simp] theorem setHall_att (s : State) (d : Nat) (x : Hall) : (setHall s d x).att = s.att := rfl
@[simp] theorem setHall_jtag (s : State) (d : Nat) (x : Hall) : (setHall s d x).jtag = s.jtag := rfl
@[simp] theorem setHall_mem (s : State) (d : Nat) (x : Hall) : (setHall s d x).mem = s.mem := rfl
@[simp] theorem setHall_hostMem (s : State) (d : Nat) (x : Hall) : (setHall s d x).hostMem = s.hostMem := rfl
@[simp] theorem setHall_tb (s : State) (d : Nat) (x : Hall) : (setHall s d x).tb = s.tb := rfl
@[simp] theorem setHall_stair (s : State) (d : Nat) (x : Hall) : (setHall s d x).stair = s.stair := rfl
@[simp] theorem setHall_trig (s : State) (d : Nat) (x : Hall) : (setHall s d x).trig = s.trig := rfl
@[simp] theorem setHall_cap (s : State) (d : Nat) (x : Hall) : (setHall s d x).cap = s.cap := rfl
@[simp] theorem setHall_byp (s : State) (d : Nat) (x : Hall) : (setHall s d x).byp = s.byp := rfl
@[simp] theorem setHall_ports (s : State) (d : Nat) (x : Hall) : (setHall s d x).ports = s.ports := rfl
@[simp] theorem setHall_ctx (s : State) (d : Nat) (x : Hall) : (setHall s d x).ctx = s.ctx := rfl
@[simp] theorem setHall_core (s : State) (d : Nat) (x : Hall) : (setHall s d x).core = s.core := rfl
@[simp] theorem setHall_ecc (s : State) (d : Nat) (x : Hall) : (setHall s d x).ecc = s.ecc := rfl
@[simp] theorem setHall_front (s : State) (d : Nat) (x : Hall) : (setHall s d x).front = s.front := rfl
@[simp] theorem setHall_gal (s : State) (d : Nat) (x : Hall) : (setHall s d x).gal = s.gal := rfl
@[simp] theorem setHall_emb (s : State) (d : Nat) (x : Hall) : (setHall s d x).emb = s.emb := rfl
@[simp] theorem setHall_flow (s : State) (d : Nat) (x : Hall) : (setHall s d x).flow = s.flow := rfl
@[simp] theorem setHall_bld (s : State) (d : Nat) (x : Hall) : (setHall s d x).bld = s.bld := rfl
@[simp] theorem setHall_nbr (s : State) (d : Nat) (x : Hall) : (setHall s d x).nbr = s.nbr := rfl
@[simp] theorem setHall_grp (s : State) (d : Nat) (x : Hall) : (setHall s d x).grp = s.grp := rfl
@[simp] theorem setHall_scrub (s : State) (d : Nat) (x : Hall) : (setHall s d x).scrub = s.scrub := rfl
@[simp] theorem setHall_patrol (s : State) (d : Nat) (x : Hall) : (setHall s d x).patrol = s.patrol := rfl
@[simp] theorem setHall_mbx (s : State) (d : Nat) (x : Hall) : (setHall s d x).mbx = s.mbx := rfl

/-! ### setEmb -/

@[simp] theorem setEmb_pending (s : State) (c : Nat) (x : EmbUnit) : (setEmb s c x).pending = s.pending := rfl
@[simp] theorem setEmb_now (s : State) (c : Nat) (x : EmbUnit) : (setEmb s c x).now = s.now := rfl
@[simp] theorem setEmb_free (s : State) (c : Nat) (x : EmbUnit) : (setEmb s c x).free = s.free := rfl
@[simp] theorem setEmb_ans (s : State) (c : Nat) (x : EmbUnit) : (setEmb s c x).ans = s.ans := rfl
@[simp] theorem setEmb_fuse (s : State) (c : Nat) (x : EmbUnit) : (setEmb s c x).fuse = s.fuse := rfl
@[simp] theorem setEmb_reg (s : State) (c : Nat) (x : EmbUnit) : (setEmb s c x).reg = s.reg := rfl
@[simp] theorem setEmb_rst (s : State) (c : Nat) (x : EmbUnit) : (setEmb s c x).rst = s.rst := rfl
@[simp] theorem setEmb_boot (s : State) (c : Nat) (x : EmbUnit) : (setEmb s c x).boot = s.boot := rfl
@[simp] theorem setEmb_hist (s : State) (c : Nat) (x : EmbUnit) : (setEmb s c x).hist = s.hist := rfl
@[simp] theorem setEmb_err (s : State) (c : Nat) (x : EmbUnit) : (setEmb s c x).err = s.err := rfl
@[simp] theorem setEmb_msix (s : State) (c : Nat) (x : EmbUnit) : (setEmb s c x).msix = s.msix := rfl
@[simp] theorem setEmb_led (s : State) (c : Nat) (x : EmbUnit) : (setEmb s c x).led = s.led := rfl
@[simp] theorem setEmb_sup (s : State) (c : Nat) (x : EmbUnit) : (setEmb s c x).sup = s.sup := rfl
@[simp] theorem setEmb_mon (s : State) (c : Nat) (x : EmbUnit) : (setEmb s c x).mon = s.mon := rfl
@[simp] theorem setEmb_att (s : State) (c : Nat) (x : EmbUnit) : (setEmb s c x).att = s.att := rfl
@[simp] theorem setEmb_jtag (s : State) (c : Nat) (x : EmbUnit) : (setEmb s c x).jtag = s.jtag := rfl
@[simp] theorem setEmb_mem (s : State) (c : Nat) (x : EmbUnit) : (setEmb s c x).mem = s.mem := rfl
@[simp] theorem setEmb_hostMem (s : State) (c : Nat) (x : EmbUnit) : (setEmb s c x).hostMem = s.hostMem := rfl
@[simp] theorem setEmb_tb (s : State) (c : Nat) (x : EmbUnit) : (setEmb s c x).tb = s.tb := rfl
@[simp] theorem setEmb_stair (s : State) (c : Nat) (x : EmbUnit) : (setEmb s c x).stair = s.stair := rfl
@[simp] theorem setEmb_trig (s : State) (c : Nat) (x : EmbUnit) : (setEmb s c x).trig = s.trig := rfl
@[simp] theorem setEmb_cap (s : State) (c : Nat) (x : EmbUnit) : (setEmb s c x).cap = s.cap := rfl
@[simp] theorem setEmb_byp (s : State) (c : Nat) (x : EmbUnit) : (setEmb s c x).byp = s.byp := rfl
@[simp] theorem setEmb_ports (s : State) (c : Nat) (x : EmbUnit) : (setEmb s c x).ports = s.ports := rfl
@[simp] theorem setEmb_ctx (s : State) (c : Nat) (x : EmbUnit) : (setEmb s c x).ctx = s.ctx := rfl
@[simp] theorem setEmb_core (s : State) (c : Nat) (x : EmbUnit) : (setEmb s c x).core = s.core := rfl
@[simp] theorem setEmb_ecc (s : State) (c : Nat) (x : EmbUnit) : (setEmb s c x).ecc = s.ecc := rfl
@[simp] theorem setEmb_front (s : State) (c : Nat) (x : EmbUnit) : (setEmb s c x).front = s.front := rfl
@[simp] theorem setEmb_hall (s : State) (c : Nat) (x : EmbUnit) : (setEmb s c x).hall = s.hall := rfl
@[simp] theorem setEmb_gal (s : State) (c : Nat) (x : EmbUnit) : (setEmb s c x).gal = s.gal := rfl
@[simp] theorem setEmb_flow (s : State) (c : Nat) (x : EmbUnit) : (setEmb s c x).flow = s.flow := rfl
@[simp] theorem setEmb_bld (s : State) (c : Nat) (x : EmbUnit) : (setEmb s c x).bld = s.bld := rfl
@[simp] theorem setEmb_nbr (s : State) (c : Nat) (x : EmbUnit) : (setEmb s c x).nbr = s.nbr := rfl
@[simp] theorem setEmb_grp (s : State) (c : Nat) (x : EmbUnit) : (setEmb s c x).grp = s.grp := rfl
@[simp] theorem setEmb_scrub (s : State) (c : Nat) (x : EmbUnit) : (setEmb s c x).scrub = s.scrub := rfl
@[simp] theorem setEmb_patrol (s : State) (c : Nat) (x : EmbUnit) : (setEmb s c x).patrol = s.patrol := rfl
@[simp] theorem setEmb_mbx (s : State) (c : Nat) (x : EmbUnit) : (setEmb s c x).mbx = s.mbx := rfl

/-! ### setGport -/

@[simp] theorem setGport_pending (s : State) (p : Nat) (x : GPort) : (setGport s p x).pending = s.pending := rfl
@[simp] theorem setGport_now (s : State) (p : Nat) (x : GPort) : (setGport s p x).now = s.now := rfl
@[simp] theorem setGport_free (s : State) (p : Nat) (x : GPort) : (setGport s p x).free = s.free := rfl
@[simp] theorem setGport_ans (s : State) (p : Nat) (x : GPort) : (setGport s p x).ans = s.ans := rfl
@[simp] theorem setGport_fuse (s : State) (p : Nat) (x : GPort) : (setGport s p x).fuse = s.fuse := rfl
@[simp] theorem setGport_reg (s : State) (p : Nat) (x : GPort) : (setGport s p x).reg = s.reg := rfl
@[simp] theorem setGport_rst (s : State) (p : Nat) (x : GPort) : (setGport s p x).rst = s.rst := rfl
@[simp] theorem setGport_boot (s : State) (p : Nat) (x : GPort) : (setGport s p x).boot = s.boot := rfl
@[simp] theorem setGport_hist (s : State) (p : Nat) (x : GPort) : (setGport s p x).hist = s.hist := rfl
@[simp] theorem setGport_err (s : State) (p : Nat) (x : GPort) : (setGport s p x).err = s.err := rfl
@[simp] theorem setGport_msix (s : State) (p : Nat) (x : GPort) : (setGport s p x).msix = s.msix := rfl
@[simp] theorem setGport_led (s : State) (p : Nat) (x : GPort) : (setGport s p x).led = s.led := rfl
@[simp] theorem setGport_sup (s : State) (p : Nat) (x : GPort) : (setGport s p x).sup = s.sup := rfl
@[simp] theorem setGport_mon (s : State) (p : Nat) (x : GPort) : (setGport s p x).mon = s.mon := rfl
@[simp] theorem setGport_att (s : State) (p : Nat) (x : GPort) : (setGport s p x).att = s.att := rfl
@[simp] theorem setGport_jtag (s : State) (p : Nat) (x : GPort) : (setGport s p x).jtag = s.jtag := rfl
@[simp] theorem setGport_mem (s : State) (p : Nat) (x : GPort) : (setGport s p x).mem = s.mem := rfl
@[simp] theorem setGport_hostMem (s : State) (p : Nat) (x : GPort) : (setGport s p x).hostMem = s.hostMem := rfl
@[simp] theorem setGport_tb (s : State) (p : Nat) (x : GPort) : (setGport s p x).tb = s.tb := rfl
@[simp] theorem setGport_stair (s : State) (p : Nat) (x : GPort) : (setGport s p x).stair = s.stair := rfl
@[simp] theorem setGport_trig (s : State) (p : Nat) (x : GPort) : (setGport s p x).trig = s.trig := rfl
@[simp] theorem setGport_cap (s : State) (p : Nat) (x : GPort) : (setGport s p x).cap = s.cap := rfl
@[simp] theorem setGport_byp (s : State) (p : Nat) (x : GPort) : (setGport s p x).byp = s.byp := rfl
@[simp] theorem setGport_ports (s : State) (p : Nat) (x : GPort) : (setGport s p x).ports = s.ports := rfl
@[simp] theorem setGport_ctx (s : State) (p : Nat) (x : GPort) : (setGport s p x).ctx = s.ctx := rfl
@[simp] theorem setGport_core (s : State) (p : Nat) (x : GPort) : (setGport s p x).core = s.core := rfl
@[simp] theorem setGport_ecc (s : State) (p : Nat) (x : GPort) : (setGport s p x).ecc = s.ecc := rfl
@[simp] theorem setGport_front (s : State) (p : Nat) (x : GPort) : (setGport s p x).front = s.front := rfl
@[simp] theorem setGport_hall (s : State) (p : Nat) (x : GPort) : (setGport s p x).hall = s.hall := rfl
@[simp] theorem setGport_emb (s : State) (p : Nat) (x : GPort) : (setGport s p x).emb = s.emb := rfl
@[simp] theorem setGport_flow (s : State) (p : Nat) (x : GPort) : (setGport s p x).flow = s.flow := rfl
@[simp] theorem setGport_bld (s : State) (p : Nat) (x : GPort) : (setGport s p x).bld = s.bld := rfl
@[simp] theorem setGport_nbr (s : State) (p : Nat) (x : GPort) : (setGport s p x).nbr = s.nbr := rfl
@[simp] theorem setGport_grp (s : State) (p : Nat) (x : GPort) : (setGport s p x).grp = s.grp := rfl
@[simp] theorem setGport_scrub (s : State) (p : Nat) (x : GPort) : (setGport s p x).scrub = s.scrub := rfl
@[simp] theorem setGport_patrol (s : State) (p : Nat) (x : GPort) : (setGport s p x).patrol = s.patrol := rfl
@[simp] theorem setGport_mbx (s : State) (p : Nat) (x : GPort) : (setGport s p x).mbx = s.mbx := rfl

/-! ### setGrp -/

@[simp] theorem setGrp_pending (s : State) (n : Nat) (x : Group) : (setGrp s n x).pending = s.pending := rfl
@[simp] theorem setGrp_now (s : State) (n : Nat) (x : Group) : (setGrp s n x).now = s.now := rfl
@[simp] theorem setGrp_free (s : State) (n : Nat) (x : Group) : (setGrp s n x).free = s.free := rfl
@[simp] theorem setGrp_ans (s : State) (n : Nat) (x : Group) : (setGrp s n x).ans = s.ans := rfl
@[simp] theorem setGrp_fuse (s : State) (n : Nat) (x : Group) : (setGrp s n x).fuse = s.fuse := rfl
@[simp] theorem setGrp_reg (s : State) (n : Nat) (x : Group) : (setGrp s n x).reg = s.reg := rfl
@[simp] theorem setGrp_rst (s : State) (n : Nat) (x : Group) : (setGrp s n x).rst = s.rst := rfl
@[simp] theorem setGrp_boot (s : State) (n : Nat) (x : Group) : (setGrp s n x).boot = s.boot := rfl
@[simp] theorem setGrp_hist (s : State) (n : Nat) (x : Group) : (setGrp s n x).hist = s.hist := rfl
@[simp] theorem setGrp_err (s : State) (n : Nat) (x : Group) : (setGrp s n x).err = s.err := rfl
@[simp] theorem setGrp_msix (s : State) (n : Nat) (x : Group) : (setGrp s n x).msix = s.msix := rfl
@[simp] theorem setGrp_led (s : State) (n : Nat) (x : Group) : (setGrp s n x).led = s.led := rfl
@[simp] theorem setGrp_sup (s : State) (n : Nat) (x : Group) : (setGrp s n x).sup = s.sup := rfl
@[simp] theorem setGrp_mon (s : State) (n : Nat) (x : Group) : (setGrp s n x).mon = s.mon := rfl
@[simp] theorem setGrp_att (s : State) (n : Nat) (x : Group) : (setGrp s n x).att = s.att := rfl
@[simp] theorem setGrp_jtag (s : State) (n : Nat) (x : Group) : (setGrp s n x).jtag = s.jtag := rfl
@[simp] theorem setGrp_mem (s : State) (n : Nat) (x : Group) : (setGrp s n x).mem = s.mem := rfl
@[simp] theorem setGrp_hostMem (s : State) (n : Nat) (x : Group) : (setGrp s n x).hostMem = s.hostMem := rfl
@[simp] theorem setGrp_tb (s : State) (n : Nat) (x : Group) : (setGrp s n x).tb = s.tb := rfl
@[simp] theorem setGrp_stair (s : State) (n : Nat) (x : Group) : (setGrp s n x).stair = s.stair := rfl
@[simp] theorem setGrp_trig (s : State) (n : Nat) (x : Group) : (setGrp s n x).trig = s.trig := rfl
@[simp] theorem setGrp_cap (s : State) (n : Nat) (x : Group) : (setGrp s n x).cap = s.cap := rfl
@[simp] theorem setGrp_byp (s : State) (n : Nat) (x : Group) : (setGrp s n x).byp = s.byp := rfl
@[simp] theorem setGrp_ports (s : State) (n : Nat) (x : Group) : (setGrp s n x).ports = s.ports := rfl
@[simp] theorem setGrp_ctx (s : State) (n : Nat) (x : Group) : (setGrp s n x).ctx = s.ctx := rfl
@[simp] theorem setGrp_core (s : State) (n : Nat) (x : Group) : (setGrp s n x).core = s.core := rfl
@[simp] theorem setGrp_ecc (s : State) (n : Nat) (x : Group) : (setGrp s n x).ecc = s.ecc := rfl
@[simp] theorem setGrp_front (s : State) (n : Nat) (x : Group) : (setGrp s n x).front = s.front := rfl
@[simp] theorem setGrp_hall (s : State) (n : Nat) (x : Group) : (setGrp s n x).hall = s.hall := rfl
@[simp] theorem setGrp_gal (s : State) (n : Nat) (x : Group) : (setGrp s n x).gal = s.gal := rfl
@[simp] theorem setGrp_emb (s : State) (n : Nat) (x : Group) : (setGrp s n x).emb = s.emb := rfl
@[simp] theorem setGrp_flow (s : State) (n : Nat) (x : Group) : (setGrp s n x).flow = s.flow := rfl
@[simp] theorem setGrp_bld (s : State) (n : Nat) (x : Group) : (setGrp s n x).bld = s.bld := rfl
@[simp] theorem setGrp_nbr (s : State) (n : Nat) (x : Group) : (setGrp s n x).nbr = s.nbr := rfl
@[simp] theorem setGrp_scrub (s : State) (n : Nat) (x : Group) : (setGrp s n x).scrub = s.scrub := rfl
@[simp] theorem setGrp_patrol (s : State) (n : Nat) (x : Group) : (setGrp s n x).patrol = s.patrol := rfl
@[simp] theorem setGrp_mbx (s : State) (n : Nat) (x : Group) : (setGrp s n x).mbx = s.mbx := rfl

/-! ### tickFree -/

@[simp] theorem tickFree_pending (s : State) : (tickFree s).pending = s.pending := rfl
@[simp] theorem tickFree_now (s : State) : (tickFree s).now = s.now := rfl
@[simp] theorem tickFree_ans (s : State) : (tickFree s).ans = s.ans := rfl
@[simp] theorem tickFree_fuse (s : State) : (tickFree s).fuse = s.fuse := rfl
@[simp] theorem tickFree_reg (s : State) : (tickFree s).reg = s.reg := rfl
@[simp] theorem tickFree_rst (s : State) : (tickFree s).rst = s.rst := rfl
@[simp] theorem tickFree_boot (s : State) : (tickFree s).boot = s.boot := rfl
@[simp] theorem tickFree_hist (s : State) : (tickFree s).hist = s.hist := rfl
@[simp] theorem tickFree_err (s : State) : (tickFree s).err = s.err := rfl
@[simp] theorem tickFree_msix (s : State) : (tickFree s).msix = s.msix := rfl
@[simp] theorem tickFree_led (s : State) : (tickFree s).led = s.led := rfl
@[simp] theorem tickFree_sup (s : State) : (tickFree s).sup = s.sup := rfl
@[simp] theorem tickFree_mon (s : State) : (tickFree s).mon = s.mon := rfl
@[simp] theorem tickFree_att (s : State) : (tickFree s).att = s.att := rfl
@[simp] theorem tickFree_jtag (s : State) : (tickFree s).jtag = s.jtag := rfl
@[simp] theorem tickFree_mem (s : State) : (tickFree s).mem = s.mem := rfl
@[simp] theorem tickFree_hostMem (s : State) : (tickFree s).hostMem = s.hostMem := rfl
@[simp] theorem tickFree_tb (s : State) : (tickFree s).tb = s.tb := rfl
@[simp] theorem tickFree_stair (s : State) : (tickFree s).stair = s.stair := rfl
@[simp] theorem tickFree_trig (s : State) : (tickFree s).trig = s.trig := rfl
@[simp] theorem tickFree_cap (s : State) : (tickFree s).cap = s.cap := rfl
@[simp] theorem tickFree_byp (s : State) : (tickFree s).byp = s.byp := rfl
@[simp] theorem tickFree_ports (s : State) : (tickFree s).ports = s.ports := rfl
@[simp] theorem tickFree_ctx (s : State) : (tickFree s).ctx = s.ctx := rfl
@[simp] theorem tickFree_core (s : State) : (tickFree s).core = s.core := rfl
@[simp] theorem tickFree_ecc (s : State) : (tickFree s).ecc = s.ecc := rfl
@[simp] theorem tickFree_front (s : State) : (tickFree s).front = s.front := rfl
@[simp] theorem tickFree_hall (s : State) : (tickFree s).hall = s.hall := rfl
@[simp] theorem tickFree_gal (s : State) : (tickFree s).gal = s.gal := rfl
@[simp] theorem tickFree_emb (s : State) : (tickFree s).emb = s.emb := rfl
@[simp] theorem tickFree_flow (s : State) : (tickFree s).flow = s.flow := rfl
@[simp] theorem tickFree_bld (s : State) : (tickFree s).bld = s.bld := rfl
@[simp] theorem tickFree_nbr (s : State) : (tickFree s).nbr = s.nbr := rfl
@[simp] theorem tickFree_grp (s : State) : (tickFree s).grp = s.grp := rfl
@[simp] theorem tickFree_scrub (s : State) : (tickFree s).scrub = s.scrub := rfl
@[simp] theorem tickFree_patrol (s : State) : (tickFree s).patrol = s.patrol := rfl
@[simp] theorem tickFree_mbx (s : State) : (tickFree s).mbx = s.mbx := rfl

end Sys2Proof.Machine
end

