-- ==== Sys2Proof/Laws/Registers.lean ====
section
/-!
SUPPORT. What a read of a register word or field sees after a write of one (R6, R10), and that pages do not overlap (R657).
-/

namespace Sys2Proof.Machine

/-! ### Fields -/

theorem setBits_same (n lo w v : Nat) : bits (setBits n lo w v) lo w = v % 2 ^ w := by
  unfold bits setBits
  have hb : n % 2 ^ lo < 2 ^ lo := Nat.mod_lt _ (Nat.two_pow_pos lo)
  have hv : v % 2 ^ w < 2 ^ w := Nat.mod_lt _ (Nat.two_pow_pos w)
  have e : n / 2 ^ (lo + w) * 2 ^ (lo + w) + v % 2 ^ w * 2 ^ lo + n % 2 ^ lo =
      n % 2 ^ lo + 2 ^ lo * (v % 2 ^ w + 2 ^ w * (n / 2 ^ (lo + w))) := by
    rw [Nat.pow_add, Nat.mul_add]
    generalize n / (2 ^ lo * 2 ^ w) = q
    have : q * (2 ^ lo * 2 ^ w) = 2 ^ lo * (2 ^ w * q) := by
      rw [Nat.mul_comm q, Nat.mul_assoc]
    rw [this, Nat.mul_comm (v % 2 ^ w) (2 ^ lo)]
    omega
  rw [e, Nat.add_mul_div_left _ _ (Nat.two_pow_pos lo), Nat.div_eq_of_lt hb, Nat.zero_add, Nat.add_mul_mod_self_left,
    Nat.mod_eq_of_lt hv]

theorem setBits_lt (n lo w v m : Nat) (h : lo + w ≤ m) (hn : n < 2 ^ m) : setBits n lo w v < 2 ^ m := by
  unfold setBits
  have hv : v % 2 ^ w < 2 ^ w := Nat.mod_lt _ (Nat.two_pow_pos w)
  have hb : n % 2 ^ lo < 2 ^ lo := Nat.mod_lt _ (Nat.two_pow_pos lo)
  have h1 : v % 2 ^ w * 2 ^ lo + n % 2 ^ lo < 2 ^ (lo + w) := by
    have : (v % 2 ^ w + 1) * 2 ^ lo ≤ 2 ^ w * 2 ^ lo := Nat.mul_le_mul_right _ hv
    rw [Nat.pow_add, Nat.mul_comm (2 ^ lo)]
    rw [Nat.add_mul] at this
    omega
  have hd : n / 2 ^ (lo + w) < 2 ^ (m - (lo + w)) := by
    apply Nat.div_lt_of_lt_mul
    rw [← Nat.pow_add]
    have : lo + w + (m - (lo + w)) = m := by omega
    rw [this]; exact hn
  have : (n / 2 ^ (lo + w) + 1) * 2 ^ (lo + w) ≤ 2 ^ (m - (lo + w)) * 2 ^ (lo + w) := Nat.mul_le_mul_right _ hd
  rw [← Nat.pow_add] at this
  have e : m - (lo + w) + (lo + w) = m := by omega
  rw [e, Nat.add_mul] at this
  omega

/-- A field that lies apart from the one written keeps its bits. -/
theorem setBits_other (n lo w v a k : Nat) (h : a + k ≤ lo ∨ lo + w ≤ a) : bits (setBits n lo w v) a k = bits n a k := by
  apply Nat.eq_of_testBit_eq
  intro i
  have key : ∀ j, j < lo ∨ lo + w ≤ j → (setBits n lo w v).testBit j = n.testBit j := by
    intro j hj
    unfold setBits
    have hb : n % 2 ^ lo < 2 ^ lo := Nat.mod_lt _ (Nat.two_pow_pos lo)
    have hv : v % 2 ^ w < 2 ^ w := Nat.mod_lt _ (Nat.two_pow_pos w)
    have h1 : v % 2 ^ w * 2 ^ lo + n % 2 ^ lo < 2 ^ (lo + w) := by
      have : (v % 2 ^ w + 1) * 2 ^ lo ≤ 2 ^ w * 2 ^ lo := Nat.mul_le_mul_right _ hv
      rw [Nat.pow_add, Nat.mul_comm (2 ^ lo)]
      rw [Nat.add_mul] at this
      omega
    rw [Nat.add_assoc, Nat.mul_comm (n / 2 ^ (lo + w))]
    rcases hj with hj | hj
    · rw [Nat.testBit_two_pow_mul_add _ h1, if_pos (by omega), Nat.mul_comm, Nat.testBit_two_pow_mul_add _ hb, if_pos hj]
      simp [Nat.testBit_mod_two_pow, hj]
    · rw [Nat.testBit_two_pow_mul_add _ h1, if_neg (by omega)]
      rw [Nat.testBit_div_two_pow]
      congr 1
      omega
  unfold bits
  simp only [Nat.testBit_mod_two_pow, Nat.testBit_div_two_pow]
  by_cases hi : i < k
  · simp only [hi, decide_true, Bool.true_and]
    exact key _ (by omega)
  · simp [hi]

/-! ### Pages -/

theorem pageBase_mod (p : Page) : pageBase p % 0x1000 = 0 := by
  cases p <;> simp only [pageBase] <;> omega

/-- Words of different pages, or at different offsets, have different addresses. -/
theorem wordKey_ne (p q : Page) (o r : Nat) (ho : o < 0x1000) (hr : r < 0x1000) (h : pageBase q ≠ pageBase p ∨ r ≠ o) :
    pageBase q + r ≠ pageBase p + o := by
  have := pageBase_mod p
  have := pageBase_mod q
  omega

/-! ### Words -/

theorem rawWord_putWord_self (s : State) (p : Page) (o v : Nat) : rawWord (putWord s p o v) p o = v % 2 ^ 32 := by
  simp [rawWord, putWord, BitVec.toNat_ofNat]

theorem rawWord_putWord_ne (s : State) (p q : Page) (o r v : Nat) (h : pageBase q + r ≠ pageBase p + o) :
    rawWord (putWord s p o v) q r = rawWord s q r := by
  simp only [rawWord, putWord, SMap.find_put_ne _ _ h]

@[simp] theorem effWord_putWord (s : State) (p q : Page) (o r v : Nat) : effWord (putWord s p o v) q r = effWord s q r := rfl

@[simp] theorem effWord_fset (s : State) (p q : Page) (f : Fld) (r v : Nat) : effWord (fset s p f v) q r = effWord s q r := rfl

@[simp] theorem effWord_raiseInt (s : State) (p q : Page) (b r : Nat) : effWord (raiseInt s p b) q r = effWord s q r := rfl

/-- A word depends on the registers and the fuses alone. -/
theorem rawWord_congr {s t : State} (h : t.reg = s.reg) (hf : t.fuse = s.fuse) : rawWord t = rawWord s := by
  funext p o
  simp only [rawWord, h, hf]

theorem fget_congr {s t : State} (h : t.reg = s.reg) (hf : t.fuse = s.fuse) : fget t = fget s := by
  funext p f
  simp only [fget, rawWord_congr h hf]

theorem effWord_congr {s t : State} (h : t.reg = s.reg) (hf : t.fuse = s.fuse) : effWord t = effWord s := by
  funext p o
  simp only [effWord, h, hf]

theorem rawWord_fset_ne (s : State) (p q : Page) (f : Fld) (r v : Nat) (h : pageBase q + r ≠ pageBase p + f.off) :
    rawWord (fset s p f v) q r = rawWord s q r := rawWord_putWord_ne _ _ _ _ _ _ h

theorem rawWord_raiseInt_ne (s : State) (p q : Page) (b r : Nat) (h : pageBase q + r ≠ pageBase p + 0x14) :
    rawWord (raiseInt s p b) q r = rawWord s q r := rawWord_putWord_ne _ _ _ _ _ _ h

theorem bits_mod (n lo w m : Nat) (h : lo + w ≤ m) : bits (n % 2 ^ m) lo w = bits n lo w := by
  apply Nat.eq_of_testBit_eq
  intro i
  unfold bits
  simp only [Nat.testBit_mod_two_pow, Nat.testBit_div_two_pow]
  by_cases hi : i < w
  · have : i + lo < m := by omega
    have : lo + i < m := by omega
    simp_all [Nat.add_comm]
  · simp [hi]

/-- A field reads what was last put in it. -/
theorem fget_fset_self (s : State) (p : Page) (f : Fld) (v : Nat) (h : f.lo + f.w ≤ 32) :
    fget (fset s p f v) p f = v % 2 ^ f.w := by
  unfold fget fset
  rw [rawWord_putWord_self, bits_mod _ _ _ _ h, setBits_same]

/-- A field of another register keeps its value. -/
theorem fget_fset_ne (s : State) (p q : Page) (f g : Fld) (v : Nat) (h : pageBase q + g.off ≠ pageBase p + f.off) :
    fget (fset s p f v) q g = fget s q g := by
  unfold fget
  rw [rawWord_fset_ne _ _ _ _ _ _ h]

/-- Another field of the same register keeps its value. -/
theorem fget_fset_field (s : State) (p : Page) (f g : Fld) (v : Nat) (ho : g.off = f.off) (hg : g.lo + g.w ≤ 32)
    (h : g.lo + g.w ≤ f.lo ∨ f.lo + f.w ≤ g.lo) : fget (fset s p f v) p g = fget s p g := by
  unfold fget fset
  rw [ho, rawWord_putWord_self, bits_mod _ _ _ _ hg, setBits_other _ _ _ _ _ _ h]

theorem fget_putWord_ne (s : State) (p q : Page) (o v : Nat) (g : Fld) (h : pageBase q + g.off ≠ pageBase p + o) :
    fget (putWord s p o v) q g = fget s q g := by
  unfold fget
  rw [rawWord_putWord_ne _ _ _ _ _ _ h]

/-- A latched event bit of INT_RAW is set. -/
theorem raiseInt_bit (s : State) (p : Page) (b : Nat) (h : b < 32) : bit (rawWord (raiseInt s p b) p 0x14) b = true := by
  unfold raiseInt
  rw [rawWord_putWord_self]
  have e : ∀ n, bit n b = decide (bits n b 1 = 1) := by intro n; simp [bit, bits]
  rw [e, bits_mod _ _ _ _ (by omega), setBits_same]
  rfl

end Sys2Proof.Machine
end

