-- ==== Sys2Proof/Laws/Units.lean ====
section
/-!
SUPPORT. What a read of a context, a core's queues, a Hall, a link or a block's reset state sees after one of them is held.
-/

namespace Sys2Proof.Machine

@[simp] theorem ctxAt_setCtx_self (s : State) (n c : Nat) (x : Ctx) : ctxAt (setCtx s n c x) n c = x := by
  simp [ctxAt, setCtx]

/-- Contexts 0 to 2,047 of slots have keys of their own. -/
theorem ctxKey_ne {n c m k : Nat} (hc : c < 2048) (hk : k < 2048) (h : (m, k) ≠ (n, c)) : ctxKey m k ≠ ctxKey n c := by
  intro e
  apply h
  simp only [ctxKey] at e
  simp only [Prod.mk.injEq]
  omega

theorem ctxAt_setCtx_ne (s : State) {n c m k : Nat} (x : Ctx) (hc : c < 2048) (hk : k < 2048) (h : (m, k) ≠ (n, c)) :
    ctxAt (setCtx s n c x) m k = ctxAt s m k := by
  unfold ctxAt setCtx
  exact SMap.getD_setD_ne _ _ _ _ (ctxKey_ne hc hk h)

@[simp] theorem cref_setRef_self (s : State) (t : ThreadRef) (x : Ctx) : cref (setRef s t x) t = x := by
  simp [cref, setRef]

theorem cref_setRef_ne (s : State) {t u : ThreadRef} (x : Ctx) (h : u ≠ t) : cref (setRef s t x) u = cref s u := by
  unfold cref setRef
  apply ctxAt_setCtx_ne _ _ t.ctx.isLt u.ctx.isLt
  intro e
  simp only [Prod.mk.injEq] at e
  apply h
  cases t
  cases u
  simp only [ThreadRef.mk.injEq]
  exact ⟨Fin.ext e.1, Fin.ext e.2⟩

@[simp] theorem cref_setCore (s : State) (n : Nat) (k : CoreState) (t : ThreadRef) : cref (setCore s n k) t = cref s t := rfl

@[simp] theorem cref_putWord (s : State) (p : Page) (o v : Nat) (t : ThreadRef) : cref (putWord s p o v) t = cref s t := rfl

@[simp] theorem coreAt_setCore_self (s : State) (n : Nat) (k : CoreState) : coreAt (setCore s n k) n = k := by
  simp [coreAt, setCore]

theorem coreAt_setCore_ne (s : State) {n m : Nat} (k : CoreState) (h : m ≠ n) : coreAt (setCore s n k) m = coreAt s m := by
  unfold coreAt setCore
  exact SMap.getD_setD_ne _ _ _ _ h

@[simp] theorem hallAt_setHall_self (s : State) (d : Nat) (x : Hall) : hallAt (setHall s d x) d = x := by
  simp [hallAt, setHall]

@[simp] theorem frontAt_setFront_self (s : State) (d : Nat) (x : Front) : frontAt (setFront s d x) d = x := by
  simp [frontAt, setFront]

@[simp] theorem gportAt_setGport_self (s : State) (p : Nat) (x : GPort) : gportAt (setGport s p x) p = x := by
  simp [gportAt, setGport]

@[simp] theorem grpAt_setGrp_self (s : State) (n : Nat) (g : Group) : grpAt (setGrp s n g) n = g := by
  simp [grpAt, setGrp]

@[simp] theorem blockState_setBlock_self (s : State) (b : Block) (x : BlockState) : blockState (setBlock s b x) b = x := by
  simp [blockState, setBlock, SMap.getD]

/-! ### Scalar registers (R368) -/

@[simp] theorem rget_zero (x : Ctx) : x.rget 0 = 0 := rfl

@[simp] theorem rget_rset_self (x : Ctx) (r : Nat) (v : Reg64) (h : r ≠ 0) : (x.rset r v).rget r = v := by
  simp [Ctx.rset, Ctx.rget, h]

theorem rget_rset_ne (x : Ctx) {r q : Nat} (v : Reg64) (h : q ≠ r) : (x.rset r v).rget q = x.rget q := by
  by_cases hr : r = 0
  · simp [Ctx.rset, hr]
  · simp only [Ctx.rset, hr, if_false, Ctx.rget, SMap.getD_setD_ne _ _ _ _ h]

end Sys2Proof.Machine
end

