-- ==== Sys2Proof/Laws/Vectors.lean ====
section
/-!
SUPPORT. The outcome `done`: it settles the interrupt vectors (R665, R666) and changes nothing but the vectors and the mark of
an injected error. Words that no vector looks at may change and leave the vectors settled.
-/

namespace Sys2Proof.Machine

/-! ### Sending -/

/-- Sending a vector changes the table of vectors alone. -/
theorem sendVector_eq (s : State) (v : Nat) : ∃ m, sendVector s v = { s with msix := m } := by
  unfold sendVector
  split <;> exact ⟨_, rfl⟩

theorem sendVectors_eq (l : List Nat) (s : State) : ∃ m, l.foldl sendVector s = { s with msix := m } := by
  induction l generalizing s with
  | nil => exact ⟨s.msix, rfl⟩
  | cons v l ih =>
    obtain ⟨m, e⟩ := sendVector_eq s v
    obtain ⟨k, f⟩ := ih { s with msix := m }
    exact ⟨k, by rw [List.foldl_cons, e, f]⟩

/-- Settling changes the table of vectors alone. -/
theorem settle_eq (a : BitVec 64) (s : State) : ∃ m, settle a s = { s with msix := m } := by
  unfold settle
  extract_lets c send m t
  split
  · exact ⟨_, rfl⟩
  · obtain ⟨k, f⟩ := sendVectors_eq ((List.range 64).filter (fun v => send.getLsbD v)) t
    exact ⟨k, by rw [f]⟩

/-- A command's outcome: the state with its vectors settled; nothing else of it is changed but the mark of injection. -/
theorem done_eq (s : State) : ∃ m, done s = .next { s with msix := m, err.inj := false } := by
  obtain ⟨m, e⟩ := settle_eq 0#64 { s with err.inj := false }
  exact ⟨m, by rw [done, e]⟩

/-! ### Conditions -/

theorem vectorConditions_congr {s t : State} (h : t.reg = s.reg) (hf : t.fuse = s.fuse) :
    vectorConditions t = vectorConditions s := by
  have e : regCondition t = regCondition s := by
    funext a w
    unfold regCondition intStat fbit fget
    rw [rawWord_congr h hf]
  unfold vectorConditions
  rw [h, e]

theorem foldl_or_acc {α : Type} (f : α → BitVec 64) (l : List α) (a : BitVec 64) :
    l.foldl (fun acc c => acc ||| f c) a = a ||| l.foldl (fun acc c => acc ||| f c) 0#64 := by
  induction l generalizing a with
  | nil => simp
  | cons x l ih =>
    simp only [List.foldl_cons]
    rw [ih, ih (0#64 ||| f x)]
    simp [BitVec.or_assoc]

theorem fold_put_zero (f : Nat → Word → BitVec 64) (m : List (Nat × Word)) (k : Nat) (v : Word) (h : ∀ w, f k w = 0#64) :
    (SMap.put m k v).foldl (fun acc c => acc ||| f c.1 c.2) 0#64 = m.foldl (fun acc c => acc ||| f c.1 c.2) 0#64 := by
  induction m with
  | nil => simp [SMap.put, h]
  | cons e m ih =>
    obtain ⟨a, u⟩ := e
    simp only [SMap.put]
    split
    · simp [h]
    · split
      · rename_i _ h2
        subst h2
        simp [h]
      · simp only [List.foldl_cons]
        rw [foldl_or_acc, ih, ← foldl_or_acc]

/-- The offsets of words that no vector looks at. -/
def quietOff (off : Nat) : Bool :=
  decide (off < 0x1000) && !([0x08, 0x14, 0x18, 0x28, 0x50, 0x54].contains off)

theorem vectorConditions_putWord (s : State) (p : Page) (off v : Nat) (h : quietOff off = true) :
    vectorConditions (putWord s p off v) = vectorConditions s := by
  simp [quietOff] at h
  obtain ⟨hlt, h8, h14, h18, h28, h50, h54⟩ := h
  have hm := pageBase_mod p
  have key : ∀ (q : Page) (o : Nat), o < 0x1000 → o ≠ off → pageBase q + o ≠ pageBase p + off := by
    intro q o ho hne
    exact wordKey_ne p q off o hlt ho (.inr hne)
  have hreg : regCondition (putWord s p off v) = regCondition s := by
    funext a w
    have e14 : ∀ q, rawWord (putWord s p off v) q 0x14 = rawWord s q 0x14 :=
      fun q => rawWord_putWord_ne _ _ _ _ _ _ (key q _ (by omega) (by omega))
    have e18 : ∀ q, rawWord (putWord s p off v) q 0x18 = rawWord s q 0x18 :=
      fun q => rawWord_putWord_ne _ _ _ _ _ _ (key q _ (by omega) (by omega))
    have e8 : ∀ q, fbit (putWord s p off v) q HDR.PAGE_CTRL_EN = fbit s q HDR.PAGE_CTRL_EN := fun q => by
      unfold fbit fget
      rw [show HDR.PAGE_CTRL_EN.off = 8 from rfl, rawWord_putWord_ne _ _ _ _ _ _ (key q 8 (by omega) (by omega))]
    unfold regCondition intStat
    cases pageAt a with
    | none => rfl
    | some q =>
      dsimp only
      rw [e14, e18, e8]
  have hk : ∀ w, regCondition s (pageBase p + off) w = 0#64 := by
    intro w
    unfold regCondition
    have : (pageBase p + off) % 0x1000 = off := by omega
    rw [this]
    cases pageAt (pageBase p + off) with
    | none => rfl
    | some q => simp [h18, h28, h50, h54]
  unfold vectorConditions
  rw [hreg]
  exact fold_put_zero (regCondition s) _ _ _ hk

/-! ### Settled vectors -/

theorem settled_of_same {s t : State} (h1 : t.reg = s.reg) (h2 : t.fuse = s.fuse) (h3 : t.msix.cond = s.msix.cond)
    (h4 : t.msix.pend = s.msix.pend) (h : Settled s) : Settled t :=
  ⟨by rw [h3, h.1, vectorConditions_congr h1 h2], by rw [h3, h4]; exact h.2⟩

theorem settled_putWord (s : State) (p : Page) (off v : Nat) (h : quietOff off = true) (hs : Settled s) :
    Settled (putWord s p off v) :=
  ⟨by rw [vectorConditions_putWord _ _ _ _ h]; exact hs.1, hs.2⟩

theorem sendVectors_pend (l : List Nat) (c : BitVec 64) (s : State) (hl : ∀ v ∈ l, c.getLsbD v = true)
    (hp : s.msix.pend &&& ~~~ c = 0#64) :
    (l.foldl sendVector s).msix.cond = s.msix.cond ∧ (l.foldl sendVector s).msix.pend &&& ~~~ c = 0#64 := by
  induction l generalizing s with
  | nil => exact ⟨rfl, hp⟩
  | cons v l ih =>
    have hv := hl v (by simp)
    have h1 : (sendVector s v).msix.cond = s.msix.cond := by
      unfold sendVector
      split <;> rfl
    have h2 : (sendVector s v).msix.pend &&& ~~~ c = 0#64 := by
      unfold sendVector
      split
      · show (s.msix.pend ||| vecBit v) &&& ~~~ c = 0#64
        apply BitVec.eq_of_getLsbD_eq
        intro i hi
        have h := congrArg (fun b => b.getLsbD i) hp
        simp only [vecBit, BitVec.getLsbD_and, BitVec.getLsbD_or, BitVec.getLsbD_not, BitVec.getLsbD_ofNat, hi,
          Nat.testBit_two_pow] at h ⊢
        by_cases e : v = i
        · subst e
          simp [hv]
        · simpa [e] using h
      · exact hp
    have := ih (sendVector s v) (fun w hw => hl w (by simp [hw])) h2
    simp only [List.foldl_cons]
    exact ⟨this.1.trans h1, this.2⟩

theorem settle_settled (a : BitVec 64) (s : State) : Settled (settle a s) := by
  obtain ⟨k, hk⟩ := settle_eq a s
  have hreg : (settle a s).reg = s.reg := by rw [hk]
  have hfuse : (settle a s).fuse = s.fuse := by rw [hk]
  refine ⟨?_, ?_⟩
  · rw [vectorConditions_congr hreg hfuse]
    unfold settle
    extract_lets c send m t
    split
    · rfl
    · exact (sendVectors_pend _ c t (by
        intro v hv
        have := (List.mem_filter.mp hv).2
        simp only [send, BitVec.getLsbD_and] at this
        simp at this
        exact this.1) (by
        show (s.msix.pend &&& c) &&& ~~~ c = 0#64
        rw [BitVec.and_assoc]
        simp)).1
  · unfold settle
    extract_lets c send m t
    have hc : t.msix.cond = c := rfl
    have hp : t.msix.pend &&& ~~~ c = 0#64 := by
      show (s.msix.pend &&& c) &&& ~~~ c = 0#64
      rw [BitVec.and_assoc]
      simp
    split
    · exact hp
    · have h := sendVectors_pend ((List.range 64).filter (fun v => send.getLsbD v)) c t (by
        intro v hv
        have := (List.mem_filter.mp hv).2
        simp only [send, BitVec.getLsbD_and] at this
        simp at this
        exact this.1) hp
      rw [h.1, hc]
      exact h.2

end Sys2Proof.Machine
end

