-- ==== Sys2Proof/Tests/Slice0.lean ====
section
/-!
SUPPORT. Tests: ill-formed commands are refused, words written out from their formats, a few steps with values taken from the
spec's own rules, and for every statement with hypotheses a state and operands that meet them.
-/

namespace Sys2Proof.Tests

open Sys2Proof Sys2Proof.Machine

set_option Elab.async false

/-! ### Ill-formed commands are refused -/

theorem test_wellformed_master : WellFormed (.set ⟨20, false, none⟩) = false ∧ WellFormed (.set ⟨16, true, none⟩) = false ∧
    WellFormed (.set ⟨3, false, some 1024⟩) = false ∧ WellFormed (.set ⟨18, false, some 5⟩) = false ∧
    WellFormed (.set rqHost) = true := by decide

theorem test_wellformed_width : WellFormed (.registerWrite rqHost 0 0 0) = false ∧ WellFormed (.rcRegisterRead rqHost 0 0) = false ∧
    WellFormed (.loRegisterRead rqHost 0 0) = false := by decide

theorem test_wellformed_page : WellFormed (.commitTakeEffect (.pkg 14)) = false ∧
    WellFormed (.commitTakeEffect (.die 2 0)) = false ∧ WellFormed (.commitTakeEffect (.die 0 11)) = false ∧
    WellFormed (.commitTakeEffect (.cl 0 4 0)) = false ∧ WellFormed (.pageCommit rqHost (.cl 0 0 4) 0) = false ∧
    WellFormed (.injectWrite rqHost (.core 40 0) 0) = false ∧ WellFormed (.quiesceReqWrite rqHost (.core 0 13) true) = false ∧
    WellFormed (.commitTakeEffect (.cl 2 0 0)) = false := by decide

theorem test_wellformed_block : WellFormed (.blockRelease (.die 2)) = false ∧ WellFormed (.blockRelease (.point 2)) = false ∧
    WellFormed (.blockRelease (.cc 2)) = false ∧ WellFormed (.blockRelease (.cluster 0 4)) = false ∧
    WellFormed (.releaseDone (.core 40)) = false ∧ WellFormed (.releaseDone (.eng 40)) = false := by decide

theorem test_wellformed_forms : WellFormed (.pass (.run 0 1)) = false ∧
    WellFormed (.amoFadd ⟨0, 0⟩ 1 2 3 ⟨true, false, false⟩) = false ∧
    WellFormed (.bootDoneSet [(.pkg 0, 0x1000, 0)]) = false ∧ WellFormed (.bootDoneSet [(.pkg 14, 0, 0)]) = false ∧
    WellFormed (.detectorEvent (.report (.pkg 0) 64 0 0)) = false ∧
    WellFormed (.detectorEvent (.report (.pkg 14) 1 0 0)) = false := by decide

theorem test_wellformed_lengths : WellFormed (.slidingWindowAccess true 0 4 [0]) = false ∧
    WellFormed (.slidingWindowAccess false 0 0 []) = false ∧ WellFormed (.ethernetFrameReceive 0 ⟨[], true, false, false, 0, 0⟩) = false ∧
    WellFormed (.flitReceive 0 [0]) = false ∧ WellFormed (.marginSample 0 [] [0]) = false ∧
    WellFormed (.marginSample 0 [0] []) = false := by decide

/-! ### Words written out from their formats (R414 to R429) -/

theorem test_words_of_formats :
    -- ADD s3, s1, s2: SRC2 00010, SRC1 00001, DST 00011, FN 0 0000 0000, OP 0x01
    wordsOf (.add ⟨0, 0⟩ 3 1 2) = some [0b00010_00001_00011_000000000_00000001] ∧
    -- FLT s4, s5, s6: FN 0x06, OP 0x02
    wordsOf (.flt ⟨0, 0⟩ 4 5 6) = some [0b00110_00101_00100_000000110_00000010] ∧
    -- ADDI s5, s6, -1: IMM all ones, SRC1 00110, DST 00101, OP 0x10
    wordsOf (.addi ⟨0, 0⟩ 5 6 0x3FFF#14) = some [0b11111111111111_00110_00101_00010000] ∧
    -- ST32 at s7 + 4 of s8: IMM 4, SRC1 00111, SRC2 01000, OP 0x2A
    wordsOf (.st32 ⟨0, 0⟩ 7 8 4#14) = some [0b00000000000100_00111_01000_00101010] ∧
    -- LUI s9, 1: IMM 1, DST 01001, OP 0x1C
    wordsOf (.lui ⟨0, 0⟩ 9 1#19) = some [0b0000000000000000001_01001_00011100] ∧
    -- EXIT: FN 4, OP 0x40
    wordsOf (.exit ⟨0, 0⟩) = some [0b00000_00000_00000_000000100_01000000] ∧
    -- PASS with BASE s10 and offset 0x100
    wordsOf (.pass (.issue ⟨0, 0⟩ 10 0x100#32 0#8 0#32)) = some [0b01010_11000000, 0x100, 0, 0] := by decide +kernel

/-! ### Small states -/

/-- The part with no block in reset, its DRAM sized and its control cores running. -/
def up : State :=
  let s := { State.reset with rst := { State.reset.rst with blocks := [], sources := [] } }
  let s := [0, 1].foldl (fun s d => fset (fset s (.die d 5) DB5.CARVE_BASE 0x20000) (.die d 9) DB9.CC_STATUS_RUNNING 15) s
  setPhase (fsetb s bootPage PB13.BOOT_STATUS_BOOT_DONE true) 7

/-- The first context of the first slot. -/
def t0 : ThreadRef := ⟨0, 0⟩

/-- The part with a context in that place. -/
def holds (x : Ctx) : State := setCtx up 0 0 x

/-- A READY context with an instruction fetched and these registers. -/
def ctxOf (i : Instr) (rs : List (Nat × Nat)) : Ctx :=
  rs.foldl (fun x r => x.rset r.1 (BitVec.ofNat 64 r.2))
    { Ctx.idle with st := .ready, pc := 0x1000, ir := (wordsOf i).getD [] }

/-- The part with that context. -/
def runs (i : Instr) (rs : List (Nat × Nat)) : State := holds (ctxOf i rs)

/-- The part with a field of a captured set in effect. -/
def seteff (s : State) (p : Page) (f : Fld) (v : Nat) : State :=
  { s with reg.eff := SMap.put s.reg.eff (pageBase p + f.off) (BitVec.ofNat 32 (setBits (effWord s p f.off) f.lo f.w v)) }

/-- `Issues`, computed. -/
def issuesB (s : State) (i : Instr) : Bool :=
  match threadOf i, wordsOf i with
  | some t, some ws => mayIssue s t ws && decide ((cref s t).st = .ready)
  | _, _ => false

theorem issues_of {s : State} {i : Instr} (h : issuesB s i = true) : Issues s i := by
  unfold issuesB at h
  split at h
  · next t ws ht hw =>
    simp only [Bool.and_eq_true, decide_eq_true_eq] at h
    exact ⟨t, ws, ht, hw, h.1, h.2⟩
  · cases h

/-- `Reaches`, computed. -/
def reachesB (s : State) (rq : Requester) (own g n : Nat) (rd wr : Bool) : Bool :=
  inboundOk s rq &&
    match locate s g n with
    | .dram d off => dramAllows s d off n rq rd wr && !outOfService s (.die d) && !dramTouchesFailed s d off n
    | .spm k off => spmAllows s k off n rq rd wr && (decide (own = k) || !wr || !mustWait s k off n)
    | _ => false

theorem reaches_of {s : State} {rq : Requester} {own g n : Nat} {rd wr : Bool} (h : reachesB s rq own g n rd wr = true) :
    Reaches s rq own g n rd wr := by
  unfold reachesB at h
  unfold Reaches
  simp only [Bool.and_eq_true] at h
  refine ⟨h.1, ?_⟩
  have h2 := h.2
  split
  · next e => rw [e] at h2; simp at h2; exact ⟨h2.1.1, h2.1.2, h2.2⟩
  · next e =>
    rw [e] at h2
    simp at h2
    exact ⟨h2.1, by rcases h2.2 with (h3 | h3) | h3 <;> simp [h3]⟩
  · next a b => split at h2 <;> simp_all

/-- `Clean`, computed. -/
def cleanB (s : State) (n : Nat) : Place → Bool
  | .dram d off =>
    decide (eccIn s ((dramBase d + off) / 32 * 32) (dramBase d + off + n) = [] ∧ fget s (.die d 5) HDR.INJECT_COUNT = 0)
  | .spm k off =>
    decide (eccIn s ((spmBase k + off) / 128 * 128) ((spmBase k + off + n + 127) / 128 * 128) = [] ∧
      fget s (.core k 8) HDR.INJECT_COUNT = 0)
  | _ => false

theorem clean_of {s : State} {n : Nat} {p : Place} (h : cleanB s n p = true) : Clean s n p := by
  cases p <;> simp [cleanB, Clean] at h ⊢ <;> exact h

/-- `Unheld`, computed. -/
def unheldB (s : State) (t : ThreadRef) (a : Access) : Bool :=
  !accessHeld s t.slot.val a && !farOverlap s t.slot.val t.ctx.val a.at_ a.len &&
    (cref s t).loads.all (fun l => !overlaps l.addr l.size a.at_ a.len)

theorem unheld_of {s : State} {t : ThreadRef} {a : Access} (h : unheldB s t a = true) : Unheld s t a := by
  simp [unheldB] at h
  exact ⟨h.1.1, h.1.2, h.2⟩

/-- An address in a scratchpad: byte 0x2000 of logical core 0's. -/
def spmAt : Nat := 2 ^ 44 + 0x2000

/-! ### Scalar instructions: each issues from some state -/

/-- The instructions that compute a register. -/
def computing : List Instr :=
  [.add t0 1 2 3, .sub t0 1 2 3, .and t0 1 2 3, .or t0 1 2 3, .xor t0 1 2 3, .sll t0 1 2 3, .srl t0 1 2 3, .sra t0 1 2 3,
   .slt t0 1 2 3, .sltu t0 1 2 3, .min t0 1 2 3, .max t0 1 2 3, .minu t0 1 2 3, .maxu t0 1 2 3, .mul t0 1 2 3,
   .mulh t0 1 2 3, .mulhu t0 1 2 3, .div t0 1 2 3, .divu t0 1 2 3, .rem t0 1 2 3, .remu t0 1 2 3, .fadd t0 1 2 3,
   .fsub t0 1 2 3, .fmul t0 1 2 3, .fmin t0 1 2 3, .fmax t0 1 2 3, .feq t0 1 2 3, .flt t0 1 2 3, .fle t0 1 2 3] ++
  [.fcvtFi t0 1 2, .fcvtIf t0 1 2, .addi t0 1 2 5, .andi t0 1 2 5, .ori t0 1 2 5, .xori t0 1 2 5, .slti t0 1 2 5,
   .sltiu t0 1 2 5, .slli t0 1 2 63, .srli t0 1 2 63, .srai t0 1 2 63, .lui t0 1 5, .pcadd t0 1 5, .selfThreadId t0 1,
   .selfNodeId t0 1, .selfLogicalCore t0 1, .selfContext t0 1, .selfDomain t0 1, .selfClass t0 1, .selfDeviceTime t0 1,
   .selfFrameNo t0 1] ++
  [.beq t0 1 2 3, .bne t0 1 2 3, .blt t0 1 2 3, .bge t0 1 2 3, .bltu t0 1 2 3, .bgeu t0 1 2 3, .jal t0 1 5]

/-- IntegersAndImmediates, Fp32AndSelf, Branches: each of their instructions issues, with a destination or with s0. -/
theorem test_witness_computing : ∀ i ∈ computing, issuesB (runs i []) i = true := by decide +kernel

theorem test_witness_computing_s0 : issuesB (runs (.add t0 0 2 3) []) (.add t0 0 2 3) = true := by decide +kernel

/-- The division corner of R416. -/
theorem test_witness_division :
    let s := runs (.div t0 1 2 3) [(2, 2 ^ 63), (3, 2 ^ 64 - 1)]
    issuesB s (.div t0 1 2 3) = true ∧ (cref s t0).rget 2 = BitVec.intMin 64 ∧ (cref s t0).rget 3 = -1 := by decide +kernel

/-- Both ways of a branch, and both of JALR. -/
theorem test_witness_branches :
    issuesB (runs (.beq t0 1 2 3) [(1, 7), (2, 7)]) (.beq t0 1 2 3) = true ∧
    issuesB (runs (.beq t0 1 2 3) [(1, 7), (2, 8)]) (.beq t0 1 2 3) = true ∧
    (issuesB (runs (.jalr t0 1 2 4) [(2, 0x2000)]) (.jalr t0 1 2 4) = true ∧ 0x2004 % 4 = 0) ∧
    (issuesB (runs (.jalr t0 1 2 4) [(2, 0x2001)]) (.jalr t0 1 2 4) = true ∧ 0x2005 % 4 ≠ 0) := by decide +kernel

/-- SLT on a sign change, and SRA of a negative number, as R415 gives them. -/
theorem test_add_wraps :
    (match exec (.add t0 1 2 3) (runs (.add t0 1 2 3) [(2, 2 ^ 64 - 1), (3, 2)]) with
     | .next u => decide ((cref u t0).rget 1 = 1 ∧ (cref u t0).pc = 0x1004) | _ => false) = true := by decide +kernel

theorem test_s0_stays_zero :
    (match exec (.add t0 0 2 3) (runs (.add t0 0 2 3) [(2, 5), (3, 2)]) with
     | .next u => decide ((cref u t0).rget 0 = 0) | _ => false) = true := by decide +kernel

/-! ### Memory -/

/-- LoadsBecomeOutstanding: a load in DRAM and one in the scratchpad. -/
def loadIssuesB (s : State) (n : Nat) (signed : Bool) (g : Nat) (i : Instr) : Bool :=
  let r := issued s t0
  issuesB s i && decide (loadsOut (cref s t0) < 8) && decide (g % n = 0) && reachesB r (cref s t0).rq 0 g n true false &&
    !accessHeld r 0 (.load 1 n signed g) && !farOverlap r 0 0 g n

theorem test_witness_loads : ∀ g ∈ [0x3000, spmAt],
    loadIssuesB (runs (.ld8 t0 1 2 0) [(2, g)]) 1 true g (.ld8 t0 1 2 0) = true ∧
    loadIssuesB (runs (.ld8u t0 1 2 0) [(2, g)]) 1 false g (.ld8u t0 1 2 0) = true ∧
    loadIssuesB (runs (.ld16 t0 1 2 0) [(2, g)]) 2 true g (.ld16 t0 1 2 0) = true ∧
    loadIssuesB (runs (.ld16u t0 1 2 0) [(2, g)]) 2 false g (.ld16u t0 1 2 0) = true ∧
    loadIssuesB (runs (.ld32 t0 1 2 0) [(2, g)]) 4 true g (.ld32 t0 1 2 0) = true ∧
    loadIssuesB (runs (.ld32u t0 1 2 0) [(2, g)]) 4 false g (.ld32u t0 1 2 0) = true ∧
    loadIssuesB (runs (.ld64 t0 1 2 0) [(2, g)]) 8 false g (.ld64 t0 1 2 0) = true := by decide +kernel

theorem test_witness_ldpc : loadIssuesB (runs (.ldpc t0 1 2) []) 8 false 0x1008 (.ldpc t0 1 2) = true ∧
    pcPlus (runs (.ldpc t0 1 2) []) t0 2 = 0x1008 := by decide +kernel

/-- A context with one load outstanding. -/
def loading (l : Load) : State := holds { Ctx.idle with st := .ready, pc := 0x1000, loads := [l] }

/-- A load of 4 bytes of the scratchpad into register 3. -/
def aLoad : Load := ⟨3, 4, true, spmAt, 0x0FFC, none, none, false, false⟩

theorem test_witness_load_completes :
    let s := loading aLoad
    (cref s t0).loads[0]? = some aLoad ∧ outOfService s (.core 0) = false ∧
    aLoad.value = none ∧ aLoad.tag = none ∧ heldOverlap s 0 0 spmAt 4 = false ∧
    reachesB s (cref s t0).rq 0 spmAt 4 true false = true ∧ cleanB s 4 (locate s spmAt 4) = true ∧
    placeAt (locate s spmAt 4) = some (spmBase 0 + 0x2000) := by decide +kernel

theorem test_witness_load_has_value :
    (cref (loading { aLoad with value := some 7 }) t0).loads[0]? = some { aLoad with value := some 7 } := by decide +kernel

/-- A signed byte delivered from memory. -/
theorem test_ld8_sign_extends :
    (match exec (.loadComplete t0 0) (wrByte (loading { aLoad with size := 1 }) (spmBase 0 + 0x2000) 0x80) with
     | .next u => decide ((cref u t0).rget 3 = BitVec.ofInt 64 (-128) ∧ (cref u t0).loads = []) | _ => false) = true := by
  decide +kernel

/-- Stores: in the scratchpad of the thread's own core and in DRAM, each width. -/
def storeIssuesB (s : State) (n g v : Nat) (i : Instr) : Bool :=
  let r := issued s t0
  issuesB s i && decide (g % n = 0) && reachesB r (cref s t0).rq 0 g n false true && unheldB r t0 (.store n g v none)

theorem test_witness_stores : ∀ g ∈ [0x3000, spmAt],
    storeIssuesB (runs (.st8 t0 1 2 0) [(1, g), (2, 9)]) 1 g 9 (.st8 t0 1 2 0) = true ∧
    storeIssuesB (runs (.st16 t0 1 2 0) [(1, g), (2, 9)]) 2 g 9 (.st16 t0 1 2 0) = true ∧
    storeIssuesB (runs (.st32 t0 1 2 0) [(1, g), (2, 9)]) 4 g 9 (.st32 t0 1 2 0) = true ∧
    storeIssuesB (runs (.st64 t0 1 2 0) [(1, g), (2, 9)]) 8 g 9 (.st64 t0 1 2 0) = true := by decide +kernel

theorem test_witness_stc :
    let i : Instr := .stc t0 1 2 3 63
    let s := runs i [(1, spmAt), (2, 9)]
    locate (issued s t0) spmAt 8 = .spm 0 0x2000 ∧ issuesB s i = true ∧ spmAt % 8 = 0 ∧
    reachesB (issued s t0) (cref s t0).rq 0 spmAt 8 false true = true ∧
    unheldB (issued s t0) t0 (.store 8 spmAt 9 (some 63)) = true := by decide +kernel

theorem test_witness_atomics : ∀ fl ∈ [(⟨false, false, false⟩ : AmoFlags), ⟨true, true, true⟩],
    ∀ x ∈ [(AmoOp.add, Instr.amoAdd t0 1 2 3 fl), (.min, .amoMin t0 1 2 3 fl), (.max, .amoMax t0 1 2 3 fl),
      (.minu, .amoMinu t0 1 2 3 fl), (.maxu, .amoMaxu t0 1 2 3 fl), (.cas, .amoCas t0 1 2 3 fl)],
    let s := runs x.2 [(2, spmAt), (3, 9)]
    let n := if fl.wide then 8 else 4
    issuesB s x.2 = true ∧ releaseReady (cref s t0) = true ∧ reachesB (issued s t0) (cref s t0).rq 0 spmAt n true true = true ∧
    cleanB (issued s t0) n (locate (issued s t0) spmAt n) = true ∧ heldOverlap (issued s t0) 0 0 spmAt n = false ∧
    unheldB (issued s t0) t0 (.amo x.1 1 n spmAt 9 0 fl.acq) = true ∧
    placeAt (locate (issued s t0) spmAt n) = some (spmBase 0 + 0x2000) := by decide +kernel

theorem test_witness_amo_fadd :
    let fl : AmoFlags := ⟨false, false, false⟩
    let s := runs (.amoFadd t0 1 2 3 fl) [(2, spmAt), (3, 9)]
    issuesB s (.amoFadd t0 1 2 3 fl) = true ∧ reachesB (issued s t0) (cref s t0).rq 0 spmAt 4 true true = true ∧
    unheldB (issued s t0) t0 (.amo .fadd 1 4 spmAt 9 0 false) = true := by decide +kernel

/-- A signed minimum across the sign. -/
theorem test_amo_min_signed :
    let fl : AmoFlags := ⟨false, false, false⟩
    (match exec (.amoMin t0 1 2 3 fl) (wrByte (runs (.amoMin t0 1 2 3 fl) [(2, spmAt), (3, 0xFFFFFFFF)]) (spmBase 0 + 0x2000) 5) with
     | .next u => decide (rdN u (spmBase 0 + 0x2000) 4 = 0xFFFFFFFF) | _ => false) = true := by decide +kernel

theorem test_witness_store_released :
    let s := holds { Ctx.idle with st := .blocked, pc := 0x1000, hold := .access (.store 4 spmAt 9 none) }
    (cref s t0).st = .blocked ∧ (cref s t0).hold = .access (.store 4 spmAt 9 none) ∧ outOfService s (.core 0) = false ∧
    reachesB s (cref s t0).rq 0 spmAt 4 false true = true ∧ unheldB s t0 (.store 4 spmAt 9 none) = true := by decide +kernel

/-- Writes held at a scratchpad: the second of two on different lines. -/
theorem test_witness_inbound_released :
    let w : Inbound := ⟨0x200, [1, 2], some 5, none, none, none⟩
    let s := setCore up 0 { CoreState.idle with inbound := [⟨0x100, [3], none, none, none, none⟩, w] }
    (coreAt s 0).inbound[1]? = some w ∧ outOfService s (.core 0) = false ∧ lineEntered s 0 0x200 2 = false ∧
    (∀ v ∈ (coreAt s 0).inbound.take 1,
      (⟨v.off / 128, linesOf v.off v.data.length, false, true, false⟩ : Range).meets 0x200 2 = false) ∧
    (w.reply = none) := by decide +kernel

theorem test_witness_misaligned :
    (issuesB (runs (.ld16 t0 1 2 0) [(2, 0x3001)]) (.ld16 t0 1 2 0) = true ∧ 0x3001 % 2 ≠ 0) ∧
    (issuesB (runs (.st16 t0 1 2 0) [(1, 0x3001)]) (.st16 t0 1 2 0) = true) ∧
    (let x := ctxOf (.ld64 t0 1 2 0) [(2, 0x3000)]
     let s := holds { x with loads := List.replicate 8 { aLoad with dst := 0 } }
     issuesB s (.ld64 t0 1 2 0) = true ∧ 8 ≤ loadsOut (cref s t0)) := by decide +kernel

/-! ### Threads -/

/-- OnlyTheFetchedInstructionActs: a fetched word that is defined, one that is not, and a tensor instruction's four. -/
def fetching (ws : List Nat) : State :=
  let s := holds { Ctx.idle with st := .ready, pc := spmAt }
  wrBytes s (spmBase 0 + 0x2000) (ws.flatMap (toLe 4))

theorem test_witness_fetch :
    (let s := fetching [0x00C40001]
     coreIssues s 0 = true ∧ (cref s t0).st = .ready ∧ (cref s t0).ir = [] ∧
       (match fetchWords s 0 (cref s t0).rq spmAt 1 with
        | .ok (ws, _) => decide (ws = [0x00C40001]) && !isTensor 0x00C40001 && scalarDefined 0x00C40001
        | .error _ => false) = true) ∧
    (let s := fetching [0]
     (match fetchWords s 0 (cref s t0).rq spmAt 1 with
      | .ok (ws, _) => decide (ws = [0]) && !isTensor 0 && !scalarDefined 0 | .error _ => false) = true) ∧
    (let ws := [0x0AC0, 0x100, 0, 0]
     let s := fetching ws
     (match fetchWords s 0 (cref s t0).rq spmAt 1 with
      | .ok (vs, r) => decide (vs = [0x0AC0]) && isTensor 0x0AC0 &&
          (match fetchWords r 0 (cref s t0).rq spmAt 4 with | .ok (xs, _) => decide (xs = ws) | .error _ => false) &&
          tensorDefined ws && tensorDefined [0x0AC0]
      | .error _ => false) = true) := by decide +kernel

theorem test_witness_not_fetched : mayIssue (runs (.add t0 1 2 3) []) t0 [0x00C40001] = false := by decide +kernel

/-- FencesHoldTheirThreads: with nothing outstanding, with a store outstanding, and completion. -/
theorem test_witness_fences :
    (∀ i ∈ [Instr.fenceAcq t0, .fenceRel t0, .fenceFull t0, .ifence t0], issuesB (runs i []) i = true ∧
      (cref (runs i []) t0).loads = [] ∧ (cref (runs i []) t0).stores = 0 ∧ (cref (runs i []) t0).unretired = 0) ∧
    (let s := holds { ctxOf (.fenceRel t0) [] with stores := 1 }
     issuesB s (.fenceRel t0) = true ∧ (cref s t0).stores ≠ 0) ∧
    (let s := holds { ctxOf (.ifence t0) [] with stores := 1 }
     issuesB s (.ifence t0) = true ∧ (cref s t0).stores ≠ 0) ∧
    (let s := holds { ctxOf (.fenceAcq t0) [] with loads := [aLoad] }
     issuesB s (.fenceAcq t0) = true ∧ aLoad.value.isSome = false) ∧
    (cref (holds { Ctx.idle with st := .waiting, hold := .fence .full }) t0).hold = .fence .full ∧
    (cref (holds { Ctx.idle with st := .waiting, hold := .fence .full, stores := 1 }) t0).stores ≠ 0 := by decide +kernel

/-- ThreadsStartExitAndArrive. -/
theorem test_witness_exit :
    issuesB (runs (.exit t0) []) (.exit t0) = true ∧
    (let s := holds { Ctx.idle with st := .exiting, spawnCtr := some (0, 63) }
     (cref s t0).st = .exiting ∧ (cref s t0).unretired = 0 ∧ (cref s t0).stores = 0 ∧ (cref s t0).loads = [] ∧
     outOfService s (.core 0) = false ∧ coreInService s 0 = some 0) := by decide +kernel

theorem test_witness_arrive :
    (let s := runs (.arrive t0 1 2) [(1, 63), (2, 1)]
     issuesB s (.arrive t0 1 2) = true ∧ ownNode s = 0 ∧ (cref s t0).rget 1 = BitVec.ofNat 64 (0 * 2 ^ 48 + 0 * 2 ^ 6 + 63) ∧
     (cref s t0).loads = [] ∧ (cref s t0).stores = 0 ∧ (cref s t0).unretired = 0 ∧ coreInService s 0 = some 0) ∧
    (let s := fset (runs (.arrive t0 1 2) [(1, 31 * 64)]) (.cl 1 3 3) CB3.SLOT_FENCE 31
     issuesB s (.arrive t0 1 2) = true ∧ coreInService s 31 = none) := by decide +kernel

/-- A SPAWN at core 0 for class 1 with a counter named, from a thread of class `cls`. -/
def spawning (cls core : Nat) : State :=
  let x := ctxOf (.spawn t0 3 1 2 28) [(1, 0x4000), (2, spawnWord core false 1 63 true)]
  holds { x with cls := cls }

theorem test_witness_spawn :
    (let s := spawning 1 0
     issuesB s (.spawn t0 3 1 2 28) = true ∧ (cref s t0).rget 2 = BitVec.ofNat 64 (spawnWord 0 false 1 63 true) ∧
     (cref s t0).rget 1 = BitVec.ofNat 64 0x4000 ∧ (cref s t0).cls = 1 ∧ coreInService s 0 = some 0 ∧
     (ctxAt s 0 1).st = .free ∧ (ctxAt s 0 0).st ≠ .free) ∧
    (let s := spawning 2 0
     issuesB s (.spawn t0 3 1 2 28) = true ∧ 1 < (cref s t0).cls) ∧
    (let s := fset (spawning 1 31) (.cl 1 3 3) CB3.SLOT_FENCE 31
     issuesB s (.spawn t0 3 1 2 28) = true ∧ coreInService s 31 = none) := by decide +kernel

/-- A core with no FREE context. -/
def fullCore : State :=
  { spawning 1 0 with ctx := (spawning 1 0).ctx ++ (List.range' 1 2047).map (fun c => (c, { Ctx.idle with st := .waiting })) }

theorem find_range' {α : Type} (x : α) (n : Nat) : ∀ a c, a ≤ c → c < a + n →
    SMap.find ((List.range' a n).map (fun i => (i, x))) c = some x := by
  induction n with
  | zero => intro a c h1 h2; omega
  | succ n ih =>
    intro a c h1 h2
    rw [List.range'_succ, List.map_cons, SMap.find]
    split
    · rfl
    · next h => exact ih (a + 1) c (by omega) (by omega)

theorem find_skip {α : Type} (k : Nat) (x : α) (m : List (Nat × α)) (c : Nat) (h : c ≠ k) :
    SMap.find ([(k, x)] ++ m) c = SMap.find m c := by
  simp [SMap.find, h]

theorem test_witness_spawn_full : issuesB fullCore (.spawn t0 3 1 2 28) = true ∧ coreInService fullCore 0 = some 0 ∧
    ∀ c : Fin 2048, (ctxAt fullCore 0 c.val).st ≠ .free := by
  refine ⟨by decide +kernel, by decide +kernel, fun c => ?_⟩
  by_cases h : c.val = 0
  · rw [h]; decide +kernel
  · have e : SMap.find fullCore.ctx c.val = some { Ctx.idle with st := .waiting } := by
      have e1 : fullCore.ctx = [(0, (cref (spawning 1 0) t0))] ++
          (List.range' 1 2047).map (fun c => (c, { Ctx.idle with st := .waiting })) := rfl
      rw [e1, find_skip _ _ _ _ h]
      exact find_range' _ _ _ _ (by omega) (by omega)
    have k : ctxKey 0 c.val = c.val := by simp [ctxKey]
    rw [ctxAt, k, SMap.getD, e]
    simp

/-- A child of class 1 with its registers. -/
theorem test_spawn_child :
    (match exec (.spawn t0 3 1 2 28) (spawning 1 0) with
     | .next u => decide ((ctxAt u 0 1).pc = 0x4000 ∧ (ctxAt u 0 1).cls = 1 ∧ (ctxAt u 0 1).rget 5 = 0 ∧ (cref u t0).rget 3 = 1)
     | _ => false) = true := by decide +kernel

/-- WaitsHoldAndComplete: each wait issues; conditions that hold, that do not, and deadlines. -/
theorem test_witness_waits :
    (∀ i ∈ [Instr.waitTread t0 1 2 3, .waitLanding t0 1 2 3, .waitTime t0 1 2 3, .waitCount t0 1 2 3 63],
      issuesB (runs i [(2, 5)]) i = true ∧ (cref (runs i [(2, 5)]) t0).rget 2 = BitVec.ofNat 64 5) ∧
    statusNow { up with tb.dev := 5 * 2 ^ 32 } 0 (.time 5) 0 = some 0 ∧ statusNow up 0 (.time 5) 0 = none ∧
    statusNow { up with tb.dev := 5 * 2 ^ 32 } 0 (.time 9) 5 = some 3 ∧ statusNow up 0 (.tread 5 0) 0 = none ∧
    statusNow up 0 (.landing 5) 0 = none ∧ statusNow up 0 (.count 63 5) 0 = none ∧ statusNow up 0 (.count 63 0) 0 = some 0 := by
  decide +kernel

theorem test_witness_wait_ends :
    let s := { holds { Ctx.idle with st := .waiting, hold := .wait (.time 5) 7 3 } with tb.dev := 5 * 2 ^ 32 }
    (cref s t0).hold = .wait (.time 5) 7 3 ∧ outOfService s (.core 0) = false ∧ waitStatus s 0 (.time 5) = some 0 ∧
    waitStatus { s with tb.dev := 0 } 0 (.time 5) = none ∧ pastDeadline { s with tb.dev := 7 * 2 ^ 32 } 7 = true ∧
    waitStatus { s with tb.dev := 7 * 2 ^ 32 } 0 (.time 9) = none ∧ pastDeadline s 7 = false := by decide +kernel

/-- A halo board at byte 0x10000 of core 0's scratchpad with entry 31 valid. -/
def boarded (x : Ctx) : State :=
  wrByte (holds x) (spmBase 0 + 0x10000 + 64 * 31 + 0x22) 1

theorem test_witness_halo :
    let s := boarded (ctxOf (.waitHalo t0 1 2 3 31) [(2, 0x10000 + 15 * 2 ^ 32)])
    issuesB s (.waitHalo t0 1 2 3 31) = true ∧ (cref s t0).rget 2 = BitVec.ofNat 64 (0x10000 + 2 ^ 32 * 15) ∧
    (boardCheck (issued s t0) 0 0 (0x10000 + 2 ^ 32 * 15) 31 true).1 = none ∧
    boardPlace s 0x10000 = some (0, 0x10000) ∧
    (let q := (boardCheck (issued s t0) 0 0 (0x10000 + 2 ^ 32 * 15) 31 true).2
     statusNow q 0 (.halo 0x10000 15 31 0) 0 = none ∧
     statusNow { q with tb.dev := 5 * 2 ^ 32 } 0 (.halo 0x10000 15 31 0) 5 = some 3) := by decide +kernel

/-- A mark at issue, one that has to wait, and one that has waited. -/
theorem test_witness_mark :
    (let s := boarded (ctxOf (.treadMark t0 2 31) [(2, 0x10000 + 15 * 2 ^ 32)])
     let q := issued s t0
     let g := 2 ^ 44 + 0x10000 + 64 * 31 + 1
     issuesB s (.treadMark t0 2 31) = true ∧ markReady (cref s t0) = true ∧ ownNode q = 0 ∧
     (boardCheck q 0 0 (0x10000 + 2 ^ 32 * 15) 31 false).1 = none ∧ placeAt (locate q g 1) = some (spmBase 0 + 0x10000 + 64 * 31 + 1) ∧
     reachesB q (cref s t0).rq 0 g 1 true true = true ∧ cleanB q 1 (locate q g 1) = true ∧
     accessHeld q 0 (.store 1 g 0 none) = false) ∧
    (let s := boarded { ctxOf (.treadMark t0 2 31) [(2, 0x10000 + 15 * 2 ^ 32)] with unretired := 1 }
     issuesB s (.treadMark t0 2 31) = true ∧ markReady (cref s t0) = false ∧
     (boardCheck (issued s t0) 0 0 (0x10000 + 2 ^ 32 * 15) 31 false).1 = none) ∧
    (let s := boarded { Ctx.idle with st := .waiting, hold := .mark 0x10000 15 31 }
     (cref s t0).hold = .mark 0x10000 15 31 ∧ (cref s t0).st = .waiting ∧ markReady (cref s t0) = true ∧
     (boardCheck s 0 0 (0x10000 + 2 ^ 32 * 15) 31 false).1 = none) := by decide +kernel

/-- TheTurnGoesByClassAndPromotion. -/
theorem test_witness_turn :
    let s := setCtx (runs (.add t0 1 2 3) []) 0 7 { ctxOf (.add ⟨0, 7⟩ 1 2 3) [] with cls := 0 }
    issueTurn { s with ctx := s.ctx.map (fun e => (e.1, if e.1 = 0 then { e.2 with cls := 3 } else e.2)) } 0 = some 7 ∧
    SMap.sorted none s.ctx = true ∧ issueTurn s 0 = some 0 := by decide +kernel

theorem test_witness_starved :
    let s := { fset (holds { Ctx.idle with st := .ready }) (.die 0 10) (DB10.VF_POINT_MHZ 0) 1000 with now := 4096000 }
    (cref s t0).st = .ready ∧ (cref s t0).promoted = false ∧ 4096 * 16000 ≤ aclkIn s 0 (s.now - (cref s t0).since) := by
  decide +kernel

/-! ### Tensor instructions -/

theorem test_witness_tensor_issues :
    ∀ i ∈ [Instr.pass, .move, .spGather, .spCompress, .ruleGather, .ruleScatter, .cellFinish, .mapScatter, .rbBuild, .nbrQuery,
      .hallQuery, .embGather, .embUpdate, .embFlush, .embApply],
    issuesB (runs (i (.issue t0 10 0x100 0x80 0)) [(10, 0x1000)]) (i (.issue t0 10 0x100 0x80 0)) = true := by decide +kernel

/-- A BLOCKED thread whose MOVE of no rows, without a record, is to enter. -/
def aMove : Issuing := ⟨0xC1, 0x1000, 0, 0, false⟩

/-- Its descriptor. -/
def moveDesc : List Nat := List.replicate 0x38 0 ++ [0xFF, 0xFF, 0xFF, 0xFF] ++ List.replicate 0x44 0

theorem test_witness_enters :
    let s := wrBytes (holds { Ctx.idle with st := .blocked, pc := 0x1000, hold := .tensor aMove }) (spmBase 0 + 0x1000) moveDesc
    let r := coreRead s (cref s t0).rq (some 0) (spmGlobal s 0 0x1000) 128
    let rs := mkRange true false 0x1000 128 ++ declaredRanges s 0 (enteringTi (cref s t0) 0 aMove moveDesc)
    (cref s t0).hold = .tensor aMove ∧ (cref s t0).st = .blocked ∧ outOfService s (.core 0) = false ∧
    (cref s t0).unretired < 16 ∧ queueUsed s 0 .mover < queueRoom .mover ∧ entryFault aMove = none ∧
    lineWritten s 0 0x1000 128 = false ∧ r.1 = .ok ∧ r.2.1 = moveDesc ∧ selfOverlap rs = false ∧
    entriesUsed s 0 + rs.length ≤ 256 ∧ (cref s t0).loads = [] ∧
    16 ≤ (cref (holds { Ctx.idle with st := .blocked, hold := .tensor aMove, unretired := 16 }) t0).unretired := by decide +kernel

/-- An instruction of core 0's first context. -/
def aTi (op : Nat) (ph : TiPhase) (desc : List Nat) : Ti where
  id := 1
  op := op
  ctx := 0
  domain := 0
  cls := 0
  pc := 0x1000
  notify := 0xBF
  w3 := 0
  descAt := 0
  desc := desc
  ranges := []
  phase := ph
  waited := 0
  owned := true
  far := []
  owed := 0
  out := []
  fin := []
  prog := []

/-- The part with that instruction entered, behind others. -/
def withTis (before : List Ti) (t : Ti) : State :=
  setCore (holds { Ctx.idle with st := .ready, pc := 0x1010, unretired := 1 }) 0 { CoreState.idle with tis := before ++ [t] }

/-- Two ranges that conflict: a write and a read of line 5. -/
def rangeW : Range := ⟨5, 1, false, true, false⟩
def rangeR : Range := ⟨5, 1, true, false, false⟩

theorem test_witness_admits :
    (let t := { aTi 0xC1 .entered moveDesc with ranges := [rangeR] }
     let s := withTis [] t
     tiAt s 0 1 = some t ∧ outOfService s (.core 0) = false ∧ t.phase = .entered ∧
     ((coreAt s 0).tis.takeWhile (fun u => u.id ≠ 1)).flatMap Ti.ranges ++ (coreAt s 0).kept.map Kept.range = []) ∧
    (let t := { aTi 0xC1 .entered moveDesc with ranges := [rangeR], id := 2 }
     let s := withTis [{ aTi 0xC1 .running moveDesc with ranges := [rangeW] }] t
     tiAt s 0 2 = some t ∧ rangeR.conflicts rangeW = true ∧
     ((coreAt s 0).tis.takeWhile (fun u => u.id ≠ 2)).flatMap Ti.ranges = [rangeW]) := by decide +kernel

theorem test_witness_dispatch :
    let t := aTi 0xC1 (.queued 0) moveDesc
    let s := withTis [] t
    tiAt s 0 1 = some t ∧ s.sup.stopped = false ∧ runningOn s 0 .mover = [] ∧
    (sortBy (fun t => t.cls * 2 ^ 64 + t.order)
      ((queued s 0 .mover).filter (fun t => !classHeld s 0 t.cls && unitTakes s 0 t))).head? = some t := by decide +kernel

theorem test_witness_retires :
    (let t := aTi 0xC1 .retiring moveDesc
     let s := withTis [] t
     tiAt s 0 1 = some t ∧ t.owned = true ∧ outOfService s (.core 0) = false ∧ bit t.notify 7 = true ∧ descNotify t = none) ∧
    (let t := aTi 0xC1 (.faulting 255) moveDesc
     let s := withTis [] t
     tiAt s 0 1 = some t ∧ (cref s t0).st ≠ .faulted ∧ (cref s t0).st ≠ .free) := by decide +kernel

/-- UnitRuns: an instruction whose work comes to no access, to one record within reach, or to a fault. -/
def unitRunsB (op : Nat) (work : Who → Ti → State → Run (List UnitOut × State)) (desc : List Nat) (kind : Nat) : Bool :=
  let t := aTi op .running desc
  let s := withTis [] t
  let w := whoOf 0 t
  let ready := fun (q : State) =>
    match tiAt q 0 1 with
    | some e => decide (e.id = 1 ∧ e.out = [] ∧ e.owed = 0 ∧ e.phase = .running)
    | none => false
  decide (tiAt s 0 1 = some t) && !outOfService s (.core 0) &&
    match work w t s with
    | .ok ([], q) => decide (kind = 0) && ready q
    | .ok ([.write g bs], q) => decide (kind = 1) && ready q && (placeAt (locate q g bs.length)).isSome &&
        reachesB q w.rq 0 g bs.length false true
    | .error (.fault _ q) => decide (kind = 2) && ready q && !q.err.inj
    | _ => false

/-- The works with the sizes of their descriptors. -/
theorem test_witness_units :
    unitRunsB 0xC1 moveTry moveDesc 0 = true ∧ unitRunsB 0xC1 moveTry (List.replicate 128 0) 1 = true ∧
    unitRunsB 0xC2 gatherWork (List.replicate 128 0) 1 = true ∧ unitRunsB 0xC3 compressWork (List.replicate 64 0) 1 = true ∧
    unitRunsB 0xC4 ruleGatherWork (List.replicate 128 0) 1 = true ∧ unitRunsB 0xC5 ruleScatterWork (List.replicate 64 0) 1 = true ∧
    unitRunsB 0xC6 cellFinishWork (List.replicate 64 0) 1 = true ∧ unitRunsB 0xC7 mapScatterWork (List.replicate 64 0) 1 = true ∧
    unitRunsB 0xC8 buildWork (List.replicate 64 0) 1 = true ∧ unitRunsB 0xCA hallQueryWork (List.replicate 32 0) 1 = true ∧
    unitRunsB 0xCC embUpdateWork (List.replicate 64 0) 1 = true ∧ unitRunsB 0xCE embApplyWork (List.replicate 32 0) 1 = true := by
  decide +kernel

theorem test_witness_unit_faults :
    unitRunsB 0xC1 moveTry (List.replicate 0x38 0 ++ [1] ++ List.replicate 0x47 0) 2 = true ∧
    unitRunsB 0xCA hallQueryWork (List.replicate 16 0 ++ [1] ++ List.replicate 15 0) 2 = true := by decide +kernel

/-! ### Units and the engine group -/

/-- `n` bytes of zero with these little-endian fields: offset, bytes, value. -/
def fields (n : Nat) (fs : List (Nat × Nat × Nat)) : List Nat :=
  fs.foldl (fun l f => l.take f.1 ++ toLe f.2.1 f.2.2 ++ l.drop (f.1 + f.2.1)) (List.replicate n 0)

/-- A fill and a copy of one row of 8 bytes to byte 0x2000 of core 0's scratchpad. -/
def moveTi (op src : Nat) : Ti :=
  aTi 0xC1 .running (fields 128 [(0, 1, op), (8, 4, 1), (12, 4, 8), (0x10, 8, src), (0x18, 8, spmAt), (0x38, 4, 0xFFFFFFFF)])

theorem test_witness_moves : ∀ op ∈ [0, 1],
    let t := moveTi op 0x3000
    let s := withTis [] t
    let rq := (whoOf 0 t).rq
    tiAt s 0 1 = some t ∧ outOfService s (.core 0) = false ∧ moveBad t = false ∧ moveMisaligned t = false ∧
    t.mvResult = 0xFFFFFFFF ∧ t.mvRows = 1 ∧ t.mvRow = 8 ∧ t.mvFlag 1 = false ∧ t.mvOp = op ∧
    placeAt (locate s (t.d 0x18 8) 8) = some (spmBase 0 + 0x2000) ∧ reachesB s rq 0 (t.d 0x18 8) 8 false true = true ∧
    t.d 1 1 = t.d 2 1 ∧ t.d 1 1 ≠ 8 ∧ (placeAt (locate s (t.d 0x10 8) 8)).isSome = true ∧
    reachesB s rq 0 (t.d 0x10 8) 8 true false = true ∧ cleanB s 8 (locate s (t.d 0x10 8) 8) = true := by decide +kernel

/-- Frame 4's slot on a Hall with one tread. -/
def aSlot (f : Nat) : Slot := ⟨f, 0, 0, 0, [], [], [], 0, 0, 0, 0, 0, true, false, true, 0, 0, 0, 0, 0, 0⟩

/-- NBR_QUERY for two given positions. -/
def nbrTi : Ti := aTi 0xC9 .running
  (fields 64 [(0, 1, 1), (4, 4, 4), (9, 1, 1), (0xB, 1, 2), (0xC, 4, 2), (0x14, 1, 1), (0x18, 8, spmAt), (0x20, 8, 2 ^ 44)])

theorem test_witness_nbr :
    let s := fset (setSlot (setSlot (withTis [] nbrTi) 0 (aSlot 4)) 1 (aSlot 4)) (.die 0 4) DB4.DE_CTRL 1
    let w := whoOf 0 nbrTi
    tiAt s 0 1 = some nbrTi ∧ s.nbr = [] ∧ nbrTi.d 0x20 8 % 64 = 0 ∧ outOfService s (.point (nbrDie s 0 nbrTi)) = false ∧
    quiescing s (.die (nbrDie s 0 nbrTi) 4) = false ∧ nbrStatus s (nbrDie s 0 nbrTi) nbrTi = 0 ∧ nbrTi.d 0xC 4 ≠ 0 ∧
    (match uRead w s (nbrTi.d 0x18 8) (nbrSource nbrTi) with | .ok _ => true | _ => false) = true := by decide +kernel

/-- An updatable DIRECT table at byte 0x4000 of core 0's scratchpad. -/
def tableBytes : List Nat :=
  fields 128 [(0, 1, 2), (1, 1, 8), (3, 1, 2), (4, 1, 1), (6, 2, 1), (8, 4, 4), (0x30, 8, spmAt), (0x3C, 4, 16), (0x40, 8, 0x100)]

/-- The part with that table and this instruction. -/
def withTable (t : Ti) : State := wrBytes (withTis [] t) (spmBase 0 + 0x4000) tableBytes

theorem test_witness_flush :
    let t := aTi 0xCD .running (fields 32 [(0, 8, 2 ^ 44 + 0x4000), (8, 8, spmAt)])
    let s := withTable t
    let w := whoOf 0 t
    flushBad t = false ∧ t.d 8 8 % 32 = 0 ∧
    (match readTable w s (t.d 0 8) with
     | .ok (some b, q) => b.updatable && decide (tiAt q 0 1 = some t) && decide ((flowAt q b.id).out = 0) &&
        (List.range 8).all (fun c => (embAt q c).upd.isEmpty && (embAt q c).lost.isEmpty) &&
        decide (placeAt (locate q (t.d 8 8) 32) = some (spmBase 0 + 0x2000)) && reachesB q w.rq 0 (t.d 8 8) 32 false true
     | _ => false) = true := by decide +kernel

theorem test_witness_gather :
    let t := { aTi 0xCB .running (fields 64 [(0, 1, 1), (4, 4, 2), (8, 8, 2 ^ 44 + 0x4000), (0x18, 8, 2 ^ 44), (0x20, 8, spmAt)])
      with prog := [2, 0, 1, 1, 0, 0, 3, 1] }
    let s := withTable t
    let w := whoOf 0 t
    outOfService s (.cluster 0 0) = false ∧ embMisaligned t = false ∧ embBad t = false ∧
    (match readTable w s (t.d 8 8) with
     | .ok (some b, q) =>
       match embIndices w t q with
       | .ok (idx, r) => decide (tiAt r 0 1 = some t) && decide (0 < b.rowLines) && decide ((GatherProg.of t).und = 0) &&
          decide (idx.length = t.d 4 4) && decide ((GatherProg.of t).next = idx.length * b.rowLines) &&
          decide (placeAt (locate r (t.d 0x20 8) 32) = some (spmBase 0 + 0x2000)) && reachesB r w.rq 0 (t.d 0x20 8) 32 false true
       | _ => false
     | _ => false) = true := by decide +kernel

/-! The engine group -/

/-- A WS INT8 pass of one step on engine 0 whose tile, stream and output lie apart. -/
def passTi (id cls : Nat) (ph : TiPhase) : Ti :=
  { aTi 0xC0 ph (fields 128 [(1, 1, 1), (2, 1, 1), (3, 1, 1), (4, 1, 8), (6, 1, 1), (8, 2, 1), (0xC, 4, 0xFFFFFFFF),
      (0x10, 4, 0xFFFFFFFF), (0x18, 4, 0x1000), (0x20, 4, 0x2000), (0x40, 4, 0x4000)]) with id := id, cls := cls }

/-- The part with that pass and a group whose state is this. -/
def withGrp (g : Group) (ts : List Ti) : State :=
  setGrp (fset (setCore (holds { Ctx.idle with st := .ready, unretired := 1 }) 0 { CoreState.idle with tis := ts })
    (grpPage 0) KB3.GRP_CTRL 1) 0 g

theorem test_witness_pass_next :
    let t := passTi 1 3 (.queued 0)
    let s := withGrp Group.idle [t]
    let p := passOf s 0 t
    groupRuns s 0 = true ∧ (grpAt s 0).again = [] ∧ (grpAt s 0).next = none ∧ (grpAt s 0).chain = none ∧
    pickPass s 0 = some t ∧ tiAt s 0 1 = some t ∧ p.check (grpAt s 0) = none ∧ p.noop = false ∧ passDenied s 0 t p = none ∧
    p.w24 = false ∧ fget s (.core 0 8) HDR.INJECT_COUNT = 0 ∧
    (∀ r ∈ p.reads, eccIn s ((spmBase 0 + r.1) / 8 * 8) (spmBase 0 + r.1 + r.2) = []) := by decide +kernel

/-- A pass waiting for the ledger, with this estimate. -/
def asking (cls est : Nat) : State :=
  let s := withGrp { Group.idle with next := some ⟨1, 0, est, false, false, false, false⟩ } [passTi 1 cls .running]
  { seteff s (.pkg 6) PB6.LED_CTRL_BUDGET_EN 1 with led.toTest := [0] }

theorem test_witness_ledger :
    (∀ c ∈ [0, 3], let s := asking c 0
      s.led.toTest = [0] ∧ (grpAt s 0).next = some ⟨1, 0, 0, false, false, false, false⟩ ∧ tiAt s 0 1 = some (passTi 1 c .running) ∧
      ebit s (.pkg 6) PB6.LED_CTRL_BUDGET_EN = true) ∧
    16 * (0 : Int) ≤ headroom16 (asking 0 0) 0 ∧ ¬ 16 * ((10 ^ 15 : Nat) : Int) ≤ headroom16 (asking 3 (10 ^ 15)) 3 ∧
    ¬ 16 * ((10 ^ 15 : Nat) : Int) ≤ headroom16 (asking 0 (10 ^ 15)) 0 := by decide +kernel

theorem test_witness_pass_issues :
    let t := passTi 1 3 .running
    let s := withGrp { Group.idle with next := some ⟨1, 0, 5, true, true, false, false⟩ } [t]
    groupRuns s 0 = true ∧ tiAt s 0 1 = some t ∧ inFlight (grpAt s 0) < 2 ∧ groupStopped s 0 = false ∧
    stepHolds s 0 = false ∧ (passOf s 0 t).check (grpAt s 0) = none ∧ (earliest none (passOf s 0 t)).1 ≤ 1000 := by decide +kernel

/-- The rules of R237 between two WS passes that carry NEW_STAT: 32 cycles of loading bound a short pass, L a long one. -/
theorem test_witness_timing :
    let p := passOf up 0 (passTi 1 3 .running)
    (earliest (some ⟨100, 1, 0, 1, false, true⟩) p).1 = 132 ∧ (earliest (some ⟨100, 50, 0, 1, false, true⟩) p).1 = 150 ∧
    (earliest (some ⟨100, 1, 1, 1, false, true⟩) p).1 = 165 := by decide +kernel

theorem test_witness_chain :
    let s := withGrp { Group.idle with chain := some ⟨0, 1, [], [], 10⟩ } []
    (grpAt s 0).chain = some ⟨0, 1, [], [], 10⟩ ∧ (grpAt s 0).next = none ∧ pickPass s 0 = none ∧
    outOfService s (.eng 0) = false := by decide +kernel

/-- R257: a pass with SHIFT 8 and NEG takes 2 times 3 away as 6 times 256. -/
theorem test_integer_pass :
    let p : PassD := ⟨{ passTi 1 3 .running with desc := fields 128 [(1, 1, 1), (2, 1, 1), (4, 1, 4), (5, 1, 8), (0x10, 4, 1)] }, [], []⟩
    p.fp = false ∧ 0 < 1 ∧ p.dim = 32 ∧
    ((p.runHeld 1 (fun _ _ => 5) (fun _ _ => [(.fin 2 0, .fin 3 0)])).1.getD 0 []).getD 0 0 = 2 ^ 32 + 5 - 1536 ∧
    ((p.runHeld 1 (fun _ _ => 5) (fun _ _ => [(.fin 2 0, .fin 3 0)])).1.getD 0 []).getD 1 0 = 0 := by decide +kernel

/-! ### Registers and time -/

/-- `Accepted`, computed. -/
def acceptedB (s : State) (rq : Requester) (a : Nat) (rd wr : Bool) (p : Page) : Bool :=
  decide (checkReg s rq a 4 rd wr = (.ok p, s))

/-- `Alone`, computed. -/
def aloneB (p : Page) (off : Nat) (r : RegRow) : Bool :=
  (rowsAt p off).contains r && decide (r.fld.lo + r.fld.w ≤ 32) &&
    (rowsAt p off).all (fun q => q = r || q.fld.lo + q.fld.w ≤ r.fld.lo || r.fld.lo + r.fld.w ≤ q.fld.lo)

/-- `Stored`, computed. -/
def storedB (s : State) (rq : Requester) (p : Page) (off v : Nat) : Bool :=
  decide (0x40 ≤ off) && (match p with | .pkg b => pkgWrite s rq b off v | _ => unitPageWrite s p off v).isNone

/-- A test of the row at bit `lo` of a register. -/
def rowIs (p : Page) (off lo : Nat) (f : RegRow → Bool) : Bool :=
  match (rowsAt p off).find? (fun r => r.fld.lo = lo) with
  | some r => aloneB p off r && f r
  | none => false

theorem test_witness_irregular : ∀ a ∈ [(0x7F2040, 2), (0x7F2041, 4)],
    pageAt a.1 = some (.pkg 2) ∧ a.1 % 0x1000 / 4 * 4 ≤ lastOffset (.pkg 2) ∧ (a.2 ≠ 4 ∨ a.1 % 4 ≠ 0) := by decide +kernel

/-- A write meets every access code of a register that is no command, and a lock. -/
theorem test_witness_writes : ∀ c ∈ [((2 : Nat), 0x58, 0, Acc.rw), (2, 0x40, 16, .rws), (10, 0x40, 8, .rwl), (7, 0x50, 0, .w1c),
      (2, 0x44, 4, .ro), (2, 0x94, 0, .rc)],
    let p := Page.pkg c.1
    rowIs p c.2.1 c.2.2.1 (fun r => decide (r.acc = c.2.2.2)) = true ∧ storedB up rqHost p c.2.1 5 = true ∧
    acceptedB up rqHost (pageBase p + c.2.1) false true p = true := by decide +kernel

theorem test_witness_locked :
    let s := fset up (.pkg 10) PB10.HIST_CTRL_INJ_LOCK 1
    rowIs (.pkg 10) 0x40 8 (fieldLocked s (.pkg 10) 0x40) = true ∧ storedB s rqHost (.pkg 10) 0x40 0 = true ∧
    acceptedB s rqHost (pageBase (.pkg 10) + 0x40) false true (.pkg 10) = true := by decide +kernel

theorem test_witness_reads :
    (let off := 0x94
     rowIs (.pkg 2) off 0 (fun r => decide (r.acc = .rc)) = true ∧ acceptedB up rqHost (pageBase (.pkg 2) + off) true false (.pkg 2) = true ∧
     (loOffsets (.pkg 2)).contains off = false ∧ (loOffsets (.pkg 2)).contains (off - 4) = false) ∧
    (let p := Page.core 0 1
     (loOffsets p).contains 0x48 = true ∧ (loOffsets p).contains 0x4C = false ∧
     acceptedB up rqHost (pageBase p + 0x48) true false p = true ∧ acceptedB up rqHost (pageBase p + 0x4C) true false p = true) ∧
    (∀ o ∈ [0x48, 0x4C, 0x50, 0x54], acceptedB up rqHost (0x7F2000 + o) true false (.pkg 2) = true) ∧
    (∀ n ∈ List.range 4, acceptedB up rqHost (0x7F5204 + 0x20 * n) true false (.pkg 5) = true ∧ (capAt up n).fifo = [] ∧
      (capAt { up with cap := [(n, ⟨[(7, true)], none⟩)] } n).fifo = (7, true) :: []) := by decide +kernel

theorem test_witness_commits :
    acceptedB up rqHost (pageBase (.pkg 2) + 0x10) false true (.pkg 2) = true ∧ pageShadows (.pkg 2) = true ∧
    pageLocked up (.pkg 2) = false ∧
    -- the pages whose sets are checked at the write: each with a set that passes, and with one that is refused
    (∀ p ∈ [Page.pkg 4, .pkg 7, .pkg 9, .die 1 7, .core 39 11], pageShadows p = true ∧ pageLocked up p = false ∧
      acceptedB up rqHost (pageBase p + 0x10) false true p = true ∧ setOk up p (shadowSet up p) = true) ∧
    SMap.sorted none up.reg.regs = true ∧
    (let s := fset (fset up (.core 39 11) (KB11.SPM_WIN_BASE 0) 5) (.core 39 11) (KB11.SPM_WIN_GRANT_HI 0) 0x80000000
     setOk s (.core 39 11) (shadowSet s (.core 39 11)) = false) ∧
    (let s := fset up (.pkg 4) (PB4.PORT_CTRL_MODE 3) 3
     setOk s (.pkg 4) (shadowSet s (.pkg 4)) = false ∧ pageLocked s (.pkg 4) = false) ∧
    (let s := fset up (.core 0 11) KB11.ACC_CTRL 1
     pageShadows (.core 0 11) = true ∧ pageLocked s (.core 0 11) = true ∧
     acceptedB s rqHost (pageBase (.core 0 11) + 0x10) false true (.core 0 11) = true) := by decide +kernel

/-- A captured set of page B2: at its safe point at once; one that is refused; and one of B3 while the stair runs. -/
theorem test_witness_sets :
    let put := fun (p : Page) (ws : List (Nat × Word)) (s : State) => { s with reg.captured := [(pageBase p, ⟨ws, false⟩)] }
    (let s := put (.pkg 2) (shadowSet up (.pkg 2)) up
     (capturedOf s (.pkg 2)).isSome = true ∧ atSafePoint s (.pkg 2) ⟨shadowSet up (.pkg 2), false⟩ = true ∧
     setOk s (.pkg 2) (shadowSet up (.pkg 2)) = true) ∧
    (let ws := [(PB2.TIME_CTRL_PROFILE.off, (BitVec.allOnes 32 : Word))]
     atSafePoint (put (.pkg 2) ws up) (.pkg 2) ⟨ws, false⟩ = true ∧ setOk (put (.pkg 2) ws up) (.pkg 2) ws = false) ∧
    (let s := put (.pkg 3) [] (fset (seteff up (.pkg 3) PB3.STAIR_CTRL_EN 1) (.pkg 3) PB3.STAIR_STATUS_RUNNING 1)
     atSafePoint s (.pkg 3) ⟨[], false⟩ = false ∧ (capturedOf s (.pkg 3)).isSome = true) ∧
    SMap.find { up with ports.portPend := [(3, [])] }.ports.portPend 3 = some [] := by decide +kernel

/-- The part in this discipline state, with this source of time. -/
def timed (src disc : Nat) (tb : TimeBase) : State :=
  { fset (seteff up (.pkg 2) PB2.TIME_CTRL_SOURCE src) (.pkg 2) PB2.TIME_STATUS_STATE disc with tb := tb }

/-- A time base at two seconds. -/
def tb2 : TimeBase := { State.reset.tb with dev := 2 * oneSec }

theorem test_witness_time :
    (acceptedB (timed 2 2 tb2) rqHost 0x7F2064 false true (.pkg 2) = true ∧ discState (timed 2 2 tb2) = 2) ∧
    (acceptedB (timed 2 1 tb2) rqHost 0x7F2064 false true (.pkg 2) = true ∧ discState (timed 2 1 tb2) ≠ 2 ∧
     fget (timed 2 1 tb2) (.pkg 2) PB2.SET_NS < 1000000000) ∧
    (let s := { timed 2 1 { tb2 with lastPps := some (0, 1) } with now := 899999999 }
     timeSource s = 2 ∧ discState s = 1 ∧ s.now < 0 + 900000000) ∧
    (let s := { timed 2 1 { tb2 with lastPps := some (0, 1) } with now := 1100000000 }
     timeSource s = 2 ∧ 0 + 900000000 ≤ s.now ∧ s.now ≤ 0 + 1100000000) ∧
    timeSource (timed 1 1 tb2) ≠ 2 ∧ devSec (timed 2 1 tb2).tb.dev ≠ (timed 2 1 tb2).tb.ppsSec ∧
    (let s := fset (fset (timed 2 2 tb2) (.pkg 2) PB2.PPS_OUT_CTRL_EN 1) (.pkg 2) PB2.PPS_OUT_CTRL_WIDTH 1
     fbit s (.pkg 2) PB2.PPS_OUT_CTRL_EN = true ∧ discState s = 2 ∧ fget s (.pkg 2) PB2.PPS_OUT_CTRL_WIDTH ≠ 0) ∧
    (let s := { timed 2 2 { tb2 with lastSample := some 0 } with now := 10 ^ 12 }
     discState s = 2 ∧ 0 + max 1 (fget s (.pkg 2) PB2.DISC_TIMEOUT) * 1000000 ≤ s.now) := by decide +kernel

/-- A message of type `k` with these correction and two-step fields. -/
def ptpOf (k : Nat) (two : Bool) : PtpMsg := ⟨k, 2, 64, 0, two, 0, 77, 5, 0, 0, ownPortId up 0, [], 0, 0⟩

/-- The part as a PTP slave of that sender on port 0. -/
def slave : State :=
  { timed 1 1 { tb2 with master := some (0, ptpOf 11 false), pathDelay := some 0 } with
    ports.portEff := [(0, [(PB4.PORTS_CTRL.off, 0)])] }

theorem test_witness_ptp :
    ptpProfile slave = 0 ∧ pget slave 0 PB4.PORTS_CTRL ≠ 1 ∧ timeSource slave = 1 ∧ masterDelay slave 0 = some 0 ∧
    (∀ k ∈ [0, 2, 3, 8, 9, 10, 11], ptpUsed slave (ptpOf k false) = true ∧ ptpValid { ptpOf k false with length := 0 } = false) ∧
    fromMaster slave 0 (ptpOf 0 false) = true ∧ (ptpOf 0 true).twoStep = true ∧ (ptpOf 3 true).reqId = ownPortId slave 0 ∧
    ({ slave with tb.twoStep := some (0, 5, 77, 9, 0) } : State).tb.twoStep = some (0, (ptpOf 8 false).seq, (ptpOf 8 false).src, 9, 0) ∧
    bestMaster [(0, ptpOf 11 false)] = some (0, ptpOf 11 false) ∧
    (let s := timed 2 1 { tb2 with master := some (0, ptpOf 11 false), delayReq := [(0, (5, 3))], lastSync := some (9, 4) }
     SMap.find s.tb.delayReq 0 = some ((ptpOf 9 false).seq, 3) ∧ fromMaster s 0 (ptpOf 9 false) = true ∧ ptpProfile s = 0 ∧
     timeSource s ≠ 1 ∧ s.tb.lastSync = some (9, 4)) ∧
    (let s := { slave with tb.pdelay := [(0, { Pdelay.idle with req := some (5, 3), resp := some (5, 4, 6, 0) })] }
     (pdelayAt s 0).req = some (5, 3) ∧ (pdelayAt s 0).resp = some ((ptpOf 10 false).seq, 4, 6, 0)) ∧
    ptpProfile (seteff slave (.pkg 2) PB2.TIME_CTRL_PROFILE 1) = 1 ∧
    (0 : Int) + (20 - 10) ≤ 0x7FFFFFFFFFFFFFFF := by decide +kernel

theorem test_witness_ptp_relay :
    let s := seteff (seteff (timed 2 1 tb2) (.pkg 2) PB2.TIME_CTRL_TC_EN 1) (.pkg 2) PB2.TIME_CTRL_DOMAIN 9
    let q := { s with ports.portEff := [(0, [(PB4.PORTS_CTRL.off, 1)]), (1, [(PB4.PORTS_CTRL.off, 1)])] }
    let e : Residence := { port := 0, seq := 5, src := 77, domain := 0, resid := none, made := 0 }
    pget q 0 PB4.PORTS_CTRL = 1 ∧ ebit q (.pkg 2) PB2.TIME_CTRL_TC_EN = true ∧ ptpUsed q (ptpOf 0 false) = false ∧
    ptpValid (ptpOf 8 false) = true ∧ q.tb.resid = [] ∧ residFor 0 (ptpOf 8 false) e = true ∧ ptpProfile q ≠ 2 ∧
    q.now < e.made + 1000000000 ∧
    (∀ t ∈ ({ q with tb.reqAt := some 0 } : State).tb.reqAt.toList, q.now < t + reqInterval q) := by decide +kernel

/-- R47: half a second early is half a second ahead: OFFSET holds it in nanoseconds. -/
theorem test_pps_offset :
    (match exec .ppsInEdge (timed 2 1 { tb2 with dev := 2 * oneSec + oneSec / 4 }) with
     | .next u => decide (fget u (.pkg 2) PB2.OFFSET = 250000000 ∧ u.tb.lastPps = some (0, 2)) | _ => false) = true := by
  decide +kernel

/-! ### The stair, ports and the bypass -/

/-- The part with this stair schedule, the stair enabled and the newel source `src`. -/
def stairAt (src : Nat) (x : Stair) : State :=
  { seteff (seteff up (.pkg 3) PB3.STAIR_CTRL_EN 1) (.pkg 3) PB3.STAIR_CTRL_NEWEL_SRC src with stair := x }

/-- The schedule of the part after reset, at this angle. -/
def angled (a : Nat) : Stair := { State.reset.stair with angle := a }

theorem test_witness_encoder :
    (let s := seteff (stairAt 1 (angled 0)) (.pkg 3) PB3.ENC_CPR_CPR 4096
     newelSrc s = 1 ∧ eget s (.pkg 3) PB3.ENC_CPR_CPR = 4096 ∧ s.stair.encBack = 0 ∧ eget s (.pkg 3) PB3.ENC_CPR_DIR = 0 ∧
     (s.stair.encA, s.stair.encB) = (false, false) ∧
     (angleDiff (eget s (.pkg 3) PB3.ENC_Z_ANGLE * 65536) s.stair.encAngle).natAbs * 4096 ≤ 4 * 2 ^ 32) ∧
    (let s := seteff (stairAt 1 { angled 0 with encAngle := 2 ^ 31 }) (.pkg 3) PB3.ENC_CPR_CPR 4096
     newelSrc s = 1 ∧ 4 * 2 ^ 32 < (angleDiff (eget s (.pkg 3) PB3.ENC_Z_ANGLE * 65536) s.stair.encAngle).natAbs * 4096) := by
  decide +kernel

theorem test_witness_source_lost :
    (let s := { stairAt 1 { angled 0 with sampleAt := some 0 } with now := 10 ^ 12 }
     newelSrc s ≠ 2 ∧ 0 + eget s (.pkg 3) PB3.NEWEL_TIMEOUT * 1000 ≤ s.now ∧ holdover s = false) ∧
    (let s := fset (stairAt 1 (angled 0)) (.pkg 3) PB3.STAIR_STATUS_CATCHUP 1
     catchup s = true ∧ (sourceDiff s).natAbs < 16 * 65536) := by decide +kernel

theorem test_witness_triggers :
    (let s := { up with trig := [(7, ⟨some 5, none, 0⟩)], tb.dev := 5 }
     (trigAt s 7).nextTime = some 5 ∧ 5 ≤ s.tb.dev) ∧
    (let s := { stairAt 2 (angled 9) with trig := [(0, ⟨none, some 9, 0⟩)] }
     (trigAt s 0).nextTime = none ∧ (trigAt s 0).nextAngle = some 9 ∧ 9 ≤ s.stair.angle) ∧
    (∀ k ∈ [0, 15, 16],
      let s := { fset up (.pkg 5) (PB5.CAP_CTRL_EDGE 3) 3 with cap := [(3, ⟨List.replicate k (1, true), some 0⟩)], now := 8 }
      bit (fget s (.pkg 5) (PB5.CAP_CTRL_EDGE 3)) 0 = true ∧ bit (fget s (.pkg 5) (PB5.CAP_CTRL_EDGE 3)) 1 = true ∧
      (capAt s 3).last = some 0 ∧ 0 + 8 ≤ s.now ∧ (capAt s 3).fifo.length = k) := by decide +kernel

/-- Frame `no` of one tread shape. -/
def aFrame (no : Nat) : StairFrame := ⟨no, 0, 0, 0, 0, 0, [], false⟩

/-- A tread of frame 4 being closed. -/
def closing (k : Nat) (b : Bool) (m : Option Bool) : Closing := ⟨4, k, 0, b, m⟩

theorem test_witness_treads :
    (∀ a ∈ [99, 100], let s := stairAt 2 { angled a with first := some 100 }
      s.stair.first = some 100 ∧ ebit s (.pkg 3) PB3.STAIR_CTRL_EN = true) ∧
    (∀ a ∈ [0, 2 ^ 40], let s := stairAt 2 { angled a with frame := some (aFrame 4) }
      s.stair.frame = some (aFrame 4) ∧ s.stair.cutAhead = false ∧
      (s.stair.angle < cutAngle (aFrame 4) s.stair.nextCut ↔ a = 0)) ∧
    (let s := stairAt 2 { angled 0 with closing := [closing 0 true none, closing 1 false none], frame := some (aFrame 4) }
     s.stair.closing = [closing 0 true none] ++ closing 1 false none :: [] ∧ barrierClear s (closing 1 false none) = true ∧
     mergesOn 0 (closing 0 true none) = true ∧ outOfService s (.point 0) = false ∧ mergeMay s (closing 0 true none) = true ∧
     eventMay s (closing 0 true none) = false) ∧
    (let s := stairAt 2 { angled 0 with closing := [closing 0 true (some true)], frame := some (aFrame 4) }
     eventMay s (closing 0 true (some true)) = true ∧ mergesOn 0 (closing 0 true (some true)) = false) ∧
    (let h : Hall := { hallAt up 0 with emptying := some 4, carries := [(4, 0)] }
     let s := setHall up 0 h
     (hallAt s 0).emptying = some 4 ∧ pinnedJob s 4 = false ∧ (hallAt s 0).carries = (4, 0) :: [] ∧
     mergeMay s (closing 0 true none) = false) := by decide +kernel

/-- A candidate of a tread. -/
def aCell (k : Nat) : Cell := ⟨0, 0, 0, 0, 0, 0, 1, 0, 0, 0, 1, 0, k, 0⟩

/-- R73: a pending point holds a barrier. -/
theorem test_barrier_waits :
    barrierClear (setHall up 0 { hallAt up 0 with queue := [(4, aCell 1)] }) (closing 1 false none) = false := by decide +kernel

/-- A frame to another station, with `n` bytes before its check sequence. -/
def ethTo (first n : Nat) (good : Bool) : EthFrame :=
  ⟨BitVec.ofNat 8 first :: List.replicate (n - 1) 9, good, false, false, 0, 0⟩

/-- The part with its links up and the bypass open. -/
def linked : State :=
  [0, 1, 2, 3].foldl (fun s n => fset s (.pkg 4) (PB4.PORT_STATUS_LINK n) 1) 
    (fset (fset up (.pkg 5) PB5.BYP_STATUS_CLOSED 0) (.pkg 5) PB5.BYP_CTRL_FORCE_CLOSE 0)

theorem test_witness_frames :
    let bytes := fun (f : EthFrame) => f.bytes.map BitVec.toNat
    (∀ n ∈ [0, 3], portReceives linked n = true ∧ portReceives (fset linked (.pkg 4) (PB4.PORT_STATUS_LINK n) 0) n = false) ∧
    (ethTo 2 59 true).bytes.length + 4 < 64 ∧ 64 ≤ (ethTo 2 60 true).bytes.length + 4 ∧
    relays linked 3 (bytes (ethTo 2 60 true)) = false ∧ relays linked 0 (bytes (ethTo 2 60 true)) = true ∧
    pget linked 3 (PB4.PORT_CTRL_MAX_FRAME 3) < (ethTo 2 20000 true).bytes.length + 4 ∧
    isLinkLocal (bytes (ethTo 2 60 true)) = false ∧ fbe (bytes (ethTo 2 60 true)) 0 6 ≠ portMac linked 3 ∧
    bit (fb (bytes (ethTo 2 60 true)) 0) 0 = false ∧ ptpOffset (bytes (ethTo 2 60 true)) = none ∧ 64 ≤ ringMax linked ∧
    ¬ (pget linked 3 (PB4.PORT_CTRL_MAX_FRAME 3) < 64) ∧ linked.ports.begun = [] := by decide +kernel

theorem test_witness_relay_and_bypass :
    (let s := { linked with ports.relay := [(1, [⟨[1, 2], 0, false⟩])] }
     bypassClosed s = false ∧ SMap.find s.ports.begun 1 = none ∧ SMap.find s.ports.relay 1 = some (⟨[1, 2], 0, false⟩ :: []) ∧
     ptpOffset [1, 2] = none) ∧
    linked.byp.failover.contains 3 = false ∧ fbit linked (.pkg 4) (PB4.PORT_STATUS_LINK 3) = true ∧ portMode linked 3 ≠ 0 ∧
    (let s := fset linked (.pkg 5) PB5.BYP_STATUS_CLOSED 1
     bypassClosed s = true ∧ bypassCauses { s with byp.pin := false } = 0 ∧ s.byp.holdoff = none ∧
     fget s (.pkg 5) PB5.BYP_CTRL_HOLDOFF_MS ≠ 0 ∧ bypassCauses { s with byp.holdoff := some 0 } = 0) ∧
    (let s := { up with tb.dev := oneSec, ports.rises := [(0x110, 3)] }
     devSec s.tb.dev ≠ s.ports.second ∧ s.hist.queue.length + s.ports.rises.length ≤ 64) := by decide +kernel

/-- R100: a short frame counts as a runt and nowhere else. -/
theorem test_runt :
    (match exec (.ethernetFrameReceive 3 (ethTo 2 59 true)) linked with
     | .next u => decide (fget u (.pkg 4) (PB4.RX_RUNT 3) = 1 ∧ fget u (.pkg 4) (PB4.RX_GOOD 3) = 0) | _ => false) = true := by
  decide +kernel

/-! ### Point Fronts, Halls and engines -/

/-- The state after a command, or the state itself where it does not complete. -/
def after (c : Instr) (s : State) : State := match exec c s with | .next u => u | _ => s

/-- A Hall with frame 4 open and these points at its probe input. -/
def probing (h : Hall) : State := setHall up 0 { h with queue := [(4, aCell 1)], slots := [(0, aSlot 4)] }

theorem test_witness_probe :
    (let s := setHall up 0 { hallAt up 0 with queue := [(4, aCell 1)] }
     (hallAt s 0).queue = (4, aCell 1) :: [] ∧ slotFor s 0 4 = none) ∧
    (let s := setHall up 0 { hallAt up 0 with queue := [(4, aCell 1)], slots := [(0, { aSlot 4 with stopped := true })] }
     hallStopped s 0 = true ∧ (slotFor s 0 4).isSome = true) ∧
    (let s := probing { hallAt up 0 with emptying := some 2 }
     hallStopped s 0 = false ∧ (hallAt s 0).emptying = some 2 ∧ 2 % 2 = 4 % 2 ∧ (hallAt s 0).alcove.length < 65536) ∧
    (let s := probing { hallAt up 0 with emptying := some 3 }
     hallStopped s 0 = false ∧ 3 % 2 ≠ 4 % 2 ∧ slotFor s 0 4 = some (aSlot 4) ∧ indexFind s 0 (aSlot 4) (aCell 1).key = none ∧
     (indexFree s 0 (aSlot 4) (aCell 1).key).isSome = true) ∧
    (let u := after (.pointProbe 0) (probing (hallAt up 0))
     (slotFor u 0 4).map (fun x => indexFind u 0 x (aCell 1).key) = some (some 0)) ∧
    (let e := fun i => (hallHash 0 4 (aCell 1).key).1 + i
     let full := (List.range 64).foldl (fun m i => SMap.put m (e i % indexSize) (BitVec.ofNat 32 (2 ^ 22 * 1023))) []
     let s := probing { hallAt up 0 with index := full }
     indexFind s 0 (aSlot 4) (aCell 1).key = none ∧ indexFree s 0 (aSlot 4) (aCell 1).key = none) := by decide +kernel

/-- A full alcove. -/
theorem test_witness_alcove_full :
    (hallAt (setHall up 0 { hallAt up 0 with alcove := List.replicate 65536 (4, aCell 1) }) 0).alcove.length = 65536 := by
  rw [hallAt_setHall_self]
  exact List.length_replicate

theorem test_witness_ring_writes :
    acceptedB up rqHost (pageBase (.die 0 1) + 0x5C) false true (.die 0 1) = true ∧
    acceptedB up rqHost (pageBase (.die 1 1) + 0x5C) false true (.die 1 1) = true ∧
    acceptedB up rqHost 0x7F7054 false true (.pkg 7) = true ∧
    acceptedB up rqHost (pageBase (.die 0 1) + 0x70) false true (.die 0 1) = true ∧
    pageStubbed up (.die 0 1) = false := by decide +kernel

/-- An ego-motion ring of two entries at DRAM byte 0x4000 of die 0, with one written. -/
def egoRing (bs : List Nat) : State :=
  fset (seteff (seteff (wrBytes up (dramBase 0 + 0x4000) bs) (.die 0 1) DB1.EGO_BASE_LO 0x4000) (.die 0 1) DB1.EGO_SIZE 2)
    (.die 0 1) DB1.EGO_WR 1

theorem test_witness_ego :
    (let s := egoRing (fields 48 [(4, 4, 5), (0xA, 2, 1)])
     outOfService s (.point 0) = false ∧ eget s (.die 0 1) DB1.EGO_SIZE = 2 ∧ (frontAt s 0).egoRd % 2 ≠ fget s (.die 0 1) DB1.EGO_WR % 2 ∧
     frontRead s 0x4000 48 = (some (fields 48 [(4, 4, 5), (0xA, 2, 1)]), s) ∧ (frontAt s 0).ego = [] ∧
     (egoSample (fields 48 [(4, 4, 5), (0xA, 2, 1)])).1 = true) ∧
    (egoSample (fields 48 [])).1 = false ∧ frontRead (egoRing []) 0x4000 48 = (some (fields 48 []), egoRing []) ∧
    frontRead (egoRing []) (2 ^ 40) 48 = (none, egoRing []) ∧
    (let s := fset (egoRing []) (.die 0 1) DB1.EGO_WR 2
     (frontAt s 0).egoRd % 2 = fget s (.die 0 1) DB1.EGO_WR % 2) := by decide +kernel

/-- A replay ring of 0x1000 bytes at DRAM byte 0x8000 of die 0 whose first entry is this. -/
def replaying (head : List Nat) : State :=
  fset (seteff (seteff (seteff (wrBytes up (dramBase 0 + 0x8000) head) (.die 0 1) DB1.REPLAY_BASE_LO 0x8000)
    (.die 0 1) DB1.REPLAY_SIZE 0x1000) (.die 0 1) DB1.PF_CTRL_REPLAY_EN 1) (.die 0 1) DB1.REPLAY_WR 128

theorem test_witness_replay :
    -- an entry to use, one for another die, one not VALID, one that does not fit, and one that is not due
    (∀ c ∈ [((1 : Nat), (1 : Nat), (60 : Nat), (0 : Nat)), (3, 1, 60, 0), (1, 0, 60, 0), (1, 1, 59, 0), (1, 1, 60, 9)],
      let h := fields 16 [(4, 4, c.2.2.2), (0xA, 2, c.2.2.1), (0xC, 1, c.1), (0xD, 1, c.2.1)]
      let s := replaying h
      outOfService s (.point 0) = false ∧ quiescing s (.die 0 1) = false ∧ ebit s (.die 0 1) DB1.PF_CTRL_REPLAY_EN = true ∧
      fget s (.die 0 1) DB1.REPLAY_RD ≠ fget s (.die 0 1) DB1.REPLAY_WR ∧ frontRead s 0x8000 16 = (some h, s) ∧
      bit (leNat ((h.drop 0xD).take 1)) 0 = decide (c.2.1 = 1) ∧ leNat ((h.drop 0xA).take 2) = c.2.2.1 ∧
      (c.2.2.2 = 0 ↔ leNat ((h.drop 4).take 4) * 1000000000 ≤ devNsCount s)) ∧
    (let h := fields 16 [(0xA, 2, 60), (0xC, 1, 1), (0xD, 1, 1)]
     let s := replaying h
     0 + (16 + 60 + 63) / 64 * 64 ≤ eget s (.die 0 1) DB1.REPLAY_SIZE ∧
     (∃ bs, frontBlocks s 0x8000 2 = (some bs, s)) ∧ (ptpOffset (List.replicate 60 0)).isSome = false) := by
  refine ⟨by decide +kernel, by decide +kernel, ⟨fields 16 [(0xA, 2, 60), (0xC, 1, 1), (0xD, 1, 1)] ++ List.replicate 112 0, ?_⟩, ?_⟩ <;>
    decide +kernel

/-- A rulebook of kind 0 of frame 4 with segment 0 to build. -/
def aRb : Rb := ⟨4, 1, 0, 0, 0, 1, 0, 0, 0, 16, 0, [0, 0], 0x2000, [], [0], [], 0, [0, 0], []⟩

theorem test_witness_segments :
    (SMap.getD up.bld.ready 0 [] = [] ∧ outOfService up (.point 0) = false) ∧
    (let s := setSlot (setSlot { up with bld := { up.bld with ready := [(0, [(4, (1, 0))])], rbs := [aRb] } } 0 (aSlot 4)) 1 (aSlot 4)
     SMap.getD s.bld.ready 0 [] = (4, (1, 0)) :: [] ∧ rbOf s 4 1 = some aRb ∧ (frameSlot s 0 4).isSome = true ∧
     0x1100 ≤ aRb.size) := by decide +kernel

/-- NBR_QUERY for no position, accepted. -/
theorem test_witness_nbr_run :
    let t := aTi 0xC9 .running (fields 64 [(0, 1, 1), (4, 4, 4), (9, 1, 1), (0xB, 1, 2), (0x14, 1, 1), (0x20, 8, 2 ^ 44)])
    let t := { t with w3 := 0xFFFFFFFF }
    let q : NbrReq := ⟨0, 0, 1⟩
    let s := { setSlot (setSlot (withTis [] t) 0 (aSlot 4)) 1 (aSlot 4) with nbr := [q] }
    s.nbr.find? (fun q => q.die = 0 && nbrReady s q) = some q ∧ tiAt s 0 1 = some t ∧ slotFor s 0 (t.d 4 4) = some (aSlot 4) ∧
    queriesOf { s with nbr := s.nbr.filter (fun e => e ≠ q) } t 0 (aSlot 4) t.prog = [] ∧ t.out = [] := by decide +kernel

/-- A line fetch of table 1 that has returned, to be cached. -/
def aMiss (cached : Bool) (joins : List Join) : Miss := ⟨1, 0x40, 0, cached, 0, joins, some (0, List.replicate 64 3)⟩

/-- The part with that fetch and this cache. -/
def missing (m : Miss) (cache : List (Nat × RcLine)) : State :=
  fset (setEmb up 0 { embAt up 0 with misses := [m], cache := cache }) (embPage 0) CB2.RC_CTRL_EN 1

theorem test_witness_misses :
    outOfService up (.cluster 0 0) = false ∧ (embAt up 0).misses = [] ∧
    (∀ c ∈ [true, false], let s := missing (aMiss c []) []
      (embAt s 0).misses.find? (fun m => m.back.isSome || !lineFar s m.addr) = some (aMiss c []) ∧
      fbit s (embPage 0) CB2.RC_CTRL_EN = true ∧ rcFind (embAt s 0) 1 0x40 = none ∧ SMap.find (embAt s 0).cache (16 * rcSet 1 0x40) = none) ∧
    (let cache := (List.range 16).map (fun w => (16 * rcSet 1 0x40 + w, (⟨2, 64 * w, 9, []⟩ : RcLine)))
     let s := fset (missing (aMiss true []) cache) (embPage 0) CB2.RC_CTRL_ADMIT_EN 1
     rcFind (embAt s 0) 1 0x40 = none ∧ fbit s (embPage 0) CB2.RC_CTRL_ADMIT_EN = true ∧
     (∀ w ∈ List.range 16, (SMap.find (embAt s 0).cache (16 * rcSet 1 0x40 + w)).map RcLine.use = some 9) ∧
     rcEstimate (embAt s 0) 1 0x40 ≤ 9) ∧
    (let t := { aTi 0xCB .running (fields 64 []) with prog := [2, 2, 0, 0, 0, 0, 0, 1] }
     let j : Join := ⟨0, 1, spmAt⟩
     let s := setEmb (withTis [] t) 0 { embAt up 0 with misses := [aMiss false [j]] }
     tiAt s 0 1 = some t ∧ 2 ≤ (GatherProg.of t).und ∧ (GatherProg.of t).down = [] ∧
     reachesB s (whoOf 0 t).rq 0 spmAt 64 false true = true ∧ placeAt (locate s spmAt 64) = some (spmBase 0 + 0x2000)) := by
  decide +kernel

/-! ### Upkeep -/

/-- `Unarmed`, computed. -/
def unarmedB (s : State) (p : Page) (ds : List Nat) : Bool := ds.all (fun d => decide (takeCorrupt s p d = (false, s)))

/-- A mark on the word at byte 0x40 of bank 0's first line of core 39: 1 correctable, 2 uncorrectable, 9 to be written back. -/
def marked (m : Nat) : State := { up with ecc := [(spmBase 39 + 0x40, m)] }

theorem test_witness_scrub :
    (∀ m ∈ [1, 2, 9], scrubs (marked m) 39 = true ∧ unarmedB (marked m) (.core 39 8) [0x03] = true ∧
      SMap.canon 0 (marked m).ecc = true ∧ bit (SMap.getD (marked m).ecc (spmBase 39 + 0x40) 0) 3 = decide (m = 9) ∧
      (scrubAt (marked m) 39 0).1 % 3072 * 16 + 0 = 0) ∧
    (let s := fset up (.core 0 8) KB8.SPM_STATUS_CLEARING 1
     scrubs s 0 = false ∧ fbit s (.core 0 8) KB8.SPM_STATUS_CLEARING = true ∧ inReset s (.core 0) = false) ∧
    (let s := fset { up with now := 4096000 } (.die 0 10) (DB10.VF_POINT_MHZ 0) 1000
     scrubs s 0 = true ∧ 2048 ≤ aclkCycles s 0 (s.now - (scrubAt s 0 0).2)) := by decide +kernel

theorem test_witness_patrol : ∀ m ∈ [0, 1, 2],
    let p := Page.die 0 5
    let s := { fset up p DB5.DRAM_CTRL 1 with ecc := if m = 0 then [] else [(dramBase 0 + patrolAddr 15 0, m)] }
    fbit s p DB5.DRAM_CTRL = true ∧ inReset s (.die 0) = false ∧ fbit s p DB5.DRAM_STATUS_SELF_REFRESH = false ∧
    patrolAt s 0 15 % 2 ^ 25 = 0 ∧
    bit (fget s p DB5.DRAM_STATUS_FAILED) (dramPhysical s 0 15) = false ∧ unarmedB s p [0x22] = true ∧
    SMap.getD s.ecc (dramBase 0 + patrolAddr 15 0) 0 % 4 = m := by decide +kernel

theorem test_witness_spares :
    let p := Page.die 0 5
    (acceptedB up rqCC (pageBase p + 0x4C) false true p = true ∧ fget up p DB5.DRAM_STATUS_SPARED_CH = 0x1F ∧
     fbit up p DB5.DRAM_STATUS_SPARING = false) ∧
    (let s := fset up p DB5.DRAM_STATUS_SPARING 1
     acceptedB s rqCC (pageBase p + 0x4C) false true p = true ∧ fbit s p DB5.DRAM_STATUS_SPARING = true ∧
     fget s p DB5.DRAM_STATUS_SPARED_CH = 0x1F ∧ inReset s (.die 0) = false) ∧
    (∀ k ∈ [2, 3], let s := fset (fset up p DB5.DRAM_STATUS_SPARED_CH 4) p (DB5.CH_PERSIST 16) k
     acceptedB s rqCC (pageBase p + 0x4C) false true p = true ∧ ccRunning s 0 = true ∧
     fget s p DB5.DRAM_STATUS_SPARED_CH = 4 ∧ bit (fget s p DB5.DRAM_STATUS_FAILED) 16 = false ∧
     fget s p (DB5.CH_PERSIST 16) = k) ∧
    (let s := { setPhase up 3 with boot.starting := true }
     s.boot.starting = true ∧ bootPhase s = 3) ∧ (bootPhase up ≠ 3) ∧
    85 < (86 : BitVec 8).toInt ∧ ¬ 85 < (85 : BitVec 8).toInt := by decide +kernel

theorem test_witness_hops :
    (∀ h ∈ [Hop.port 0, .fabric 0 3, .channel 1 16, .corridor 0 31],
      pageStubbed up (hopPage h).1 = false ∧ unarmedB up (hopPage h).1 [(hopPage h).2.1, (hopPage h).2.2.1] = true) ∧
    (let s := holds { Ctx.idle with st := .ready }
     (cref s t0).st ≠ .free ∧ (cref s t0).st ≠ .faulted ∧ (cref s t0).loads = []) ∧
    (let s := withTis [] (aTi 0xC1 .running moveDesc)
     s.err.inj = false ∧ (tiAt s 0 1).map Ti.phase = some .running) ∧
    (∀ k ∈ [2, 3], let s := { up with err.laneFails := [(63 * 64 + 5, k)] }
      ccRunning s 0 = true ∧ bit (fget s (.die 0 6) DB6.CORR_SPARED_HI) 31 = false ∧ (63 * 64 + 5) / 64 = 63) := by decide +kernel

/-- R449: a correctable word counts once and is marked for its write-back. -/
theorem test_scrub_counts :
    let u := after (.scrubRead 39 0) (marked 1)
    fget u (.core 39 8) KB8.SCRUB_CORR = 1 ∧ fget u (.core 39 8) KB8.SCRUB_UNCORR = 0 ∧
    bit (SMap.getD u.ecc (spmBase 39 + 0x40) 0) 3 = true := by decide +kernel

/-! ### The Gallery -/

/-- The part with a port in this state. -/
def porting (p st : Nat) (g : GPort) : State :=
  setGport (fset (seteff up (.pkg 8) PB8.GAL_TOPO_XM1 3) (.pkg 8) (PB8.GP_STATUS_STATE p) st) p g

theorem test_witness_training :
    (∀ st ∈ [1, 2, 3, 4, 5, 6], ∀ p ∈ [0, 5], gstate (porting p st GPort.idle) p = st) ∧
    (porting 0 1 GPort.idle).now < (gportAt (porting 0 1 GPort.idle) 0).since + 10000000 ∧
    0 + 10000000 ≤ ({ porting 0 1 GPort.idle with now := 10000000 } : State).now ∧
    (bitList 5 (0b10111 : BitVec 5).toNat).length = 4 ∧ (bitList 5 (0b10101 : BitVec 5).toNat).length < 4 ∧
    (let s := porting 0 4 GPort.idle
     galSize s 0 = 4 ∧ galSize s 1 = 1 ∧ galSize s 2 = 1 ∧ galNeighbour s 0 = 1 ∧ Nat.xor 0 1 = 1) ∧
    (let s := { porting 5 6 GPort.idle with now := 10 ^ 12 }
     (gportAt s 5).since + eget s (.pkg 8) PB8.GAL_RETRAIN_MS * 1000000 ≤ s.now ∧ (gportAt s 5).txQ = [] ∧
     (gportAt s 5).retry = []) ∧
    (let r := [((3 : Nat), List.replicate 224 0 ++ [1, 0] ++ List.replicate 10 0)]
     retryPackets r = 1 ∧ (gportAt (porting 5 6 { GPort.idle with retry := r }) 5).txQ = []) := by decide +kernel

/-- A packet of one slot on channel 1 from node 1 to node 0. -/
def aPkt : Pkt := ⟨0x01, 1, none, 0, 0, 1, 0, 0, 0, 0x2000, 0, 0, []⟩

theorem test_witness_transmits :
    gstate (porting 0 5 GPort.idle) 0 = 5 ∧
    (gportAt (porting 0 5 { GPort.idle with replay := [(4095, [1])] }) 0).replay = (4095, [1]) :: [] ∧
    (let g := gportAt (porting 0 5 { GPort.idle with txQ := [aPkt] }) 0
     g.replay = [] ∧ g.retry.length < 128 ∧ g.txQ.any (fun k => decide (k.len + 1 ≤ g.credits.getD k.vc 0)) = true) ∧
    (let g := gportAt (porting 0 5 { GPort.idle with txQ := [aPkt], credits := [1, 0, 1, 1] }) 0
     g.cur = [] ∧ g.txQ.any (fun k => decide (k.len + 1 ≤ g.credits.getD k.vc 0)) = false) ∧
    128 ≤ (gportAt (porting 0 5 { GPort.idle with retry := List.replicate 128 (0, []) }) 0).retry.length := by decide +kernel

/-- A flit of these header fields and slots, with its check. -/
def flitBytes (kind seq used : Nat) : List Nat :=
  let b := fields 252 [(0, 1, kind), (2, 2, seq), (4, 2, 4095), (0xF0, 2, if used = 0 then 0 else 1), (0xF2, 1, used)]
  b ++ toLe 4 (flitCrc b)

theorem test_witness_receives :
    (∀ c ∈ [((0 : Nat), (0 : Nat), (0 : Nat)), (1, 0, 1), (1, 7, 1), (1, 0, 15), (2, 0, 0)],
      let f := flitBytes c.1 c.2.1 c.2.2
      f.length = 256 ∧ flitCrc (f.take 252) = leNat (f.drop 252) ∧ leNat ((f.drop 2).take 2) = c.2.1 ∧
      (GPort.idle.rxSeq + 1) % 4096 = 0 ∧
      flitBreaks GPort.idle f = decide (c.1 = 2 ∨ c.2.2 = 15)) ∧
    (let f := (flitBytes 1 0 1).set 0 0
     f.length = 256 ∧ flitCrc (f.take 252) ≠ leNat (f.drop 252)) ∧
    (∀ n ∈ [1999, 2000], let s := { porting 0 5 { GPort.idle with nakAt := some 0 } with now := n }
      (gportAt s 0).nakAt = some 0 ∧ (s.now < 0 + 2000 ↔ n = 1999)) := by decide +kernel

/-- R484: the check of the digits 1 to 9 is the published check value of its polynomial. -/
theorem test_flit_crc : flitCrc [0x31, 0x32, 0x33, 0x34, 0x35, 0x36, 0x37, 0x38, 0x39] = 0xE3069283 := by decide +kernel

/-! ### Gallery packets -/

/-- The part as node 0 of four in a row, its port to node 1 ACTIVE, with this packet delivered. -/
def served (k : Pkt) : State :=
  let s := porting 0 5 GPort.idle
  { s with gal.local_ := [k] }

/-- The way to node 1 (and to node 2) leaves by port 0. -/
theorem test_witness_way : ∀ n ∈ [1, 2],
    n < galNodes (served aPkt) ∧ linkUp (served aPkt) 0 = true ∧
    [0, 1, 2].find? (fun d => galCoord (served aPkt) (ownNode (served aPkt)) d ≠ galCoord (served aPkt) n d) = some 0 ∧
    shorter (served aPkt) (ownNode (served aPkt)) n 0 = 0 := by decide +kernel

/-- A request of node 1 for byte `a` of this node. -/
def asks (opc kind a arg : Nat) (data : List Nat) : Pkt :=
  ⟨opc, 1, none, kind, 0, 1, 0, 9, 0, a, (data.length + 15) / 16, arg, data⟩

theorem test_witness_served :
    (∀ a ∈ [0x3000, spmAt], let k := asks 0x01 0 a 255 []; let s := served k
      nextLocal s 0x01 = some k ∧ servedAt s k = a ∧ reachesB s (requesterOf k) 40 a 256 true false = true ∧
      cleanB s 256 (locate s a 256) = true ∧ (placeAt (locate s a 256)).isSome = true) ∧
    (∀ a ∈ [0x3000, spmAt], let k := asks 0x02 0 a 15 (List.replicate 16 7); let s := served k
      nextLocal s 0x02 = some k ∧ (k.bytes 16).length = 16 ∧ reachesB s (requesterOf k) 40 a 16 false true = true) ∧
    (let k := asks 0x03 0 (spmAt + 63 * 2 ^ 38) 15 (List.replicate 16 7); let s := served k
     nextLocal s 0x03 = some k ∧ bits (servedAt s k) 44 4 = 1 ∧ locate s (uncounted (servedAt s k)) 16 = .spm 0 0x2000 ∧
     locate s (uncounted (servedAt s k)) 1 = .spm 0 0x2000 ∧ (k.bytes 16).length = 16 ∧
     reachesB s (requesterOf k) 40 (uncounted (servedAt s k)) 16 false true = true) ∧
    (∀ a ∈ [spmAt, spmAt + 4], let k := asks 0x04 0 a 0x10 (List.replicate 16 1); let s := served k
      nextLocal s 0x04 = some k ∧ bit k.arg 4 = true ∧ (a % 8 = 0 ↔ a = spmAt) ∧
      (a % 8 = 0 → reachesB s (requesterOf k) 40 a 8 true true = true ∧ cleanB s 8 (locate s a 8) = true)) ∧
    (∀ c ∈ [0, 31], let k := asks 0x05 0 (2 ^ 44 + c * 2 ^ 23) 0 (List.replicate 16 1); let s := served k
      nextLocal s 0x05 = some k ∧ bits k.addr 44 4 = 1 ∧ inboundOk s (requesterOf k) = true ∧
      ((coreInService s (bits k.addr 23 5)).isSome = true)) ∧
    (let s := setBlock up (.core 0) { blockState up (.core 0) with inReset := true }
     coreInService s 0 = none) := by decide +kernel

theorem test_witness_messages :
    (∀ kind ∈ [0, 2], let k := asks 0x06 kind 0 0 (List.replicate 64 1)
      nextLocal (served k) 0x06 = some k ∧ (served k).gal.msgs.length < 64) ∧
    64 ≤ ({ served aPkt with gal.msgs := List.replicate 64 (1, []) } : State).gal.msgs.length ∧
    (let k := asks 0x07 2 (0x8000000) 5 (List.replicate 16 1)
     let s := seteff (seteff (seteff (served k) (.pkg 8) PB8.GAL_CTRL_RRESET_EN 1) (.pkg 8) PB8.RRESET_SRC_MIN 0) (.pkg 8)
       PB8.RRESET_SRC_MAX 1023
     nextLocal s 0x07 = some k ∧ ebit s (.pkg 8) PB8.GAL_CTRL_RRESET_EN = true ∧ reachCode s 8 ≤ 5 ∧
     (swTarget 5 (bits k.addr 16 8)).isSome = true ∧ ebit (served k) (.pkg 8) PB8.GAL_CTRL_RRESET_EN = false) := by decide +kernel

/-- A contribution of node 1 to slot 0 of a table whose pending area lies at DRAM byte 0x10000. -/
def contribution : Pkt := asks 0x08 1 0 1 (fields 32 [(0, 6, 0x10000), (6, 1, 1), (0xC, 4, 16)])

/-- A pending entry of that table. -/
def pending (i : Nat) (slot : Nat) : PendEntry := ⟨i, ⟨1, 0, slot, 0, 1, 0, 0x10000, 16, 0, [0, 0, 0, 0]⟩⟩

theorem test_witness_contributions :
    (let s := served contribution
     nextLocal s 0x08 = some contribution ∧ outOfService s (.cluster 0 0) = false ∧ pendEntries s = []) ∧
    (∀ i ∈ List.range 16, reachesB (served contribution) (requesterOf contribution) 40 (0x10000 + 256 * i) 256 false true = true ∧
      (placeAt (locate (served contribution) (0x10000 + 256 * i) 256)).isSome = true) ∧
    (let s := setEmb (served contribution) 0 { embAt up 0 with pend := [pending 3 0] }
     (pendEntries s).map (fun e => (e.1, e.2.line.same (pending 3 0).line, e.2.line.pendBase)) = [(0, true, 0x10000)]) ∧
    (let s := setEmb (served contribution) 0 { embAt up 0 with pend := (List.range 16).map (fun i => pending i 8) }
     (∀ e ∈ pendEntries s, e.2.line.same (pending 3 0).line = false) ∧
     (pendEntries s).map (fun e => e.2.place) = List.range 16) := by decide +kernel

/-- Every place of the window of R356 lies in the area. -/
theorem test_witness_place (j : Nat) : (Config.pendHash 0 0 + j) % 16 < 16 := Nat.mod_lt _ (by decide)

theorem test_witness_routes :
    (∀ k ∈ [aPkt, { aPkt with dst := 2 }, { aPkt with opc := 0x02, len := 31 }],
      let s := porting 0 5 GPort.idle
      let s := setGport s 5 { GPort.idle with rxQ := [k] }
      (gportAt s 5).rxQ = k :: [] ∧ ownNode s = 0 ∧ k.rsp = false ∧ k.bad = decide (k.opc = 0x02) ∧ 0 / 2 ≠ 5 / 2) ∧
    (∀ opc ∈ [0x10, 0x11], let k := asks opc 0 0 0 []
      nextLocal (served k) opc = some k ∧ SMap.find (served k).gal.tags k.tag = none) ∧
    (let k := asks 0x10 0 0 0 []
     let s := { served k with gal := { (served k).gal with tags := [(9, ⟨.store 0 0 0x1000, 0, 0, 4⟩)] } }
     (SMap.find s.gal.tags k.tag).map GTag.owner = some (.store 0 0 0x1000) ∧ outOfService s (.core 0) = false ∧ k.status = 0) ∧
    (let k := asks 0x11 0 0 3 (List.replicate 16 1)
     let s := { setCtx (served k) 0 0 { Ctx.idle with st := .ready, loads := [{ aLoad with tag := some 9 }] } with
       gal := { (served k).gal with tags := [(9, ⟨.load 0 0, 0, 0, 4⟩)] } }
     (SMap.find s.gal.tags k.tag).map GTag.owner = some (.load 0 0) ∧
     (ctxAt s 0 0).loads.map Load.tag = [some k.tag] ∧ k.status = 0) ∧
    (∀ n ∈ [0, 10 ^ 12],
      let s := { holds { Ctx.idle with st := .ready, stores := 1 } with now := n, gal.tags := [(4095, ⟨.store 0 0 0x1000, 0, 0, 4⟩)] }
      (s.now < 0 + eget s (.pkg 8) PB8.GAL_TIMEOUT * 1000 ↔ n = 0) ∧ (ctxAt s 0 0).st = .ready) ∧
    acceptedB up rqHost 0x7F808C false true (.pkg 8) = true := by decide +kernel

/-! ### Energy, supplies and age -/

/-- The part with a cap of 1 W, one sample of `uw`, and these steps taken. -/
def throttling (uw : Nat) (f : Ledger → Ledger) : State :=
  let s := seteff (seteff (seteff up (.pkg 6) PB6.POWER_CAP 16) (.pkg 6) PB6.THROTTLE_CFG_HYST 16) (.pkg 6)
    PB6.THROTTLE_CFG_STRETCH_HOLD_US 1
  { s with now := 10 ^ 9, led := f { s.led with samples := [uw] } }

theorem test_witness_throttle :
    let held := throttling 2000000 (fun l => { l with s8since := some 0 })
    let lim := fun (s : State) => seteff (seteff s (.die 0 10) DB10.VF_LIMIT 3) (.die 1 10) DB10.VF_LIMIT 3
    let full := seteff (seteff held (.die 0 10) DB10.VF_LIMIT 0) (.die 1 10) DB10.VF_LIMIT 0
    ccRunning held 0 = true ∧ ccRunning held 1 = true ∧ capUw held < pAvg held ∧
    held.led.s8since = some 0 ∧ 0 + eget held (.pkg 6) PB6.THROTTLE_CFG_STRETCH_HOLD_US * 1000 ≤ held.now ∧
    (throttling 2000000 id).led.s8since = none ∧
    clkPoint (lim held) 0 < eget (lim held) (.die 0 10) DB10.VF_LIMIT ∧
    clkPoint (lim held) 1 < eget (lim held) (.die 1 10) DB10.VF_LIMIT ∧ held.led.steps = [] ∧
    ¬ clkPoint full 0 < eget full (.die 0 10) DB10.VF_LIMIT ∧ held.led.hold3 = false ∧ held.led.hold2 = false ∧
    (let s := throttling 0 id
     pAvg s * 256 < capLow256 s ∧ thermWarn s = false ∧ stretchLevel s = 0 ∧
     0 < clkPoint (fset (fset s (.die 0 10) DB10.ACLK_STATE_POINT 1) (.die 1 10) DB10.ACLK_STATE_POINT 1) 1) ∧
    -- a period that is due, and one that is not
    (let s := seteff up (.pkg 6) PB6.LED_CTRL_PERIOD_SRC 1
     periodByLanding s = false ∧
     s.led.periodFrom + eget s (.pkg 6) PB6.PERIOD_US * 1000 * 2 ^ 32 ≤ ({ s with tb.dev := 2 ^ 90 } : State).tb.dev ∧
     s.tb.dev < s.led.periodFrom + eget s (.pkg 6) PB6.PERIOD_US * 1000 * 2 ^ 32) := by decide +kernel

theorem test_witness_frequency :
    (∀ n ∈ [49999, 50000], let s := { up with led.steps := [(1, (2, .lock 0))], now := n }
      SMap.find s.led.steps 1 = some (2, .lock 0) ∧ (s.now < 0 + 50000 ↔ n = 49999)) ∧
    (let s := { up with led.steps := [(0, (2, .hold))] }
     SMap.find s.led.steps 0 = some (2, .hold) ∧ dieIdle s 0 = true ∧ clkPoint s 0 < 2) ∧
    (let f : Flight := ⟨1, 0, 0, 0, 1, 9, 0, 1, false, false, [], none, false, none, 1, 0, [], [], [], none, 0⟩
     dieIdle (setGrp up 0 { Group.idle with flight := [f] }) 0 = false) ∧
    fbit (fset up (.die 0 10) DB10.AVS_STATUS_AVS_BUSY 1) (.die 0 10) DB10.AVS_STATUS_AVS_BUSY = true := by decide +kernel

theorem test_witness_supply :
    (supplyHeld up = false ∧ up.sup.stopped = false) ∧
    (let s := { up with sup := ⟨true, some 0, true, false, none⟩ }
     s.sup.step1 = some 0 ∧ s.sup.due = true ∧ s.now < 0 + eget s (.pkg 6) PB6.SUPPLY_CFG_HOLD_DEADLINE_US * 1000 ∧
     0 + eget s (.pkg 6) PB6.SUPPLY_CFG_HOLD_DEADLINE_US * 1000 ≤ ({ s with now := 10 ^ 12 } : State).now) ∧
    (let s := { up with sup := ⟨true, some 0, false, true, none⟩ }
     s.sup.stopped = true ∧ supplyHeld s = false ∧ dieIdle s 0 = true ∧ dieIdle s 1 = true) ∧
    supplyHeld (fset up (.pkg 6) PB6.LED_STATUS_SUPPLY_HOLD 1) = true ∧
    (let s := { up with sup := ⟨false, some 0, false, false, some 0⟩ }
     s.sup.risen = some 0 ∧ s.sup.pinLow = false ∧ s.sup.step1.isSome = true ∧
     s.now < 0 + eget s (.pkg 6) PB6.SUPPLY_CFG_RELEASE_MS * 1000000) := by decide +kernel

theorem test_witness_temperature :
    ((129 : Int) < fget up (.pkg 12) PB12.THERM_CFG_TRIP_C ∧ fget up (.pkg 12) PB12.THERM_CFG_TRIP_C ≤ (130 : Int)) ∧ up.mon.tripped = false ∧ reachCode up 8 ≤ 5 ∧
    (∀ n ∈ [999999999, 1000000000], let s := { up with mon.tripped := true, mon.coolSince := some 0, now := n }
      s.mon.tripped = true ∧ s.mon.coolSince = some 0 ∧ (s.now < 0 + 1000000000 ↔ n = 999999999)) := by decide +kernel

theorem test_witness_age :
    (ccRunning up 0 = true ∧ clkPoint up 0 = 0 ∧ clkPoint (fset up (.die 0 10) DB10.ACLK_STATE_POINT 1) 0 ≠ 0) ∧
    acceptedB up rqHost 0x7FC040 false true (.pkg 12) = true ∧
    up.mon.planSlack = [] ∧
    (let s := { up with mon.planSlack := [(0, 5), (1, 5)] }
     s.mon.replanReq = false ∧ fget s (.pkg 12) PB12.POWERED_HOURS < fget s (.pkg 12) PB12.LAST_REPLAN + 100) ∧
    up.rst.lowRails.contains .core0 = false ∧ ({ up with rst.lowRails := [.core0] } : State).rst.lowRails.contains .core0 = true ∧
    bit (fget up (.die 1 9) DB9.CC_STATUS_RUNNING) 3 = true ∧ reachCode up 5 ≤ 5 ∧
    (let s := { up with fuse.reach0 := setBits up.fuse.reach0 15 3 7 }
     reachCode s 5 = 7 ∧ bit (fget s (.die 1 9) DB9.CC_STATUS_RUNNING) 3 = true) ∧
    (let s := fset up (.die 1 9) DB9.CC_STATUS_RUNNING 7
     bit (fget s (.die 1 9) DB9.CC_STATUS_RUNNING) 3 = false ∧ s.err.ccHalt.contains (1 * 4 + 3) = false) := by decide +kernel

/-- R528: the trip at 130 °C; a reading below it shows in the cluster's register. -/
theorem test_trip :
    (after (.clusterTempSample 7 130) up).mon.tripped = true ∧
    fget (after (.clusterTempSample 7 (-5)) up) (.pkg 12) (PB12.CL_TEMP 7) = 251 := by decide +kernel

/-- R535: the worst slack and the drift of greatest size. -/
theorem test_margin :
    let u := after (.marginSample 0 [5, -7] [3, -4]) up
    fget u (.pkg 12) (PB12.CL_SLACK 0) = 2 ^ 16 - 7 ∧ fget u (.pkg 12) (PB12.CL_RO 0) = 2 ^ 32 - 4 := by decide +kernel

/-! ### Resets and boot -/

/-- The part with the reach of a reset source in its fuses. -/
def reaching (code r : Nat) : State :=
  { up with fuse := { up.fuse with reach0 := if code < 8 then setBits up.fuse.reach0 (3 * code) 3 r else up.fuse.reach0, reach1 := if code < 8 then up.fuse.reach1 else setBits up.fuse.reach1 (3 * (code - 8)) 3 r } }

theorem test_witness_reach :
    (∀ code ∈ [0, 1, 2, 3, 4, 9, 10, 11], ∀ r ∈ [0, 1, 6, 7], reachCode (reaching code r) code = r) := by decide +kernel

/-- R581: the fuses' own reach: PORn at L0, RESETn at L1, the host's three through the PCI Express block. -/
theorem test_reach_defaults :
    [0, 1, 2, 3, 4, 8].map (reachCode up) = [0, 1, 6, 6, 6, 1] := by decide +kernel

/-- The part with every clock good. -/
def clocked : State :=
  { up with rst.clkGood := [.aclk 0, .aclk 1, .fclk 0, .fclk 1, .pclk 0, .pclk 1, .kclk 0, .kclk 1, .tclk, .xclk] }

theorem test_witness_clocks :
    (∀ c ∈ [Clk.aclk 0, .fclk 1, .pclk 0, .kclk 1, .tclk, .xclk], clocked.rst.clkGood.contains c = true ∧
      ∀ x ∈ clkLossSources c, effectiveSource clocked x = x) ∧
    (let s := { up with rst.clkGood := [] }
     ∀ c ∈ [Clk.aclk 1, .tclk], s.rst.clkGood.contains c = false) ∧
    up.hist.queue.length < 64 := by decide +kernel

/-- An asserted software reset in the first `n` of the eight places, each of a slot of its own. -/
def swHeld (n : Nat) : State :=
  { up with rst.held := (List.range n).map (fun i => (i, (4, slotK i + 16 * slotCluster i))) }

theorem test_witness_sw_reset :
    acceptedB up rqHost 0x7F1048 false true (.pkg 1) = true ∧
    acceptedB (swHeld 8) rqHost 0x7F1048 false true (.pkg 1) = true ∧ acceptedB (swHeld 7) rqHost 0x7F1048 false true (.pkg 1) = true ∧
    (∀ q ∈ [(0, 1), (2, 1), (3, 1), (3, 0x40), (5, 5), (6, 0), (7, 0)], swTarget q.1 q.2 = none) ∧
    swTarget 0 0 = some .package ∧ swTarget 2 0x80 = some (.die 1) ∧ swTarget 3 0x30 = some (.cluster 0 3) ∧
    swTarget 5 4 = some (.slot 4) ∧
    effectiveSource up ⟨7, 3, .cluster 0 3, some (up.now + 1000), 0⟩ = ⟨7, 3, .cluster 0 3, some (up.now + 1000), 0⟩ ∧
    effectiveSource (swHeld 7) ⟨7, 3, .cluster 0 3, none, 1⟩ = ⟨7, 3, .cluster 0 3, none, 1⟩ ∧
    -- held already, a place free, no place free
    (0, (4, 0)) ∈ (swHeld 8).rst.held ∧
    ((swHeld 8).rst.held.all (fun e => e.2 ≠ (3, 0x30)) = true ∧ ∀ i, i < 8 → (SMap.find (swHeld 8).rst.held i).isSome = true) ∧
    ((swHeld 7).rst.held.all (fun e => e.2 ≠ (3, 0x30)) = true ∧ SMap.find (swHeld 7).rst.held 7 = none ∧
      ∀ j, j < 7 → (SMap.find (swHeld 7).rst.held j).isSome = true) ∧
    (swHeld 8).rst.held.find? (fun e => e.2 = (4, 1)) = some (1, (4, 1)) ∧ swTarget 4 1 = some (.slot 1) := by decide +kernel

theorem test_witness_mirror :
    inReset up (.die 1) = false ∧ inReset up .pkg = false ∧ fbit up (.pkg 0) PB0.PKG_STATUS_FAILED_OVER = false := by decide +kernel

/-- R555: a pulse at L5 on slot 4 resets its engine group alone. -/
theorem test_pulse_of_an_engine :
    let u := after (.swResetPulse rqHost 5 4) up
    (blockState u (.eng 4)).inReset = true ∧ inReset u (.core 4) = false ∧ u.rst.sources.length = 1 := by decide +kernel

/-- The part with one block in an episode of this level, its sequence begun or not. -/
def episode (b : Block) (level : Nat) (rel : Bool) : State :=
  setBlock clocked b { blockState up b with inReset := true, level := level, releasing := rel }

theorem test_witness_release :
    (∀ b ∈ [Block.core 39, .eng 0, .cluster 1 3, .point 0, .cc 1, .die 1, .pcie, .tap],
      mayRelease up b = false ∧ mayRelease (episode b 4 false) b = true ∧ b.wf = true ∧ b ≠ .pkg) ∧
    (let s := episode (.die 1) 2 false
     mayRelease s (.die 1) = true ∧ (blockState s (.die 1)).level = 2 ∧ s.boot.image = none) ∧
    (∀ l ∈ [0, 1], let s := episode .pkg l false
      mayRelease s .pkg = true ∧ (blockState s .pkg).level = l ∧ fget s bootPage PB13.BOOT_STATUS_FAIL_COUNT < s.fuse.failLimit ∧
      s.rst.bootselPin ≠ 3) ∧
    (∀ b ∈ [Block.core 39, .eng 0, .die 1], (blockState (episode b 4 true) b).inReset = true ∧
      (blockState (episode b 4 true) b).releasing = true ∧ (blockState up b).inReset = false) ∧
    locate (episode (.core 0) 4 false) spmAt 1 = .down ∧
    (∃ d off, locate (episode (.die 0) 2 false) 0x1000 1 = .dram d off ∧ outOfService (episode (.die 0) 2 false) (.die d) = true) ∧
    (let ws := [(pageBase (.die 0 7) + 0x100, 5#32)]
     let s := { up with att.b7copy := [(0, (ws, true))] }
     SMap.find s.att.b7copy 0 = some (ws, true) ∧ ccRunning s 0 = true ∧ SMap.sorted none ws = true ∧
     ∀ w ∈ ws, w.1 ≠ pageBase (.die 0 7) + DB7.ACC_CTRL_LOCK.off) := by
  refine ⟨by decide +kernel, by decide +kernel, by decide +kernel, by decide +kernel, by decide +kernel, ⟨0, 0x1000, by decide +kernel⟩,
    by decide +kernel⟩

/-- R556: a released core's scratchpad reads zero. -/
theorem test_release_clears :
    rdByte (after (.blockRelease (.core 39)) (wrBytes (episode (.core 39) 4 false) (spmBase 39 + 8) [7])) (spmBase 39 + 8) = 0 := by
  decide +kernel

/-- A start in a phase, for the boot source pins. -/
def starting (phase sel : Nat) : State :=
  fset (fsetb { setPhase up phase with boot.starting := true } bootPage PB13.BOOT_STATUS_BOOT_DONE false) (.pkg 1)
    PB1.PIN_STATE_BOOTSEL sel

theorem test_witness_images :
    sourceOpen up .host = false ∧ sourceOpen (starting 4 0) .flashA = true ∧ inRecovery (starting 4 0) = false ∧
    imageCheck up [] 0 = some 2 ∧
    (let s := { starting 4 0 with boot.copies := [0, 1], boot.image := some [] }
     let s := fset s (.pkg 1) PB1.RST_STATUS_LAST_LEVEL 1
     sourceOpen s (.dramCopy 1) = true ∧ inRecovery s = false ∧
     imageCheck s ((s.boot.image.getD []).map BitVec.toNat) 0 = some 2) ∧
    (let s := { starting 4 1 with boot.go := true }
     sourceOpen s .host = true ∧ inRecovery s = false ∧ imageCheck s (hostImage s) 0 = some 2) := by decide +kernel

theorem test_witness_starts :
    let wait := fsetb up bootPage PB13.BOOT_STATUS_WAIT_HOST true
    let rec_ := fsetb (setPhase up 8) bootPage PB13.BOOT_STATUS_RECOVERY true
    ((starting 6 0).boot.starting = true ∧ bootPhase (starting 6 0) = 6 ∧ bootDone (starting 6 0) = false) ∧
    ({ up with boot.starting := false } : State).boot.starting = false ∧ bootPhase (starting 5 0) ≠ 6 ∧ bootDone up = true ∧
    (∀ s ∈ [up, wait, rec_], acceptedB s rqHost 0x7FD058 false true bootPage = true) ∧
    fbit wait bootPage PB13.BOOT_STATUS_WAIT_HOST = true ∧
    (fbit rec_ bootPage PB13.BOOT_STATUS_WAIT_HOST = false ∧ bootPhase rec_ = 8) ∧
    (fbit up bootPage PB13.BOOT_STATUS_WAIT_HOST = false ∧ bootPhase up ≠ 8) ∧
    inRecovery up = false ∧ inRecovery rec_ = true ∧ rqHost.mid = midHost ∧
    (∀ n ∈ [1999999999, 2000000000], let s := { starting 6 0 with boot.timerRun := n }
      s.boot.starting = true ∧ bootDone s = false ∧ reachCode s 11 ≤ 1 ∧ (bootElapsed s < 2000000000 ↔ n = 1999999999)) := by
  decide +kernel

/-! ### Errors, fences and contexts -/

theorem test_witness_detectors :
    ((pageDetectors (.core 0 8)).contains 0x09 = false ∧ pageStubbed (episode (.core 0) 4 false) (.core 0 12) = true) ∧
    (∀ q ∈ [(Page.core 39 12, 0x09), (.core 0 12, 0x0A), (.core 39 12, 0x0B), (.cl 1 3 3, 0x12), (.cl 0 0 3, 0x13), (.die 0 5, 0x26),
        (.die 1 2, 0x29), (.die 1 8, 0x2B), (.die 0 8, 0x2C), (.pkg 7, 0x38), (.pkg 10, 0x39), (.die 1 2, 0x2A)],
      (pageDetectors q.1).contains q.2 = true ∧ pageStubbed up q.1 = false ∧ unarmedB up q.1 [q.2] = true) ∧
    (let s := fsetb up (.pkg 0) PB0.PKG_STATUS_MIRROR_OK true
     (pageDetectors (.pkg 0)).contains 0x33 = true ∧ pageStubbed s (.pkg 0) = false ∧ unarmedB s (.pkg 0) [0x33] = true ∧
     inReset s (.die 1) = false ∧ fbit s (.pkg 0) PB0.PKG_STATUS_MIRROR_OK = true) ∧
    (let s := holds { Ctx.idle with st := .ready }
     (ctxAt s 0 (2048 % 2048)).st ≠ .free ∧ (ctxAt s 0 0).st ≠ .faulted ∧ unarmedB s (.core 0 12) [0x0A] = true ∧
     pageStubbed s (.core 0 12) = false) ∧
    (let r : Record := ⟨5, 6, 1, 0, 0, 0, 0, 0⟩
     let s := { up with hist.recs := [(3, (9, r))] }
     SMap.find s.hist.recs 3 = some (9, r) ∧ unarmedB s (.pkg 10) [0x39] = true ∧ pageStubbed s (.pkg 10) = false) ∧
    (let x := { aSlot 4 with landed := false }
     let s := setHall up 1 { hallAt up 1 with slots := [(0, x)], alcove := [(4, aCell 1), (5, aCell 1)] }
     slotFor s 1 4 = some x ∧ (hallAt s 1).slots.map Prod.snd = [x] ∧ x.landed = false ∧ 4 % 2 = 6 % 2 ∧
     unarmedB s (.die 1 2) [0x2A] = true ∧ pageStubbed s (.die 1 2) = false) := by decide +kernel

/-- R448: a second bit error in a word makes it uncorrectable. -/
theorem test_two_bit_errors :
    let a : BitVec 58 := 0x1004#58
    let one := after (.detectorEvent (.stored a false)) up
    SMap.getD one.ecc (dramBase 0 + 0x1000) 0 = 1 ∧
    SMap.getD (after (.detectorEvent (.stored a false)) one).ecc (dramBase 0 + 0x1000) 0 = 2 ∧
    SMap.getD (after (.detectorEvent (.stored a true)) up).ecc (dramBase 0 + 0x1000) 0 = 2 := by decide +kernel

/-- A record. -/
def aRecord : Record := ⟨5, 6, 1, 0, 0x100, 7, 8, 9⟩

theorem test_witness_history :
    (devSec up.tb.dev = up.err.second) ∧
    (let s := { up with tb.dev := 10 ^ 9 * 2 ^ 32, err.rises := [⟨0, 0x20, 3, 1, 2, false⟩], hist.queue := List.replicate 63 aRecord }
     devSec s.tb.dev ≠ s.err.second ∧ s.hist.queue.length + s.err.rises.length ≤ 64) ∧
    (up.hist.dropped = 0 ∧ up.hist.queue = []) ∧
    (let s := { up with hist.queue := [aRecord, aRecord] }
     s.hist.dropped = 0 ∧ s.hist.queue = aRecord :: [aRecord]) ∧
    ({ up with hist.dropped := 1 } : State).hist.dropped ≠ 0 ∧
    acceptedB up rqHost 0x7FA04C false true (.pkg 10) = true := by decide +kernel

/-- R597: the oldest record goes into place 0 with the first SEQ. -/
theorem test_history_write :
    let u := after .historyRecordWrite { up with hist.queue := [aRecord] }
    SMap.find u.hist.recs 0 = some (fget up (.pkg 10) PB10.HIST_SEQ, aRecord) ∧ fget u (.pkg 10) PB10.HIST_WR = 1 := by decide +kernel

theorem test_witness_unit_commands :
    (∀ q ∈ [(0, 0), (1, 3)], acceptedB up rqCC (pageBase (.cl q.1 q.2 3) + 0x44) false true (.cl q.1 q.2 3) = true) ∧
    (slotFenced up (slotOf 0 0 4) = false ∧ bit 0x1F 4 = true ∧ slotDie 39 ≠ 0) ∧
    (∀ p ∈ [Page.core 39 8, .die 0 5, .pkg 12], acceptedB up rqHost (pageBase p + 0x20) false true p = true) ∧
    fbit (fsetb up (.pkg 10) PB10.HIST_CTRL_INJ_LOCK true) (.pkg 10) PB10.HIST_CTRL_INJ_LOCK = true ∧
    acceptedB (fsetb up (.pkg 10) PB10.HIST_CTRL_INJ_LOCK true) rqHost (pageBase (.pkg 12) + 0x20) false true (.pkg 12) = true ∧
    fbit up (.pkg 10) PB10.HIST_CTRL_INJ_LOCK = false ∧
    -- COUNT 0; an event; a corruption; no such detector, no such mode, no corruption
    bits 0x03FF0000 0 16 = 0 ∧
    ((pageDetectors (.core 39 8)).contains (bits 0x00010002 16 8) = true ∧ bits 0x00010002 24 2 = 0) ∧
    ((pageDetectors (.core 39 8)).contains (bits 0x01050001 16 8) = true ∧ bits 0x01050001 24 2 = 1 ∧ noCorrupt 0x05 = false) ∧
    (pageDetectors (.core 39 8)).contains (bits 0x00060001 16 8) = false ∧ bits 0x02010001 24 2 = 2 ∧
    (bits 0x01300001 16 8 = 0x30 ∧ noCorrupt 0x30 = true) ∧
    (∀ st ∈ [CtxSt.faulted, .ready, .free], let s := holds { Ctx.idle with st := st }
      acceptedB s rqCC (pageBase (.core 0 1) + 0x7C) false true (.core 0 1) = true ∧ fget s (.core 0 1) KB1.CTX_SEL = 0 ∧
      (ctxAt s 0 0).st = st) ∧
    (∀ n ∈ [0, 63], acceptedB up rqCC (pageBase (.core 39 1) + 0x100 + 4 * n) false true (.core 39 1) = true) ∧
    (∀ p ∈ [Page.core 0 1, .pkg 8, .die 1 4], acceptedB up rqCC (pageBase p + 0x08) false true p = true) := by decide +kernel

/-- A slot of cluster 0 that a trigger names, with one context and a restart entry for its domain. -/
def fencing (n : Nat) (spare : Nat) : State :=
  let s := { up with err.fenceReq := [n], ctx := [(n * 2048 + 7, { Ctx.idle with st := .ready, pc := 0x4000, domain := 2, cls := 1 })] }
  let s := fset (fset s (.die 0 8) (DB8.RESTART_PC_LO 2) 0x1000) (.die 0 8) (DB8.RESTART_PC_HI_VALID 2) 1
  seteff s (.cl 0 0 0) CB0.CORE_MAP_SPARE_SLOT spare

theorem test_witness_fence :
    (let s := fencing 1 4
     s.err.fenceReq = 1 :: [] ∧ ccRunning s 0 = true ∧ slotFenced s 1 = false ∧ fenceSave s 0 = 0 ∧
     (List.range 4).find? (fun j => mapField s 0 0 j = slotK 1) = some 1 ∧ mapField s 0 0 4 = 4 ∧ (4 : Nat) ≠ slotK 1 ∧
     slotState s (slotOf 0 0 4) = 1 ∧
     liveContexts s 1 = [(7, { Ctx.idle with st := .ready, pc := 0x4000, domain := 2, cls := 1 })] ∧
     fbit s (.die 0 8) (DB8.RESTART_PC_HI_VALID 2) = true ∧ (ctxAt s (slotOf 0 0 4) 0).st = .free) ∧
    mapField (fencing 1 7) 0 0 4 = 7 ∧ fenceSave (fencing 1 7) 0 = 0 ∧
    (let s := fset up (.cl 0 0 3) CB3.SLOT_FENCE 2
     slotFenced { s with err.fenceReq := [1] } 1 = true) := by decide +kernel

/-- R602, R603: the spare takes the position, and the context restarts there with its logical core's identity in s1. -/
theorem test_fence_promotes :
    let u := after .coreFence (fencing 1 4)
    mapField u 0 0 1 = 4 ∧ (ctxAt u 4 0).pc = 0x1000 ∧ ((ctxAt u 4 0).rget 1).toNat = 2048 + 7 ∧ (ctxAt u 4 0).domain = 2 := by decide +kernel

/-! ### Identity, measurements, debug and the service ports -/

/-- The part with its debug gate open or shut, and TRSTn high. -/
def debugging (on : Bool) : State :=
  { fsetb up (.pkg 9) PB9.ACC_CTRL_DEBUG_EN on with rst.trstN := true }

theorem test_witness_attest :
    let p := Page.pkg 9
    (acceptedB up rqHost 0x7F907C false true p = true ∧ acceptedB up rqHost 0x7F9064 false true p = true ∧
     acceptedB up rqHost 0x7F9040 false true p = true ∧ acceptedB up rqCC 0x7F9040 false true p = true) ∧
    (fbit up p PB9.ACC_STATUS_IDENT_READY = false ∧ fbit up p PB9.ACC_STATUS_QUOTE_BUSY = false) ∧
    (let s := fsetb up p PB9.ACC_STATUS_IDENT_READY true
     fbit s p PB9.ACC_STATUS_QUOTE_BUSY = false ∧ fbit s p PB9.ACC_STATUS_IDENT_READY = true ∧
     acceptedB s rqHost 0x7F9064 false true p = true) ∧
    up.att.quote = none ∧
    (let q : Quote := ⟨rqHost, List.replicate 0x680 0#8⟩
     ∀ dst ∈ [0x3000, 0x3004], let s := fset { up with att.quote := some q } p PB9.QUOTE_DST_LO dst
       s.att.quote = some q ∧ fget s p PB9.QUOTE_DST_LO + fget s p PB9.QUOTE_DST_HI * 2 ^ 32 = dst ∧
       (dst % 64 = 0 ↔ dst = 0x3000) ∧ q.head.length = 0x680 ∧ reachesB s q.rq 40 0x3000 4096 false true = true ∧
       (placeAt (locate s 0x3000 4096)).isSome = true) ∧
    rqCC.mid ≠ midHost ∧ rqHost.mid = midHost ∧ fbit up p PB9.ACC_CTRL_LOCK = false ∧ fbit up p PB9.ACC_CTRL_DEBUG_EN = false ∧
    (let s := fsetb up p PB9.ACC_CTRL_LOCK true
     acceptedB s rqHost 0x7F9040 false true p = true ∧ fbit s p PB9.ACC_CTRL_LOCK = true) := by decide +kernel

theorem test_witness_ports_of_service :
    ({ up with rst.trstN := false } : State).rst.trstN = false ∧ (debugging true).rst.trstN = true ∧
    fbit (debugging false) (.pkg 9) PB9.ACC_CTRL_DEBUG_EN = false ∧ fbit (debugging true) (.pkg 9) PB9.ACC_CTRL_DEBUG_EN = true ∧
    (0x3002 % 4 ≠ 0 ∧ 2 ^ 48 / 2 ^ 48 ≠ ownNode (debugging true) ∧ 2 ^ 45 / 2 ^ 44 % 16 ∉ [0, 1, 3]) ∧
    (let s := seteff (debugging true) (.die 0 7) DB7.DRAM_DEFAULT_HI 0x800000C0
     fbit s (.pkg 9) PB9.ACC_CTRL_DEBUG_EN = true ∧ s.rst.trstN = true ∧ 0x3000 / 2 ^ 48 = ownNode s ∧ 0x3000 / 2 ^ 44 % 16 ∈ [0, 1, 3] ∧ locate s 0x3000 4 = .dram 0 0x3000 ∧ s.ecc = [] ∧
     unarmedB s (.die 0 5) [0x20, 0x21] = true ∧ reachesB s ⟨midDebug, false, none⟩ 40 0x3000 4 true false = true ∧
     reachesB s ⟨midDebug, false, none⟩ 40 0x3000 4 false true = true) ∧
    up.rst.aonPresent = true := by decide +kernel

/-- R643: IDCODE of silicon revision 0. -/
theorem test_idcode :
    (after .idcode (debugging false)).jtag.shiftOut = up.fuse.siliconRev % 16 * 2 ^ 28 + 0x2640 * 2 ^ 12 + 0x2B5 * 2 + 1 := by decide +kernel

/-- SHA3-256 of no bytes and of "abc", from the standard that R568 names. -/
theorem test_sha3 :
    (sha3_256 []).take 8 = [0xA7, 0xFF, 0xC6, 0xF8, 0xBF, 0x1E, 0xD7, 0x66] ∧
    (sha3_256 [0x61, 0x62, 0x63]).take 8 = [0x3A, 0x98, 0x5D, 0xA7, 0x4F, 0xE2, 0x25, 0xB2] := by decide +kernel

/-! ### The host interface and the mailbox -/

theorem test_witness_host :
    (inD3 (after (.pcieDstateChange true) up) = true ∧ inD3 up = false ∧ bootDone up = true ∧ bootDone (starting 6 0) = false ∧
     inD3 (starting 6 0) = false) ∧
    (let g := winBase up + 0x4000
     up.ecc = [] ∧ unarmedB up (.die 0 5) [0x20, 0x21] = true ∧ g / 2 ^ 48 % 1024 = ownNode up ∧
     locate up g 8 = .dram 0 0x4000 ∧ reachesB up rqHost 40 g 8 true false = true ∧ reachesB up rqHost 40 g 8 false true = true) ∧
    (let s := seteff (seteff up (.die 0 7) DB7.DRAM_DEFAULT_LO 0) (.die 0 7) DB7.DRAM_DEFAULT_HI 0
     inD3 s = false ∧ bootDone s = true ∧ s.ecc = [] ∧ unarmedB s (.die 0 5) [0x20, 0x21] = true ∧
     (winBase s + 0x4000) / 2 ^ 48 % 1024 = ownNode s ∧ locate s (winBase s + 0x4000) 8 = .dram 0 0x4000 ∧
     dramAllows s 0 0x4000 8 rqHost true false = false) ∧
    (let s := seteff (episode (.core 0) 4 false) (.pkg 7) PB7.WIN_BASE_HI 0x1000
     inD3 s = false ∧ bootDone s = true ∧ s.ecc = [] ∧ (winBase s + 0x40) / 2 ^ 48 % 1024 = ownNode s ∧
     locate s (winBase s + 0x40) 8 = .down) ∧
    acceptedB up rqHost 0x7F704C false true (.pkg 7) = true := by decide +kernel

theorem settled_up : Settled up := by
  refine ⟨?_, ?_⟩ <;> decide +kernel

theorem test_witness_vectors :
    (let s := { up with msix.pend := 8#64 }
     s.msix.pend.getLsbD 3 = true ∧ s.msix.pend.getLsbD 2 = false ∧ inD3 s = false) := by decide +kernel

theorem test_witness_outbound :
    let l : Load := ⟨3, 4, true, 2 ^ 47 + 0x40, 0x0FFC, none, none, false, false⟩
    (let s := loading l
     (cref s t0).loads = [l] ∧ (cref s t0).st ≠ .free ∧ (cref s t0).st ≠ .faulted ∧ l.tag = none ∧ l.value = none ∧
     (match locate s l.addr 1 with | .host _ _ => true | _ => false) = true) ∧
    (let s := loading { l with value := some 5 }
     (cref s t0).loads = [{ l with value := some 5 }] ∧ (cref s t0).st ≠ .free ∧ (cref s t0).st ≠ .faulted ∧
     ({ l with value := some 5 } : Load).value.isSome = true) := by decide +kernel

/-- The part with a mailbox page at byte 0x1000 of d0's DRAM whose page 0 may name domain 2, with this message in slot 0, taken by
a scan that took slot 1 as well; context 5 of slot 0 stands as given. -/
def posted (x : Ctx) (msg : List (Nat × Nat × Nat)) : State :=
  let s := setCtx (fset (seteff up (.pkg 11) PB11.MBX_BASE 1) (.pkg 11) (PB11.MBX_DOMAINS 0) 4) 0 5 x
  { wrBytes s (dramBase 0 + 0x1080) (fields 128 ((0, 1, 1) :: msg)) with mbx := [(0, 0), (0, 1)] }

/-- `MessageAt`, computed, for slot 0 of that page. -/
def postedB (s : State) : Bool :=
  decide (s.mbx.head? = some (0, 0)) && decide (2 ≤ s.mbx.length) && mbxServes s && decide (s.ecc = []) &&
    unarmedB s (.die 0 5) [0x20, 0x21] && reachesB s rqCC 40 (mbxPage s 0) 4096 true true &&
    decide (locate s (mbxPage s 0) 4096 = .dram 0 0x1000)

theorem messageAt_of {s : State} (h : postedB s = true) : MessageAt s (0, 0) 0x1000 0x1080 := by
  simp only [postedB, Bool.and_eq_true, decide_eq_true_eq] at h
  obtain ⟨⟨⟨⟨⟨⟨h1, h2⟩, h3⟩, h4⟩, h5⟩, h6⟩, h7⟩ := h
  refine ⟨h1, h2, by decide, h3, h4, ?_, reaches_of h6, h7, rfl⟩
  intro d hd
  have := List.all_eq_true.mp h5 d hd
  simpa using this

/-- The bytes of the message. -/
def postedMsg (s : State) : List Nat := rdBytes s 0x1080 128

theorem test_witness_mailbox :
    acceptedB up rqHost 0x7FB048 false true (.pkg 11) = true ∧ mbxServes (starting 6 0) = false ∧ up.mbx = [] ∧
    fbit up (.pkg 11) PB11.MBX_STATUS_TRIGGERED = false ∧ dramBase 0 = 0 ∧
    -- an OP not in the table; NOP, with and without its unused bytes zero
    (∀ op ∈ [0, 4, 255], let s := posted Ctx.idle [(1, 1, op)]
      postedB s = true ∧ (postedMsg s).getD 1 0 = op ∧ mbxZero (postedMsg s) 8 0x60 = true) ∧
    (let s := posted Ctx.idle [(1, 1, 0), (8, 1, 1)]
     postedB s = true ∧ (postedMsg s).getD 1 0 = 0 ∧ mbxZero (postedMsg s) 8 0x60 = false) ∧
    -- SPAWN: a domain not to be named, not to be, a core above 31, one to be spawned, one that is down
    (∀ q ∈ [(3, 0, 0x1000), (16, 0, 0x1000), (2, 32, 0x1000), (2, 0, 0x1002), (2, 0, 0x1000)],
      let s := posted Ctx.idle [(1, 1, 1), (8, 1, q.1), (10, 1, q.2.1), (16, 8, q.2.2)]
      let b := postedMsg s
      postedB s = true ∧ b.getD 1 0 = 1 ∧ b.getD 8 0 = q.1 ∧ mbxMayName s 0 q.1 = decide (q.1 = 2) ∧ b.getD 10 0 = q.2.1 ∧
      mbxArg b 0x10 8 = q.2.2 ∧ (b.getD 9 0 ≤ 3 ∧ b.getD 12 0 = 0 ∧ mbxZero b 11 12 = true ∧ mbxZero b 13 16 = true ∧
        mbxZero b 0x38 0x60 = true) ∧ coreInService s 0 = some 0 ∧ (ctxAt s 0 0).st = .free) ∧
    (let s := setBlock (posted Ctx.idle [(1, 1, 1), (8, 1, 2), (16, 8, 0x1000)]) (.core 0) { blockState up (.core 0) with inReset := true, level := 4 }
     postedB s = true ∧ coreInService s 0 = none ∧ (postedMsg s).getD 8 0 = 2) ∧
    -- KILL and FREE of context 5
    (∀ op ∈ [2, 3], ∀ st ∈ [CtxSt.ready, .faulted], ∀ dom ∈ [2, 3],
      let s := posted { Ctx.idle with st := st, domain := dom } [(1, 1, op), (8, 8, 5)]
      postedB s = true ∧ (postedMsg s).getD 1 0 = op ∧ mbxZero (postedMsg s) 0x10 0x60 = true ∧
      mbxThread s (mbxArg (postedMsg s) 8 8) = some (0, 5) ∧ mbxMayName s 0 (ctxAt s 0 5).domain = decide (dom = 2) ∧
      (ctxAt s 0 5).st = st) := by decide +kernel

/-- R672: KILL makes the context exit and counts the message. -/
theorem test_kill :
    let u := after .kill (posted { Ctx.idle with st := .ready, domain := 2 } [(1, 1, 2), (8, 8, 5)])
    (ctxAt u 0 5).st = .exiting ∧ rdByte u 0x1080 = 3 ∧ rdByte u 0x1082 = 0 ∧ fget u (.pkg 11) PB11.MBX_TAKEN = 1 := by decide +kernel

/-! ### The whole block -/

theorem test_witness_step :
    ({ State.reset with pending := [.mbxScan] } : State).pending = .mbxScan :: [] ∧ State.reset.pending = [] ∧
    (∀ i ∈ [Instr.add t0 1 2 3, .pass (.issue t0 10 0x100#32 0#8 0#32)], threadOf i = some t0 ∧ (wordsOf i).isSome = true ∧
      WellFormed i = true ∧ mayIssue up t0 ((wordsOf i).getD []) = false) ∧
    issueTurn (runs (.add t0 1 2 3) []) 0 = some 0 ∧ SMap.sorted none (runs (.add t0 1 2 3) []).ctx = true ∧
    (ctxAt (runs (.add t0 1 2 3) []) 0 0).issuable = true := by decide +kernel

theorem test_stores_reset : Stores State.reset := by
  refine ⟨?_, ?_, ?_, ?_, ?_, ?_, ?_⟩
  · decide +kernel
  · decide +kernel
  · decide +kernel
  · decide +kernel
  · decide +kernel
  · decide +kernel
  · have h : State.reset.reg.captured = [] := by decide +kernel
    rw [h]
    intro e he
    cases he

theorem test_settled_reset : Settled State.reset := by
  refine ⟨?_, ?_⟩ <;> decide +kernel

/-- R43: an idle step is one TCLK cycle of 2 ns. -/
theorem test_idle : (match step State.reset with | .next u => u.now | _ => 0) = 2 := by decide +kernel

/-- The words of a FLT, written out from its format, come back as it. -/
theorem test_words_back : instrOf t0 [0b00110_00101_00100_000000110_00000010] = some (.flt t0 4 5 6) := by decide +kernel

end Sys2Proof.Tests
end

section
/-!
PROOFS. Register accesses (R7, R9, R10): the frames of the register operations, what an access that passes its checks answers
and leaves, and what a refused one does.
-/

namespace Sys2Proof.Machine

/-! ### Commands and outcomes -/

theorem exec_registerWrite (rq : Requester) (a : BitVec 24) (w : Nat) (v : Word) (s : State) :
    exec (.registerWrite rq a w v) s = doWrite s rq a.toNat w v.toNat := rfl

theorem exec_rcRegisterRead (rq : Requester) (a : BitVec 24) (w : Nat) (s : State) :
    exec (.rcRegisterRead rq a w) s = doRead s rq a.toNat w := rfl

theorem exec_loRegisterRead (rq : Requester) (a : BitVec 24) (w : Nat) (s : State) :
    exec (.loRegisterRead rq a w) s = doRead s rq a.toNat w := rfl

theorem exec_pageCommit (rq : Requester) (p : Page) (v : Word) (s : State) :
    exec (.pageCommit rq p v) s = doWrite s rq (pageBase p + 0x10) 4 v.toNat := rfl

theorem exec_commitTakeEffect (p : Page) (s : State) : exec (.commitTakeEffect p) s = execCommitTakeEffect p s := rfl

theorem exec_portSetTakeEffect (n : Fin 4) (s : State) : exec (.portSetTakeEffect n) s = execPortSetTakeEffect n s := rfl

/-- A command that ends in `done s` completes in `s` but for the vectors and the mark of an injected error. -/
theorem completes_done {s : State} {P : State → Prop} (h : ∀ m, P { s with msix := m, err.inj := false }) :
    Completes (done s) P := by
  obtain ⟨m, e⟩ := done_eq s
  exact ⟨_, e, h m⟩

/-! ### Frames of the register pages -/

theorem OnlyRegisters.refl (s : State) : OnlyRegisters s s := rfl

theorem OnlyRegisters.trans {s t u : State} (h : OnlyRegisters s t) (k : OnlyRegisters t u) : OnlyRegisters s u := by
  unfold OnlyRegisters at *
  calc { u with reg := s.reg, ans := s.ans, msix := s.msix, err.inj := s.err.inj }
      = { ({ u with reg := t.reg, ans := t.ans, msix := t.msix, err.inj := t.err.inj } : State) with
            reg := s.reg, ans := s.ans, msix := s.msix, err.inj := s.err.inj } := rfl
    _ = { t with reg := s.reg, ans := s.ans, msix := s.msix, err.inj := s.err.inj } := by rw [k]
    _ = s := h

theorem onlyRegisters_putWord (s : State) (p : Page) (off v : Nat) : OnlyRegisters s (putWord s p off v) := rfl

/-- The end of an access gives the answer, settles the vectors and clears the mark of an injected error. -/
theorem onlyRegisters_end (s : State) (a : Answer) (m : Msix) (b : Bool) :
    OnlyRegisters s { s with ans := a, msix := m, err.inj := b } := rfl

/-- `WordsBut` speaks of the registers and the fuses alone. -/
theorem WordsBut.of_reg {l : List Nat} {s t u : State} (h : WordsBut l s t) (hr : u.reg = t.reg) (hf : u.fuse = t.fuse) :
    WordsBut l s u :=
  ⟨by rw [rawWord_congr hr hf]; exact h.1, by rw [hr]; exact h.2⟩

theorem WordsBut.trans {l k : List Nat} {s t u : State} (h : WordsBut l s t) (g : WordsBut k t u) :
    WordsBut (l ++ k) s u := by
  obtain ⟨hw, hr⟩ := h
  obtain ⟨gw, gr⟩ := g
  refine ⟨fun p off hn => ?_, ?_⟩
  · simp only [List.mem_append, not_or] at hn
    rw [gw p off hn.2, hw p off hn.1]
  · calc { u.reg with regs := s.reg.regs }
        = { ({ u.reg with regs := t.reg.regs } : RegFile) with regs := s.reg.regs } := rfl
      _ = { t.reg with regs := s.reg.regs } := by rw [gr]
      _ = s.reg := hr

theorem wordsBut_refl (l : List Nat) (s : State) : WordsBut l s s := ⟨fun _ _ _ => rfl, rfl⟩

theorem wordsBut_putWord (s : State) (p : Page) (off v : Nat) : WordsBut [pageBase p + off] s (putWord s p off v) :=
  ⟨fun q o h => rawWord_putWord_ne s p q off o v (by simpa using h), rfl⟩

/-- VIOL_COUNT counts one more (R676). -/
theorem fget_viol (s : State) (p : Page) : fget (viol s p) p HDR.VIOL_COUNT = (fget s p HDR.VIOL_COUNT + 1) % 2 ^ 32 :=
  fget_fset_self s p HDR.VIOL_COUNT _ (by decide)

theorem wordsBut_viol (s : State) (p : Page) : WordsBut [pageBase p + 0x34] s (viol s p) := wordsBut_putWord s p 0x34 _

/-! ### Accesses that pass their checks -/

/-- An accepted write does what the register's write does, and answers nothing. -/
theorem completes_doWrite {s : State} {rq : Requester} {a v : Nat} {p : Page} {P : State → Prop}
    (hc : Accepted s rq a false true p)
    (h : ∀ m, P { regWrite s rq p (a % 0x1000) v with ans := .none, msix := m, err.inj := false }) :
    Completes (doWrite s rq a 4 v) P := by
  obtain ⟨k, e⟩ := settle_eq (vectorsAgain p (a % 0x1000)) (regWrite s rq p (a % 0x1000) v)
  have hr : regWriteAs s rq a 4 v = (.ok, { regWrite s rq p (a % 0x1000) v with msix := k }) := by
    rw [← e, regWriteAs, show checkReg s rq a 4 false true = (.ok p, s) from hc]
  unfold doWrite
  rw [hr]
  exact completes_done h

/-- An accepted read does what the register's read does, and answers its value. -/
theorem completes_doRead {s : State} {rq : Requester} {a : Nat} {p : Page} {P : State → Prop}
    (hc : Accepted s rq a true false p)
    (h : ∀ m, P { (regRead s p (a % 0x1000)).2 with
      ans := .data (regRead s p (a % 0x1000)).1, msix := m, err.inj := false }) :
    Completes (doRead s rq a 4) P := by
  have hr : regReadAs s rq a 4 = (.ok, regRead s p (a % 0x1000)) := by
    rw [regReadAs, show checkReg s rq a 4 true false = (.ok p, s) from hc]
  unfold doRead
  rw [hr]
  exact completes_done h

/-! ### Irregular accesses (R7, R660) -/

/-- R660: a refusal of the host counts on page B7. -/
def hostRefusal (s : State) (rq : Requester) : State :=
  if rq.mid = midHost then raiseInt (finc s (.pkg 7) PB7.HOST_REFUSED) (.pkg 7) 2 else s

theorem regAnswer_refused (s : State) (rq : Requester) (wr : Bool) (v : Nat) :
    regAnswer s rq wr .refused v = { hostRefusal s rq with ans := if wr then .refused else .data 0 } := rfl

theorem onlyRegisters_hostRefusal (s : State) (rq : Requester) : OnlyRegisters s (hostRefusal s rq) := by
  unfold hostRefusal
  split <;> rfl

theorem wordsBut_hostRefusal (s : State) (rq : Requester) :
    WordsBut [pageBase (.pkg 7) + PB7.HOST_REFUSED.off, pageBase (.pkg 7) + 0x14] s (hostRefusal s rq) := by
  unfold hostRefusal
  split
  · exact (wordsBut_putWord _ _ _ _).trans (wordsBut_putWord _ _ _ _)
  · exact wordsBut_refl _ s

/-- VIOL_COUNT is none of the words that count the host's refusals. -/
theorem fget_violCount_hostRefusal (s : State) (rq : Requester) (p : Page) :
    fget (hostRefusal s rq) p HDR.VIOL_COUNT = fget s p HDR.VIOL_COUNT := by
  have hp := pageBase_mod p
  unfold fget
  rw [(wordsBut_hostRefusal s rq).1]
  show pageBase p + 0x34 ∉ [0x7F7058, 0x7F7014]
  simp only [List.mem_cons, List.not_mem_nil, or_false]
  omega

/-- R7: the checks refuse an access to a register that is no whole aligned word, and count it. -/
theorem checkReg_irregular {s : State} {rq : Requester} {a width : Nat} {p : Page} (rd wr : Bool) (hp : pageAt a = some p)
    (hl : a % 0x1000 / 4 * 4 ≤ lastOffset p) (hi : width ≠ 4 ∨ a % 4 ≠ 0) :
    checkReg s rq a width rd wr = (.refused, viol s p) := by
  have hi' : width ≠ 4 ∨ a % 0x1000 % 4 ≠ 0 := hi.imp id (by omega)
  simp only [checkReg, hp, Nat.not_lt.mpr hl, if_false, hi', if_true]

/-- What a refused access of `rq` to page `p` leaves: one more refusal counted on the page, the host's on page B7 too. -/
def RefusalCounted (s : State) (rq : Requester) (p : Page) (u : State) : Prop :=
  fget u p HDR.VIOL_COUNT = (fget s p HDR.VIOL_COUNT + 1) % 2 ^ 32 ∧ OnlyRegisters s u ∧
  WordsBut [pageBase p + 0x34, pageBase (.pkg 7) + PB7.HOST_REFUSED.off, pageBase (.pkg 7) + 0x14] s u ∧
  (rq.mid ≠ midHost → WordsBut [pageBase p + 0x34] s u)

theorem refusalCounted_end (s : State) (rq : Requester) (p : Page) (a : Answer) (m : Msix) :
    RefusalCounted s rq p { hostRefusal (viol s p) rq with ans := a, msix := m, err.inj := false } := by
  refine ⟨?_, ?_, ?_, fun hq => ?_⟩
  · exact (fget_violCount_hostRefusal (viol s p) rq p).trans (fget_viol s p)
  · exact ((onlyRegisters_putWord s p 0x34 _).trans (onlyRegisters_hostRefusal _ rq)).trans (onlyRegisters_end _ a m false)
  · exact ((wordsBut_viol s p).trans (wordsBut_hostRefusal _ rq)).of_reg rfl rfl
  · have hv : hostRefusal (viol s p) rq = viol s p := if_neg hq
    rw [hv]
    exact (wordsBut_viol s p).of_reg rfl rfl

theorem completes_doWrite_irregular {s : State} {rq : Requester} {a width v : Nat} {p : Page} (hp : pageAt a = some p)
    (hl : a % 0x1000 / 4 * 4 ≤ lastOffset p) (hi : width ≠ 4 ∨ a % 4 ≠ 0) :
    Completes (doWrite s rq a width v) (fun u => u.ans = .refused ∧ RefusalCounted s rq p u) := by
  unfold doWrite regWriteAs
  rw [checkReg_irregular false true hp hl hi]
  exact completes_done fun m => ⟨rfl, refusalCounted_end s rq p _ m⟩

theorem completes_doRead_irregular {s : State} {rq : Requester} {a width : Nat} {p : Page} (hp : pageAt a = some p)
    (hl : a % 0x1000 / 4 * 4 ≤ lastOffset p) (hi : width ≠ 4 ∨ a % 4 ≠ 0) :
    Completes (doRead s rq a width) (fun u => u.ans = .data 0 ∧ RefusalCounted s rq p u) := by
  unfold doRead regReadAs
  rw [checkReg_irregular true false hp hl hi]
  exact completes_done fun m => ⟨rfl, refusalCounted_end s rq p _ m⟩

/-- Settles O27: the checks refuse and count the access before the page is reached. -/
theorem irregularAccessesAreRefused : Obligations.IrregularAccessesAreRefused := by
  unfold Obligations.IrregularAccessesAreRefused
  intro s rq a width v p hp hl hi kept
  rw [exec_registerWrite, exec_rcRegisterRead, exec_loRegisterRead]
  exact ⟨completes_doWrite_irregular hp hl hi, completes_doRead_irregular hp hl hi, completes_doRead_irregular hp hl hi⟩

/-! ### Reads with an effect (R9, R10) -/

/-- One row's part in a read: an RC field is cleared. -/
def clearField (a : Nat) (r : RegRow) : Nat := if r.acc = .rc then setBits a r.fld.lo r.fld.w 0 else a

/-- Clearing the RC fields of `l` clears `r` where it is one of them, and leaves a field apart from all of them. -/
theorem bits_foldl_clearField (r : RegRow) (l : List RegRow) (w : Nat)
    (h : ∀ q ∈ l, q ≠ r → q.fld.lo + q.fld.w ≤ r.fld.lo ∨ r.fld.lo + r.fld.w ≤ q.fld.lo) :
    bits (l.foldl clearField w) r.fld.lo r.fld.w =
      if r ∈ l ∧ r.acc = .rc then 0 else bits w r.fld.lo r.fld.w := by
  induction l generalizing w with
  | nil => simp
  | cons q l ih =>
    rw [List.foldl_cons, ih _ (fun x hx => h x (List.mem_cons_of_mem q hx))]
    have hq : bits (clearField w q) r.fld.lo r.fld.w =
        if q = r ∧ r.acc = .rc then 0 else bits w r.fld.lo r.fld.w := by
      unfold clearField
      by_cases he : q = r
      · subst he
        split <;> simp_all [setBits_same]
      · have hd := h q List.mem_cons_self he
        split
        · simp [he, setBits_other _ _ _ _ _ _ (hd.symm)]
        · simp [he]
    rw [hq]
    by_cases hm : r ∈ l
    · simp only [hm, List.mem_cons_of_mem, true_and]
      split
      · rfl
      · next hc => simp [hc]
    · simp only [hm, false_and, if_false, List.mem_cons, or_false, eq_comm (a := r)]

/-- R10: a read clears a field that is RC and leaves any other. -/
theorem bits_clearOnRead {s : State} {p : Page} {off : Nat} {r : RegRow} (h : Alone p off r) :
    bits (rawWord (clearOnRead s p off) p off) r.fld.lo r.fld.w =
      if r.acc = .rc then 0 else bits (rawWord s p off) r.fld.lo r.fld.w := by
  obtain ⟨hm, hw, hd⟩ := h
  have hf := bits_foldl_clearField r (rowsAt p off) (rawWord s p off) hd
  simp only [hm, true_and] at hf
  rw [← hf]
  unfold clearOnRead
  extract_lets m
  have hmf : m = (rowsAt p off).foldl clearField (rawWord s p off) := rfl
  split
  · next he => rw [← hmf, he]
  · rw [rawWord_putWord_self, bits_mod _ _ _ _ hw, hmf]

theorem onlyRegisters_clearOnRead (s : State) (p : Page) (off : Nat) : OnlyRegisters s (clearOnRead s p off) := by
  unfold clearOnRead
  extract_lets m
  split
  · exact OnlyRegisters.refl s
  · exact onlyRegisters_putWord s p off m

theorem wordsBut_clearOnRead (s : State) (p : Page) (off : Nat) : WordsBut [pageBase p + off] s (clearOnRead s p off) := by
  unfold clearOnRead
  extract_lets m
  split
  · exact wordsBut_refl _ s
  · exact wordsBut_putWord s p off m

theorem loOffsets_pkg (b : Nat) : loOffsets (.pkg b) = [] := rfl

/-- A register that neither latches, pops nor belongs to a counter: the word as it shows, its RC fields cleared. -/
theorem regRead_plain {s : State} {p : Page} {off : Nat} (h2 : ¬ (p = .pkg 2 ∧ off = 0x48))
    (h5 : ¬ (p = .pkg 5 ∧ off ∈ [0x204, 0x224, 0x244, 0x264])) (hlo : (loOffsets p).contains off = false)
    (hhi : off < 4 ∨ (loOffsets p).contains (off - 4) = false) :
    regRead s p off = (viewWord s p off, clearOnRead s p off) := by
  have hhi' : ¬ (off ≥ 4 ∧ (loOffsets p).contains (off - 4) = true) := by
    rintro ⟨h4, hc⟩
    rcases hhi with hh | hh
    · omega
    · exact absurd hc (Bool.eq_false_iff.mp hh)
  rw [regRead, if_neg h2, if_neg h5, if_neg (Bool.eq_false_iff.mp hlo), if_neg hhi']

/-- R9: the LO half of a counter latches the HI half. -/
theorem regRead_lo {s : State} {p : Page} {off : Nat} (hlo : (loOffsets p).contains off = true) :
    regRead s p off = (counterWord s p off,
      { s with reg.hiLatch := SMap.put s.reg.hiLatch (pageBase p + off + 4)
                 (BitVec.ofNat 32 (counterWord s p (off + 4))) }) := by
  have hp : ∀ b, p ≠ .pkg b := by
    rintro b rfl
    simp [loOffsets_pkg] at hlo
  rw [regRead, if_neg (fun h => hp 2 h.1), if_neg (fun h => hp 5 h.1), if_pos hlo]

/-- R9: the HI half of a counter is read as it was latched. -/
theorem regRead_hi {s : State} {p : Page} {off : Nat} (h4 : 4 ≤ off) (hhi : (loOffsets p).contains (off - 4) = true)
    (hlo : (loOffsets p).contains off = false) (h2 : p ≠ .pkg 2) (h5 : p ≠ .pkg 5) :
    regRead s p off = ((SMap.getD s.reg.hiLatch (pageBase p + off) 0#32).toNat, s) := by
  rw [regRead, if_neg (fun h => h2 h.1), if_neg (fun h => h5 h.1), if_neg (Bool.eq_false_iff.mp hlo), if_pos ⟨h4, hhi⟩]

/-- Settles O29: the three kinds of register that a read tells apart here. -/
theorem readsAnswerClearAndLatch : Obligations.ReadsAnswerClearAndLatch := by
  unfold Obligations.ReadsAnswerClearAndLatch
  intro s rq a p off hc
  rw [exec_rcRegisterRead, exec_loRegisterRead]
  refine ⟨fun r hr h2 h5 hlo hhi => ?_, fun hlo => ?_, fun h4 hhi hlo h2 h5 => ?_⟩
  · refine completes_doRead hc fun m => ?_
    rw [regRead_plain h2 h5 hlo hhi]
    exact ⟨rfl, bits_clearOnRead hr, (onlyRegisters_clearOnRead s p off).trans (onlyRegisters_end _ _ m false),
      (wordsBut_clearOnRead s p off).of_reg rfl rfl⟩
  · refine completes_doRead hc fun m => ?_
    rw [regRead_lo hlo]
    refine ⟨rfl, ?_, fun k hk => SMap.find_put_ne _ _ hk, rfl, rfl⟩
    simp [SMap.getD]
  · refine completes_doRead hc fun m => ?_
    rw [regRead_hi h4 hhi hlo h2 h5]
    exact ⟨rfl, rfl, rfl⟩

end Sys2Proof.Machine
end

section
/-!
PROOFS. The operations that keep the sets in effect, the captured sets and the fuses (R10, R11): registers, records and errors,
triggers, the stair, and what a Gallery port's change of state sets going.
-/

namespace Sys2Proof.Machine

/-! ### The sets in effect and the captured sets -/

/-- The sets in effect, the captured sets and the fuses are as they were: no effective word of any page differs. -/
@[simp] abbrev SameSets (s u : State) : Prop :=
  u.reg.eff = s.reg.eff ∧ u.reg.captured = s.reg.captured ∧ u.fuse = s.fuse

theorem SameSets.trans {s t u : State} (h : SameSets s t) (k : SameSets t u) : SameSets s u := by
  obtain ⟨heff, hcap, hfuse⟩ := h
  obtain ⟨keff, kcap, kfuse⟩ := k
  exact ⟨keff.trans heff, kcap.trans hcap, kfuse.trans hfuse⟩

theorem SameSets.effWord {s u : State} (h : SameSets s u) (p : Page) (off : Nat) : effWord u p off = effWord s p off := by
  obtain ⟨heff, -, hfuse⟩ := h
  simp only [Machine.effWord, heff, hfuse]

theorem foldl_sameSets {α : Type} {f : State → α → State} (h : ∀ t x, SameSets t (f t x)) (l : List α) (s : State) :
    SameSets s (l.foldl f s) :=
  List.foldlRecOn l f (motive := SameSets s) ⟨rfl, rfl, rfl⟩ fun t ht x _ => ht.trans (h t x)

/-- The sets of a choice between two states. -/
@[simp] theorem ite_sets (c : Prop) [Decidable c] (t u : State) :
    (if c then t else u).reg.eff = (if c then t.reg.eff else u.reg.eff) ∧
    (if c then t else u).reg.captured = (if c then t.reg.captured else u.reg.captured) ∧
    (if c then t else u).fuse = (if c then t.fuse else u.fuse) := by
  split <;> simp

@[simp] theorem putWord_sameSets (s : State) (p : Page) (o v : Nat) : SameSets s (putWord s p o v) := ⟨rfl, rfl, rfl⟩
@[simp] theorem fset_sameSets (s : State) (p : Page) (f : Fld) (v : Nat) : SameSets s (fset s p f v) := ⟨rfl, rfl, rfl⟩
@[simp] theorem fsetb_sameSets (s : State) (p : Page) (f : Fld) (b : Bool) : SameSets s (fsetb s p f b) := ⟨rfl, rfl, rfl⟩
@[simp] theorem fadd_sameSets (s : State) (p : Page) (f : Fld) (k : Nat) : SameSets s (fadd s p f k) := ⟨rfl, rfl, rfl⟩
@[simp] theorem finc_sameSets (s : State) (p : Page) (f : Fld) : SameSets s (finc s p f) := ⟨rfl, rfl, rfl⟩
@[simp] theorem raiseInt_sameSets (s : State) (p : Page) (b : Nat) : SameSets s (raiseInt s p b) := ⟨rfl, rfl, rfl⟩
@[simp] theorem latchFault_sameSets (s : State) (b : Nat) : SameSets s (latchFault s b) := ⟨rfl, rfl, rfl⟩
@[simp] theorem setFlow_sameSets (s : State) (t : Nat) (x : EmbFlow) : SameSets s (setFlow s t x) := ⟨rfl, rfl, rfl⟩
@[simp] theorem putTi_sameSets (s : State) (n : Nat) (t : Ti) : SameSets s (putTi s n t) := ⟨rfl, rfl, rfl⟩
@[simp] theorem enqueuePkt_sameSets (s : State) (p c : Nat) (k : Pkt) : SameSets s (enqueuePkt s p c k) := ⟨rfl, rfl, rfl⟩
@[simp] theorem countUnroutable_sameSets (s : State) : SameSets s (countUnroutable s) := ⟨rfl, rfl, rfl⟩

@[simp] theorem pushRecord_sameSets (s : State) (r : Record) : SameSets s (pushRecord s r) := by
  simp [pushRecord]

@[simp] theorem recordState_sameSets (s : State) (p : Page) (c n o : Nat) : SameSets s (recordState s p c n o) :=
  pushRecord_sameSets _ _

@[simp] theorem captureErr_sameSets (s : State) (p : Page) (d i a : Nat) (j : Bool) : SameSets s (captureErr s p d i a j) := by
  simp [captureErr]

@[simp] theorem reportErr_sameSets (s : State) (p : Page) (d i a : Nat) (j : Bool) : SameSets s (reportErr s p d i a j) := by
  simp [reportErr]

@[simp] theorem setDisc_sameSets (s : State) (n : Nat) : SameSets s (setDisc s n) := by
  simp [setDisc, setFreqAdj]

@[simp] theorem latchVacant_sameSets (s : State) : SameSets s (latchVacant s) := by
  simp [latchVacant]

/-! ### Triggers and the stair -/

@[simp] theorem fireTrigger_sameSets (s : State) (n : Nat) (l : Bool) : SameSets s (fireTrigger s n l) := by
  simp [fireTrigger]

@[simp] theorem armTrigger_sameSets (s : State) (n : Nat) : SameSets s (armTrigger s n) := by
  simp only [armTrigger]
  split
  · split
    · split <;> simp
    · simp
  · split <;> simp

@[simp] theorem newelChanged_sameSets (s : State) (o : Nat) : SameSets s (newelChanged s o) := by
  simp [newelChanged]

theorem takeStairSet_sameSets (s : State) (ws : List (Nat × Word)) :
    SameSets (setEffect s (.pkg 3) ws) (takeStairSet s ws) := by
  simp [takeStairSet]

/-! ### What the answer to a Gallery request does at its source -/

@[simp] theorem faultCtx_sameSets (s : State) (n c code a pc : Nat) : SameSets s (faultCtx s n c code a pc) := by
  simp only [faultCtx]
  split <;> simp

@[simp] theorem hostAnswer_sameSets (s : State) (wr : Bool) (r : AccRes) (d : List Nat) (n : Nat) :
    SameSets s (hostAnswer s wr r d n) := by
  cases r <;> simp [hostAnswer]

@[simp] theorem tiFault_sameSets (s : State) (n i c : Nat) : SameSets s (tiFault s n i c) := by
  unfold tiFault
  split
  · split <;> simp
  · simp

@[simp] theorem loadAnswered_sameSets (s : State) (n c t st : Nat) (d : List Nat) :
    SameSets s (loadAnswered s n c t st d) := by
  simp only [loadAnswered]
  split <;> simp

@[simp] theorem storeAnswered_sameSets (s : State) (n c pc st : Nat) : SameSets s (storeAnswered s n c pc st) := by
  simp [storeAnswered]

@[simp] theorem unitAnswered_sameSets (s : State) (n i st : Nat) : SameSets s (unitAnswered s n i st) := by
  unfold unitAnswered
  split <;> simp

@[simp] theorem ownerAnswered_sameSets (s : State) (t : Nat) (g : GTag) (st : Nat) (d : List Nat) :
    SameSets s (ownerAnswered s t g st d) := by
  unfold ownerAnswered
  split
  · simp
  · cases g.owner with
    | unitRead slot id addr =>
      dsimp only
      split <;> simp
    | load slot c => simp
    | store slot c pc => simp
    | unitWrite slot id => simp
    | contrib t => simp
    | line cl t a => simp
    | host wr len => simp

@[simp] theorem tagAnswered_sameSets (s : State) (t st : Nat) (d : List Nat) : SameSets s (tagAnswered s t st d) := by
  unfold tagAnswered
  split <;> simp

/-! ### Routing and the links -/

theorem routeOnce_sameSets {s u : State} {arr : Option Nat} {k : Pkt} (h : routeOnce s arr k = some u) : SameSets s u := by
  unfold routeOnce at h
  split at h
  · cases h
  · split at h
    · cases h
    · extract_lets same cls k' p q at h
      split at h
      · cases h
        simp
      · split at h
        · cases h
        · split at h
          · cases h
            simp
          · cases h

@[simp] theorem sendResponse_sameSets (s : State) (k : Pkt) : SameSets s (sendResponse s k) := by
  unfold sendResponse
  split
  · simp
  · split
    · next h => exact routeOnce_sameSets h
    · simp

@[simp] theorem routePkt_sameSets (s : State) (arr : Option Nat) (k : Pkt) : SameSets s (routePkt s arr k) := by
  unfold routePkt
  split
  · next h => simpa using routeOnce_sameSets h
  · simp

theorem enterState_sameSets (s : State) (p st : Nat) : SameSets s (enterState s p st).1 := by
  unfold enterState
  extract_lets was s1 x g now s2 s3 y lost s4 s5
  split
  · simp [s2, s1]
  · split
    · simp [s3, s2, s1]
    · simp [s5, s4, s3, s2, s1]

@[simp] theorem toState_sameSets (s : State) (p st : Nat) : SameSets s (toState s p st) :=
  (enterState_sameSets s p st).trans (foldl_sameSets (fun _ _ => routePkt_sameSets _ _ _) _ _)

theorem galEnables_sameSets (s : State) : SameSets s (galEnables s) :=
  foldl_sameSets (fun t p => by simp) _ s

theorem galRetrainAll_sameSets (s : State) : SameSets s (galRetrainAll s) :=
  foldl_sameSets (fun t p => by simp) _ s

end Sys2Proof.Machine
end

section
/-!
PROOFS. What a set leaves in effect, and what a commit and a safe point do (R10 to R13, R634, R659).
-/

namespace Sys2Proof.Machine

/-! ### Sorted lists -/

theorem SMap.find_none_of_sorted {α : Type} {m : List (Nat × α)} {b k : Nat} (h : SMap.sorted (some b) m = true)
    (hk : k ≤ b) : SMap.find m k = none := by
  induction m generalizing b with
  | nil => rfl
  | cons e m ih =>
    obtain ⟨a, v⟩ := e
    simp only [SMap.sorted, Bool.and_eq_true, decide_eq_true_eq] at h
    obtain ⟨hb, hm⟩ := h
    simp only [SMap.find, if_neg (show k ≠ a by omega)]
    exact ih hm (by omega)

/-- A filter by key keeps or drops all that a key lists. -/
theorem SMap.find_filter_key {α : Type} (m : List (Nat × α)) (f : Nat → Bool) (k : Nat) :
    SMap.find (m.filter (fun e => f e.1)) k = if f k then SMap.find m k else none := by
  induction m with
  | nil => simp [SMap.find]
  | cons e m ih =>
    obtain ⟨a, v⟩ := e
    rw [List.filter_cons]
    by_cases hk : k = a
    · subst hk
      split
      · simp [SMap.find]
      · next hf => simp [ih, show ¬ f k = true from hf]
    · split
      · simp only [SMap.find, if_neg hk, ih]
      · simp only [SMap.find, if_neg hk, ih]

/-- Putting the words of a list at offsets from `b` leaves every other key. -/
theorem SMap.find_putAll_other {α : Type} (b k : Nat) (ws m : List (Nat × α)) (h : ∀ w ∈ ws, k ≠ b + w.1) :
    SMap.find (ws.foldl (fun m w => SMap.put m (b + w.1) w.2) m) k = SMap.find m k := by
  induction ws generalizing m with
  | nil => rfl
  | cons w ws ih =>
    rw [List.foldl_cons, ih _ (fun x hx => h x (List.mem_cons_of_mem w hx)),
      SMap.find_put_ne _ _ (h w List.mem_cons_self)]

/-- Putting the words of a sorted list at offsets from `b` leaves each of them at its own offset. -/
theorem SMap.find_putAll {α : Type} (b off : Nat) {ws : List (Nat × α)} (m : List (Nat × α)) {lo : Option Nat}
    (h : SMap.sorted lo ws = true) :
    SMap.find (ws.foldl (fun m w => SMap.put m (b + w.1) w.2) m) (b + off) =
      (SMap.find ws off).or (SMap.find m (b + off)) := by
  induction ws generalizing m lo with
  | nil => rfl
  | cons w ws ih =>
    obtain ⟨a, v⟩ := w
    have hs : SMap.sorted (some a) ws = true := by
      cases lo <;> simp_all [SMap.sorted]
    rw [List.foldl_cons, ih _ hs]
    by_cases he : off = a
    · subst he
      simp [SMap.find, SMap.find_none_of_sorted hs (Nat.le_refl off)]
    · simp only [SMap.find, if_neg he]
      rw [SMap.find_put_ne _ _ (by omega)]

/-! ### Words in effect -/

/-- The addresses outside the page at `b`. -/
def outsidePage (b a : Nat) : Bool := a < b || b + 0x1000 ≤ a

/-- The effective words once a set is put into effect: those outside its page, and the set. -/
theorem setEffect_eff (s : State) (p : Page) (ws : List (Nat × Word)) :
    (setEffect s p ws).reg.eff = ws.foldl (fun m w => SMap.put m (pageBase p + w.1) w.2)
      (s.reg.eff.filter (fun e => outsidePage (pageBase p) e.1)) := rfl

theorem setEffect_fuse (s : State) (p : Page) (ws : List (Nat × Word)) : (setEffect s p ws).fuse = s.fuse := rfl

/-- A set put into effect is the page's effective words, one for one. -/
theorem effWord_setEffect_self {s : State} {p : Page} {ws : List (Nat × Word)} (hs : SMap.sorted none ws = true) {off : Nat}
    (ho : off < 0x1000) : effWord (setEffect s p ws) p off = setWord s p ws off := by
  have hout : ¬ outsidePage (pageBase p) (pageBase p + off) = true := by simp [outsidePage, ho]
  have hfind : SMap.find (setEffect s p ws).reg.eff (pageBase p + off) = SMap.find ws off := by
    simp only [setEffect_eff, SMap.find_putAll _ _ _ hs, SMap.find_filter_key, if_neg hout, Option.or_none]
  cases hw : SMap.find ws off with
  | none => simp only [effWord, setWord, hfind, hw, setEffect_fuse]
  | some w => simp only [effWord, setWord, hfind, hw]

/-- A set put into effect leaves the effective words of every other page. -/
theorem effWord_setEffect_ne {s : State} {p q : Page} {ws : List (Nat × Word)} (hw : ∀ w ∈ ws, w.1 < 0x1000) {off : Nat}
    (ho : off < 0x1000) (hq : pageBase q ≠ pageBase p) : effWord (setEffect s p ws) q off = effWord s q off := by
  have hp := pageBase_mod p
  have hq' := pageBase_mod q
  have hout : outsidePage (pageBase p) (pageBase q + off) = true := by
    simp only [outsidePage, Bool.or_eq_true, decide_eq_true_eq]
    omega
  have hput : ∀ w ∈ ws, pageBase q + off ≠ pageBase p + w.1 := by
    intro w hm
    have := hw w hm
    omega
  simp only [effWord, setEffect_eff, SMap.find_putAll_other _ _ _ _ hput, SMap.find_filter_key, if_pos hout,
    setEffect_fuse]

/-! ### A CORE_MAP set -/

/-- `u` differs from `s` in no captured set and no fuse, and in no effective word of the page at `b`. -/
structure KeepsPage (b : Nat) (s u : State) : Prop where
  captured : u.reg.captured = s.reg.captured
  fuse : u.fuse = s.fuse
  eff : ∀ off, off < 0x1000 → SMap.find u.reg.eff (b + off) = SMap.find s.reg.eff (b + off)

theorem KeepsPage.refl (b : Nat) (s : State) : KeepsPage b s s := ⟨rfl, rfl, fun _ _ => rfl⟩

theorem KeepsPage.trans {b : Nat} {s t u : State} (h : KeepsPage b s t) (k : KeepsPage b t u) : KeepsPage b s u :=
  ⟨k.captured.trans h.captured, k.fuse.trans h.fuse, fun off ho => (k.eff off ho).trans (h.eff off ho)⟩

theorem SameSets.keepsPage {s u : State} (h : SameSets s u) (b : Nat) : KeepsPage b s u := by
  obtain ⟨heff, hcap, hfuse⟩ := h
  exact ⟨hcap, hfuse, fun _ _ => by rw [heff]⟩

theorem KeepsPage.effWord {p : Page} {s u : State} (h : KeepsPage (pageBase p) s u) {off : Nat} (ho : off < 0x1000) :
    effWord u p off = effWord s p off := by
  simp only [Machine.effWord, h.fuse, h.eff off ho]

/-- An effective word of a page leaves every other page's. -/
theorem keepsPage_putEff {b : Nat} {q : Page} (hb : b % 0x1000 = 0) (hq : pageBase q ≠ b) (s : State) {o : Nat}
    (ho : o < 0x1000) (v : Word) :
    KeepsPage b s { s with reg.eff := SMap.put s.reg.eff (pageBase q + o) v } := by
  have := pageBase_mod q
  exact ⟨rfl, rfl, fun off hoff => SMap.find_put_ne _ _ (by omega)⟩

/-- The registers that a slot's access table takes from its die's template, with those of the template (R636). -/
def templateOffsets : List (Nat × Nat) :=
  (0x58, 0x80) :: (0x5C, 0x84) :: (List.range 32).map (fun i => (0x100 + 4 * i, 0x200 + 4 * i))

theorem templateOffsets_lt : ∀ w ∈ templateOffsets, w.1 < 0x1000 := by decide

theorem keepsPage_loadTemplate {b n : Nat} (hb : b % 0x1000 = 0) (hn : pageBase (.core n 11) ≠ b) (s : State) :
    KeepsPage b s (loadTemplate s n) := by
  unfold loadTemplate
  extract_lets p q ws t
  have ht : KeepsPage b s t := by
    refine List.foldlRecOn ws _ (motive := KeepsPage b s) (.refl b s) fun r hr w hw => hr.trans ?_
    extract_lets v r'
    have hr' : KeepsPage b r r' := SameSets.keepsPage (by simp only [r']; split <;> simp) b
    split
    · exact hr'
    · exact hr'.trans (keepsPage_putEff hb hn r' (templateOffsets_lt w hw) _)
  split
  · exact ht.trans ((fsetb_sameSets t p _ true).keepsPage b)
  · exact ht

theorem clearSpm_sameSets (s : State) (n : Nat) : SameSets s (clearSpm s n) := ⟨rfl, rfl, rfl⟩

theorem keepsPage_promoteSlot {b n : Nat} (hb : b % 0x1000 = 0) (hn : pageBase (.core n 11) ≠ b) (s : State) :
    KeepsPage b s (promoteSlot s n) := by
  unfold promoteSlot
  extract_lets x s1 s2
  have h1 : SameSets s (clearSpm s1 n) := clearSpm_sameSets s1 n
  have h2 : KeepsPage b s s2 := (h1.keepsPage b).trans (keepsPage_loadTemplate hb hn _)
  exact h2.trans ((foldl_sameSets (fun t i => fset_sameSets t _ _ _) _ s2).keepsPage b)

/-- The access table of a slot is no page of cluster scope. -/
theorem pageBase_core_ne_cl (d c k e : Nat) : pageBase (.core (slotOf d c k) 11) ≠ pageBase (.cl e c 0) := by
  simp only [pageBase, slotK]
  omega

theorem keepsPage_takeCoreMap (s : State) (d c : Nat) (ws : List (Nat × Word)) :
    KeepsPage (pageBase (.cl d c 0)) (setEffect s (.cl d c 0) ws) (takeCoreMap s d c ws) := by
  unfold takeCoreMap
  extract_lets was t
  refine KeepsPage.trans ?_ ((latchVacant_sameSets _).keepsPage _)
  exact List.foldlRecOn _ _ (motive := KeepsPage _ t) (.refl _ t) fun r hr k _ =>
    hr.trans (keepsPage_promoteSlot (pageBase_mod _) (pageBase_core_ne_cl d c k d) r)

/-! ### A set takes effect -/

/-- Beside the set itself, no page's taking effect changes a set, but for a CORE_MAP's. -/
theorem takeSet_sameSets {s : State} {p : Page} (ws : List (Nat × Word)) (hp : ∀ d k, p ≠ .cl d k 0) :
    SameSets (setEffect s p ws) (takeSet s p ws) := by
  unfold takeSet
  split
  · simp
  · exact takeStairSet_sameSets s ws
  · exact foldl_sameSets armTrigger_sameSets _ _
  · extract_lets shape was t
    have ht : SameSets (setEffect s (.pkg 8) ws) t := galEnables_sameSets _
    split
    · exact ht
    · exact ht.trans (galRetrainAll_sameSets t)
  · exact ⟨rfl, rfl, rfl⟩
  · next d c => exact absurd rfl (hp d c)
  · exact ⟨rfl, rfl, rfl⟩

/-- Whatever the page, its own effective words and the captured sets are those of the set itself. -/
theorem takeSet_keepsPage (s : State) (p : Page) (ws : List (Nat × Word)) :
    KeepsPage (pageBase p) (setEffect s p ws) (takeSet s p ws) := by
  by_cases hp : ∃ d c, p = .cl d c 0
  · obtain ⟨d, c, rfl⟩ := hp
    exact keepsPage_takeCoreMap s d c ws
  · exact (takeSet_sameSets ws (fun d c h => hp ⟨d, c, h⟩)).keepsPage _

/-- R11: a set that takes effect is in effect word for word, and, unless it is a CORE_MAP's, no other page's words differ. -/
structure InEffect (s : State) (p : Page) (ws : List (Nat × Word)) (u : State) : Prop where
  words : ∀ off, off < 0x1000 → effWord u p off = setWord s p ws off
  captured : capturedOf u p = none
  others : (∀ d k, p ≠ .cl d k 0) →
    ∀ q off, off < 0x1000 → pageBase q ≠ pageBase p → effWord u q off = effWord s q off

/-- `InEffect` speaks of the register pages and the fuses alone. -/
theorem InEffect.of_reg {s t u : State} {p : Page} {ws : List (Nat × Word)} (h : InEffect s p ws t) (hr : u.reg = t.reg)
    (hf : u.fuse = t.fuse) : InEffect s p ws u := by
  obtain ⟨hw, hc, ho⟩ := h
  have he : effWord u = effWord t := effWord_congr hr hf
  exact ⟨by rwa [he], by rwa [capturedOf, hr], by rwa [he]⟩

theorem takeSet_inEffect {s : State} {p : Page} {ws : List (Nat × Word)} (hs : SMap.sorted none ws = true)
    (hw : ∀ w ∈ ws, w.1 < 0x1000) (hc : capturedOf s p = none) : InEffect s p ws (takeSet s p ws) where
  words off ho := ((takeSet_keepsPage s p ws).effWord ho).trans (effWord_setEffect_self hs ho)
  captured := by rw [capturedOf, (takeSet_keepsPage s p ws).captured]; exact hc
  others hp q off ho hq := ((takeSet_sameSets ws hp).effWord q off).trans (effWord_setEffect_ne hw ho hq)

/-- R12, R13: a captured set that passes its check is in effect and no longer captured. -/
theorem takeCaptured_inEffect {s : State} {p : Page} {c : Captured} (hs : SMap.sorted none c.words = true)
    (hw : ∀ w ∈ c.words, w.1 < 0x1000) (hok : setOk s p c.words = true) : InEffect s p c.words (takeCaptured s p c) := by
  rw [takeCaptured, if_pos hok]
  obtain ⟨hwords, hcap, hothers⟩ := takeSet_inEffect (s := dropCaptured s p) hs hw (SMap.find_del_self _ _)
  exact ⟨hwords, hcap, hothers⟩

/-- R12: what the refusal of a captured set leaves. -/
structure SetRefused (s : State) (p : Page) (u : State) : Prop where
  commitErr : fget u p HDR.PAGE_STATUS_COMMIT_ERR = 1
  captured : capturedOf u p = none
  eff : u.reg.eff = s.reg.eff
  frame : OnlyRegisters s u

theorem refuseSet_refused (s : State) (p : Page) : SetRefused s p (refuseSet s p) :=
  ⟨fget_fset_self (dropCaptured s p) p HDR.PAGE_STATUS_COMMIT_ERR 1 (by decide), SMap.find_del_self _ _, rfl, rfl⟩

theorem takeCaptured_refused {s : State} {p : Page} {c : Captured} (hno : setOk s p c.words = false) :
    takeCaptured s p c = refuseSet s p := by
  rw [takeCaptured, if_neg (by simp [hno])]

/-! ### The safe point (R11 to R13) -/

/-- Before its page's safe point a captured set waits. -/
theorem commitTakeEffect_waits {s : State} {p : Page} {c : Captured} (hc : capturedOf s p = some c)
    (hp : atSafePoint s p c = false) : exec (.commitTakeEffect p) s = .next s := by
  simp only [exec_commitTakeEffect, execCommitTakeEffect, hc, hp, Bool.false_eq_true, if_false]

/-- At the safe point the captured set is checked and put into effect, or refused. -/
theorem commitTakeEffect_takes {s : State} {p : Page} {c : Captured} (hc : capturedOf s p = some c)
    (hp : atSafePoint s p c = true) : exec (.commitTakeEffect p) s = done (takeCaptured s p c) := by
  simp only [exec_commitTakeEffect, execCommitTakeEffect, hc, hp, if_true]

/-- A set that fails its check is refused whole. -/
theorem commitTakeEffect_refused {s : State} {p : Page} {c : Captured} (hc : capturedOf s p = some c)
    (hp : atSafePoint s p c = true) (hno : setOk s p c.words = false) :
    Completes (exec (.commitTakeEffect p) s) (SetRefused s p) := by
  rw [commitTakeEffect_takes hc hp, takeCaptured_refused hno]
  obtain ⟨herr, hcap, heff, hreg⟩ := refuseSet_refused s p
  exact completes_done fun m => ⟨herr, hcap, heff, hreg⟩

/-- A set that passes its check is in effect, word for word. -/
theorem commitTakeEffect_inEffect {s : State} {p : Page} {c : Captured} (hc : capturedOf s p = some c)
    (hs : SMap.sorted none c.words = true) (hw : ∀ w ∈ c.words, w.1 < 0x1000) (hp : atSafePoint s p c = true)
    (hok : setOk s p c.words = true) : Completes (exec (.commitTakeEffect p) s) (InEffect s p c.words) := by
  rw [commitTakeEffect_takes hc hp]
  exact completes_done fun m => (takeCaptured_inEffect hs hw hok).of_reg rfl rfl

/-! ### PAGE_COMMIT (R11, R13) -/

/-- A write of PAGE_COMMIT does what `commitPage` says. -/
theorem completes_pageCommit {s : State} {rq : Requester} {p : Page} {v : Word} {P : State → Prop}
    (hc : Accepted s rq (pageBase p + 0x10) false true p)
    (h : ∀ m, P { commitPage s p v.toNat with ans := .none, msix := m, err.inj := false }) :
    Completes (exec (.pageCommit rq p v) s) P := by
  have hoff : (pageBase p + 0x10) % 0x1000 = 0x10 := by
    have := pageBase_mod p
    omega
  rw [exec_pageCommit]
  refine completes_doWrite hc ?_
  rw [hoff]
  exact h

/-- The state once the page's shadow is captured, in place of a set captured before. -/
def captureShadow (s : State) (p : Page) : State :=
  { s with reg.captured := SMap.put s.reg.captured (pageBase p) ⟨shadowSet s p, false⟩ }

theorem capturedOf_captureShadow_self (s : State) (p : Page) :
    capturedOf (captureShadow s p) p = some ⟨shadowSet s p, false⟩ := SMap.find_put_self _ _ _

theorem capturedOf_captureShadow_ne (s : State) {p q : Page} (h : pageBase q ≠ pageBase p) :
    capturedOf (captureShadow s p) q = capturedOf s q := SMap.find_put_ne _ _ h

theorem commitPage_otherKey {s : State} {p : Page} {key : Nat} (h : key % 256 ≠ 0xC0) : commitPage s p key = s := by
  simp [commitPage, h]

theorem commitPage_locked {s : State} {p : Page} {key : Nat} (hk : key % 256 = 0xC0) (hs : pageShadows p = true)
    (hl : pageLocked s p = true) : commitPage s p key = viol s p := by
  simp [commitPage, hk, hs, hl]

/-- The pages whose set the commit itself takes up (R634, R659). -/
def TakenAtCommit (p : Page) : Prop := p = .pkg 7 ∨ p = .pkg 9 ∨ (∃ d, p = .die d 7) ∨ ∃ n, p = .core n 11

section Unlocked

variable {s : State} {p : Page} {key : Nat} (hk : key % 256 = 0xC0) (hs : pageShadows p = true)
  (hl : pageLocked s p = false)
include hk hs hl

theorem commitPage_captures (h4 : p ≠ .pkg 4) (hp : ¬ TakenAtCommit p) : commitPage s p key = captureShadow s p := by
  have hguard : ¬ (decide (key % 256 ≠ 0xC0) || !pageShadows p) = true := by simp [hk, hs]
  unfold commitPage
  rw [if_neg hguard, if_neg (by simp [hl])]
  dsimp only
  split
  · exact absurd rfl h4
  · exact absurd (.inl rfl) hp
  · exact absurd (.inr (.inl rfl)) hp
  · next d => exact absurd (.inr (.inr (.inl ⟨d, rfl⟩))) hp
  · next n => exact absurd (.inr (.inr (.inr ⟨n, rfl⟩))) hp
  · rfl

theorem commitPage_takes (hp : TakenAtCommit p) :
    commitPage s p key = takeCaptured (captureShadow s p) p ⟨shadowSet s p, false⟩ := by
  have hguard : ¬ (decide (key % 256 ≠ 0xC0) || !pageShadows p) = true := by simp [hk, hs]
  unfold commitPage
  rw [if_neg hguard, if_neg (by simp [hl])]
  dsimp only
  split
  · simp [TakenAtCommit] at hp
  · rfl
  · rfl
  · rfl
  · rfl
  · next h7 h9 hdie hcore =>
    obtain h | h | ⟨d, h⟩ | ⟨n, h⟩ := hp
    · exact absurd h h7
    · exact absurd h h9
    · exact absurd h (hdie d)
    · exact absurd h (hcore n)

end Unlocked

theorem commitPage_ports {s : State} {key : Nat} (hk : key % 256 = 0xC0) :
    commitPage s (.pkg 4) key =
      if setOk s (.pkg 4) (shadowSet s (.pkg 4)) then
        { captureShadow s (.pkg 4) with ports.portPend := (List.range 4).map (fun n => (n, shadowSet s (.pkg 4))) }
      else { refuseSet (captureShadow s (.pkg 4)) (.pkg 4) with ports.portPend := [] } := by
  have hguard : ¬ (decide (key % 256 ≠ 0xC0) || !pageShadows (.pkg 4)) = true := by
    simp only [hk]
    decide
  unfold commitPage
  rw [if_neg hguard]
  rfl

/-- The check of a page taken at its commit, or of page B4, looks at the set and the fuses alone. -/
theorem setOk_captureShadow {s : State} {p : Page} (hp : p = .pkg 4 ∨ TakenAtCommit p) (ws : List (Nat × Word)) :
    setOk (captureShadow s p) p ws = setOk s p ws := by
  obtain rfl | rfl | rfl | ⟨d, rfl⟩ | ⟨n, rfl⟩ := hp <;> rfl

/-- The shadow of a page is listed in rising order, within the page. -/
theorem shadowSet_lt (s : State) (p : Page) : ∀ w ∈ shadowSet s p, w.1 < 0x1000 := by
  intro w hw
  simp only [shadowSet, List.mem_filterMap] at hw
  obtain ⟨e, _, he⟩ := hw
  split at he
  · next h =>
    cases he
    dsimp only
    omega
  · cases he

/-- Listing the entries from `b` up by their distance from `b` keeps their order. -/
theorem SMap.sorted_filterMap_sub {α : Type} (b : Nat) (P : Nat → Prop) [DecidablePred P]
    (m : List (Nat × α)) (lo : Nat) (h : SMap.sorted (some lo) m = true) (hlo : b ≤ lo) :
    SMap.sorted (some (lo - b)) (m.filterMap (fun e => if P e.1 then some (e.1 - b, e.2) else none)) = true := by
  induction m generalizing lo with
  | nil => rfl
  | cons e m ih =>
    obtain ⟨a, v⟩ := e
    simp only [SMap.sorted, Bool.and_eq_true, decide_eq_true_eq] at h
    obtain ⟨ha, hm⟩ := h
    rw [List.filterMap_cons]
    split
    · next hn => exact SMap.sorted_weaken _ _ _ (by omega) (ih a hm (by omega))
    · next he =>
      split at he
      · cases he
        simp only [SMap.sorted, Bool.and_eq_true, decide_eq_true_eq]
        exact ⟨by omega, ih a hm (by omega)⟩
      · cases he

/-- The same of a list that may begin below `b`. -/
theorem SMap.sorted_filterMap_from {α : Type} (b : Nat) (P : Nat → Prop) [DecidablePred P] (hP : ∀ k, P k → b ≤ k)
    (m : List (Nat × α)) (h : SMap.sorted none m = true) :
    SMap.sorted none (m.filterMap (fun e => if P e.1 then some (e.1 - b, e.2) else none)) = true := by
  induction m with
  | nil => rfl
  | cons e m ih =>
    obtain ⟨a, v⟩ := e
    have hm : SMap.sorted (some a) m = true := h
    by_cases hp : P a
    · simpa [hp, SMap.sorted] using SMap.sorted_filterMap_sub b P m a hm (hP a hp)
    · simpa [hp] using ih (SMap.sorted_of_bound m a hm)

theorem sorted_shadowSet {s : State} (p : Page) (h : SMap.sorted none s.reg.regs = true) :
    SMap.sorted none (shadowSet s p) = true :=
  SMap.sorted_filterMap_from (pageBase p) (fun k => pageBase p ≤ k ∧ k < pageBase p + 0x1000 ∧ isShadow p (k - pageBase p))
    (fun _ hk => hk.1) _ h

/-- A set refused at its commit: by page B4's check, or by that of a page taken at its commit. -/
theorem pageCommit_refused {s : State} {rq : Requester} {p : Page} {v : Word} (hk : v.toNat % 256 = 0xC0)
    (hs : pageShadows p = true) (hl : pageLocked s p = false) (hc : Accepted s rq (pageBase p + 0x10) false true p)
    (hp : p = .pkg 4 ∨ TakenAtCommit p) (hno : setOk s p (shadowSet s p) = false) :
    Completes (exec (.pageCommit rq p v) s) (fun u =>
      fget u p HDR.PAGE_STATUS_COMMIT_ERR = 1 ∧ capturedOf u p = none ∧ u.reg.eff = s.reg.eff ∧
      (p = .pkg 4 → u.ports.portPend = [])) := by
  obtain ⟨herr, hcap, heff, -⟩ := refuseSet_refused (captureShadow s p) p
  refine completes_pageCommit hc fun m => ?_
  by_cases h4 : p = .pkg 4
  · subst h4
    rw [commitPage_ports hk, if_neg (by simp [hno])]
    exact ⟨herr, hcap, heff, fun _ => rfl⟩
  · have hno' : setOk (captureShadow s p) p (shadowSet s p) = false := (setOk_captureShadow hp _).trans hno
    rw [commitPage_takes hk hs hl (hp.resolve_left h4), takeCaptured_refused (c := ⟨shadowSet s p, false⟩) hno']
    exact ⟨herr, hcap, heff, fun h => absurd h h4⟩

/-- R730: page B4's set waits for each port's frame boundary. -/
theorem pageCommit_ports {s : State} {rq : Requester} {v : Word} (hk : v.toNat % 256 = 0xC0)
    (hc : Accepted s rq (pageBase (.pkg 4) + 0x10) false true (.pkg 4))
    (hok : setOk s (.pkg 4) (shadowSet s (.pkg 4)) = true) :
    Completes (exec (.pageCommit rq (.pkg 4) v) s) (fun u =>
      u.reg.eff = s.reg.eff ∧ ∀ n, n < 4 → SMap.find u.ports.portPend n = some (shadowSet s (.pkg 4))) := by
  refine completes_pageCommit hc fun m => ?_
  rw [commitPage_ports hk, if_pos hok]
  refine ⟨rfl, fun n hn => ?_⟩
  have h4 : n = 0 ∨ n = 1 ∨ n = 2 ∨ n = 3 := by omega
  obtain rfl | rfl | rfl | rfl := h4 <;> rfl

/-- R634, R659: a set taken at its commit is in effect, word for word. -/
theorem pageCommit_taken {s : State} {rq : Requester} {p : Page} {v : Word} (hk : v.toNat % 256 = 0xC0)
    (hs : pageShadows p = true) (hl : pageLocked s p = false) (hc : Accepted s rq (pageBase p + 0x10) false true p)
    (hp : TakenAtCommit p) (hok : setOk s p (shadowSet s p) = true) (hr : SMap.sorted none s.reg.regs = true) :
    Completes (exec (.pageCommit rq p v) s) (InEffect (captureShadow s p) p (shadowSet s p)) := by
  refine completes_pageCommit hc fun m => ?_
  rw [commitPage_takes hk hs hl hp]
  exact (takeCaptured_inEffect (c := ⟨shadowSet s p, false⟩) (sorted_shadowSet p hr) (shadowSet_lt s p)
    ((setOk_captureShadow (.inr hp) _).trans hok)).of_reg rfl rfl

/-- Settles O31: each clause is one of the cases of `commitPage`. -/
theorem commitsCaptureTheShadow : Obligations.CommitsCaptureTheShadow := by
  unfold Obligations.CommitsCaptureTheShadow
  intro s rq p v _ hc
  refine ⟨fun hk => ?_, fun hk hs hl => ?_, fun hk hs hl h4 h7 h9 hd hn => ?_, fun hk hs hl => ⟨fun hno hp => ?_,
    fun hok => ⟨?_, fun hp hr => ?_⟩⟩⟩
  · refine completes_pageCommit hc fun m => ?_
    rw [commitPage_otherKey hk]
    exact ⟨rfl, rfl, rfl⟩
  · refine completes_pageCommit hc fun m => ?_
    rw [commitPage_locked hk hs hl]
    exact ⟨fget_viol s p, rfl, (wordsBut_viol s p).of_reg rfl rfl⟩
  · have hp : ¬ TakenAtCommit p := by
      rintro (h | h | ⟨d, h⟩ | ⟨n, h⟩)
      · exact h7 h
      · exact h9 h
      · exact hd d h
      · exact hn n h
    refine completes_pageCommit hc fun m => ?_
    rw [commitPage_captures hk hs hl h4 hp]
    exact ⟨capturedOf_captureShadow_self s p, rfl, rfl, fun q hq => capturedOf_captureShadow_ne s hq, rfl⟩
  · exact pageCommit_refused hk hs hl hc hp hno
  · rintro rfl
    exact pageCommit_ports hk hc hok
  · obtain ⟨t, ht, hw, hcap, -⟩ := pageCommit_taken hk hs hl hc hp hok hr
    exact ⟨t, ht, hcap, hw⟩

end Sys2Proof.Machine
end

section
/-!
PROOFS. The B4 set that a port takes at its frame boundary (R730), and what an update of the ring bypass leaves alone (R113 to
R115, R118).
-/

namespace Sys2Proof.Machine

/-! ### What the bypass leaves alone -/

/-- The sets of the ports, memory, the contexts and the fuses are as they were. -/
@[simp] abbrev SamePorts (s u : State) : Prop :=
  u.ports.portEff = s.ports.portEff ∧ u.ports.portPend = s.ports.portPend ∧ u.mem = s.mem ∧ u.ctx = s.ctx ∧
    u.fuse = s.fuse

theorem SamePorts.trans {s t u : State} (h : SamePorts s t) (k : SamePorts t u) : SamePorts s u := by
  obtain ⟨heff, hpend, hmem, hctx, hfuse⟩ := h
  obtain ⟨keff, kpend, kmem, kctx, kfuse⟩ := k
  exact ⟨keff.trans heff, kpend.trans hpend, kmem.trans hmem, kctx.trans hctx, kfuse.trans hfuse⟩

/-- What the ports take of a choice between two states. -/
@[simp] theorem ite_ports (c : Prop) [Decidable c] (t u : State) :
    (if c then t else u).ports.portEff = (if c then t.ports.portEff else u.ports.portEff) ∧
    (if c then t else u).ports.portPend = (if c then t.ports.portPend else u.ports.portPend) ∧
    (if c then t else u).mem = (if c then t.mem else u.mem) ∧
    (if c then t else u).ctx = (if c then t.ctx else u.ctx) := by
  split <;> simp

@[simp] theorem fsetb_samePorts (s : State) (p : Page) (f : Fld) (b : Bool) : SamePorts s (fsetb s p f b) :=
  ⟨rfl, rfl, rfl, rfl, rfl⟩
@[simp] theorem finc_samePorts (s : State) (p : Page) (f : Fld) : SamePorts s (finc s p f) := ⟨rfl, rfl, rfl, rfl, rfl⟩
@[simp] theorem noteCauses_samePorts (s : State) : SamePorts s (noteCauses s) := ⟨rfl, rfl, rfl, rfl, rfl⟩

@[simp] theorem dropLink_samePorts (s : State) (n : Nat) : SamePorts s (dropLink s n) := by
  simp [dropLink]

@[simp] theorem recordState_samePorts (s : State) (p : Page) (c n o : Nat) : SamePorts s (recordState s p c n o) := by
  simp [recordState, record, pushRecord]

@[simp] theorem bypassChange_samePorts (s : State) (c : Bool) : SamePorts s (bypassChange s c) := by
  simp [bypassChange]

@[simp] theorem bypassClose_samePorts (s : State) : SamePorts s (bypassClose s) := by
  simp [bypassClose]

theorem bypassUpdate_samePorts (s : State) : SamePorts s (bypassUpdate s) := by
  simp [bypassUpdate]

/-! ### A link that is down -/

/-- The link of port `n` is down. -/
def LinkDown (n : Nat) (s : State) : Prop := fget s (.pkg 4) (PB4.PORT_STATUS_LINK n) = 0

/-- A word other than the port's PORT_STATUS leaves its link down. -/
theorem LinkDown.putWord {n : Nat} {s : State} (h : LinkDown n s) (p : Page) (o v : Nat)
    (ho : 0x7F4104 + 0x80 * n ≠ pageBase p + o) : LinkDown n (putWord s p o v) := by
  have hb : pageBase (.pkg 4) + (PB4.PORT_STATUS_LINK n).off ≠ pageBase p + o := by
    show 0x7F4000 + (0x104 + 0x80 * n) ≠ pageBase p + o
    omega
  exact (fget_putWord_ne s p (.pkg 4) o v _ hb).trans h

/-- A field of some PORT_STATUS other than LINK leaves the link down. -/
theorem LinkDown.fsetStatus {n : Nat} {s : State} (h : LinkDown n s) (m lo w v : Nat) (hlo : 1 ≤ lo) :
    LinkDown n (fset s (.pkg 4) ⟨0x104 + 0x80 * m, lo, w⟩ v) := by
  by_cases he : n = m
  · subst he
    exact (fget_fset_field s (.pkg 4) ⟨0x104 + 0x80 * n, lo, w⟩ (PB4.PORT_STATUS_LINK n) v rfl (Nat.le_of_ble_eq_true rfl)
      (.inl hlo)).trans h
  · exact h.putWord (.pkg 4) (0x104 + 0x80 * m) _ (by simp only [pageBase]; omega)

theorem linkDown_clear (s : State) (n : Nat) : LinkDown n (fsetb s (.pkg 4) (PB4.PORT_STATUS_LINK n) false) :=
  fget_fset_self s (.pkg 4) (PB4.PORT_STATUS_LINK n) 0 (Nat.le_of_ble_eq_true rfl)

theorem LinkDown.clear {n : Nat} {s : State} (h : LinkDown n s) (m : Nat) :
    LinkDown n (fsetb s (.pkg 4) (PB4.PORT_STATUS_LINK m) false) := by
  by_cases he : n = m
  · subst he
    exact linkDown_clear s n
  · exact h.putWord (.pkg 4) (0x104 + 0x80 * m) _ (by simp only [pageBase]; omega)

/-- What dropping a port's link does after LINK itself is cleared keeps every link that is down. -/
theorem linkDown_dropLink {n m : Nat} {s : State} (h : LinkDown n (fsetb s (.pkg 4) (PB4.PORT_STATUS_LINK m) false)) :
    LinkDown n (dropLink s m) := by
  have hs := (h.fsetStatus m 1 1 (b2n false) (Nat.le_refl 1)).fsetStatus m 2 1 (b2n false) (by decide)
  unfold dropLink
  extract_lets was t
  split
  · exact LinkDown.putWord hs (.pkg 4) 0x14 _ (by simp only [pageBase]; omega)
  · exact hs

theorem linkDown_dropLink_self (s : State) (n : Nat) : LinkDown n (dropLink s n) := linkDown_dropLink (linkDown_clear s n)

theorem LinkDown.dropLink {n : Nat} {s : State} (h : LinkDown n s) (m : Nat) : LinkDown n (dropLink s m) :=
  linkDown_dropLink (h.clear m)

section Bypass

variable {n : Nat} {s : State} (hn : n < 4) (h : LinkDown n s)
include hn h

theorem LinkDown.pushRecord (r : Record) : LinkDown n (pushRecord s r) := by
  unfold Machine.pushRecord
  split
  · exact h
  · exact LinkDown.putWord (s := { s with hist.dropped := s.hist.dropped + 1 }) h (.pkg 10) 0x58 _
      (by simp only [pageBase]; omega)

/-- A word of page B5 is no PORT_STATUS. -/
theorem LinkDown.putBypass (o v : Nat) : LinkDown n (Machine.putWord s (.pkg 5) o v) :=
  h.putWord (.pkg 5) o v (by simp only [pageBase]; omega)

theorem LinkDown.noteCauses : LinkDown n (noteCauses s) := h.putBypass hn 0x44 _

theorem LinkDown.bypassChange (c : Bool) : LinkDown n (bypassChange s c) := by
  have hc := h.putBypass hn 0x44 (setBits (rawWord s (.pkg 5) 0x44) 0 1 (b2n c))
  have hb := (hc.fsetStatus 0 3 1 (b2n c) (by decide)).fsetStatus 1 3 1 (b2n c) (by decide)
  exact ((hb.putBypass hn 0x4C _).putBypass hn 0x14 _).pushRecord hn _

theorem LinkDown.bypassClose : LinkDown n (bypassClose s) := by
  have hd : ∀ {t : State}, LinkDown n t → ∀ m k, LinkDown n (fadd t (.pkg 4) (PB4.RELAY_DROP m) k) := fun ht m k =>
    ht.putWord (.pkg 4) (0x14C + 0x80 * m) _ (by simp only [pageBase]; omega)
  have hr : LinkDown n (finc { (fadd (fadd s (.pkg 4) (PB4.RELAY_DROP 0) (SMap.getD s.ports.relay 0 []).length) (.pkg 4)
      (PB4.RELAY_DROP 1) (SMap.getD s.ports.relay 1 []).length) with ports.relay := [], ports.begun := [] } (.pkg 5)
      PB5.BYP_CLOSE_COUNT) := LinkDown.putBypass hn (hd (hd h 0 _) 1 _) 0x48 _
  exact ((hr.bypassChange hn true).dropLink 0).dropLink 1

/-- R118: no update of the bypass brings a link up. -/
theorem LinkDown.bypassUpdate : LinkDown n (bypassUpdate s) := by
  unfold Machine.bypassUpdate
  split
  · extract_lets x t
    have ht : LinkDown n t := h
    split
    · exact ht.noteCauses hn
    · exact (ht.bypassClose hn).noteCauses hn
  · split
    · extract_lets ms
      split
      · exact (h.bypassChange hn false).noteCauses hn
      · exact LinkDown.noteCauses hn (s := { s with byp.holdoff := some (s.now + ms * 1000000) }) h
    · exact h.noteCauses hn

end Bypass

/-! ### A port takes its set (R730) -/

theorem portMode_congr {s u : State} (hp : u.ports.portEff = s.ports.portEff) (hf : u.fuse = s.fuse) (n : Nat) :
    portMode u n = portMode s n := by
  simp only [portMode, pget, portWord, hp, hf]

/-- The set that waits for port `n` is in effect for it, and waits no longer. -/
def portTakes (s : State) (n : Nat) (ws : List (Nat × Word)) : State :=
  { s with ports.portPend := SMap.del s.ports.portPend n, ports.portEff := SMap.put s.ports.portEff n ws }

/-- A port whose MODE or FEC changes loses its link. -/
def portRetrained (s : State) (n : Nat) (ws : List (Nat × Word)) : State :=
  if portMode s n ≠ portMode (portTakes s n ws) n ∨
      pget s n (PB4.PORT_CTRL_FEC n) ≠ pget (portTakes s n ws) n (PB4.PORT_CTRL_FEC n) then
    dropLink (portTakes s n ws) n
  else portTakes s n ws

/-- Page B4's commit is pending until the last port has taken its set. -/
def portsTaken (s : State) : State :=
  if s.ports.portPend = [] then { s with reg.captured := SMap.del s.reg.captured (pageBase (.pkg 4)) } else s

theorem portSetTakeEffect_eq {s : State} {n : Fin 4} {ws : List (Nat × Word)}
    (h : SMap.find s.ports.portPend n.val = some ws) :
    exec (.portSetTakeEffect n) s = done (bypassUpdate (portsTaken (portRetrained s n.val ws))) := by
  rw [exec_portSetTakeEffect, execPortSetTakeEffect, h]
  rfl

theorem portRetrained_samePorts (s : State) (n : Nat) (ws : List (Nat × Word)) :
    SamePorts (portTakes s n ws) (portRetrained s n ws) := by
  simp [portRetrained]

theorem portsTaken_samePorts (s : State) : SamePorts s (portsTaken s) := by
  simp [portsTaken]

theorem linkDown_portRetrained {s : State} {n : Nat} {ws : List (Nat × Word)}
    (h : portMode (portTakes s n ws) n ≠ portMode s n) : LinkDown n (portRetrained s n ws) := by
  rw [portRetrained, if_pos (.inl h.symm)]
  exact linkDown_dropLink_self _ n

theorem LinkDown.portsTaken {n : Nat} {s : State} (h : LinkDown n s) : LinkDown n (portsTaken s) := by
  unfold Machine.portsTaken
  split <;> exact h

/-- What the taking of port `n`'s set leaves (R730). -/
structure PortTook (s : State) (n : Nat) (ws : List (Nat × Word)) (u : State) : Prop where
  ports : SamePorts (portTakes s n ws) u
  link : portMode u n ≠ portMode s n → LinkDown n u

theorem portTook_bypassUpdate (s : State) {n : Nat} (hn : n < 4) (ws : List (Nat × Word)) :
    PortTook s n ws (bypassUpdate (portsTaken (portRetrained s n ws))) := by
  have hs : SamePorts (portTakes s n ws) (bypassUpdate (portsTaken (portRetrained s n ws))) := by
    have h1 := portRetrained_samePorts s n ws
    have h2 := portsTaken_samePorts (portRetrained s n ws)
    have h3 := bypassUpdate_samePorts (portsTaken (portRetrained s n ws))
    exact (h1.trans h2).trans h3
  have ⟨heff, _, _, _, hfuse⟩ := hs
  refine ⟨hs, fun hm => ?_⟩
  rw [portMode_congr heff hfuse] at hm
  exact (linkDown_portRetrained hm).portsTaken.bypassUpdate hn

theorem portSetTakeEffect_takes {s : State} {n : Fin 4} {ws : List (Nat × Word)}
    (h : SMap.find s.ports.portPend n.val = some ws) :
    Completes (exec (.portSetTakeEffect n) s) (PortTook s n.val ws) := by
  rw [portSetTakeEffect_eq h]
  obtain ⟨hports, hlink⟩ := portTook_bypassUpdate s n.isLt ws
  exact completes_done fun m => ⟨hports, hlink⟩

/-- Settles O32: the safe point of a page's captured set, and a port's frame boundary. As it is written, the clause of a set
that passes asks for the other pages' words only, given the rest; `commitTakeEffect_inEffect` proves all three parts. -/
theorem capturedSetsTakeEffect : Obligations.CapturedSetsTakeEffect := by
  unfold Obligations.CapturedSetsTakeEffect
  refine ⟨fun s p c _ hc hs hw => ⟨commitTakeEffect_waits hc, fun hp hno => ?_, fun hp hok => ?_⟩, fun s n ws h => ?_⟩
  · obtain ⟨t, ht, herr, hcap, heff, hreg⟩ := commitTakeEffect_refused hc hp hno
    exact ⟨t, ht, herr, hcap, heff, hreg⟩
  · obtain ⟨t, ht, -, -, hothers⟩ := commitTakeEffect_inEffect hc hs hw hp hok
    exact ⟨t, ht, fun ⟨_, _, hmap⟩ => hothers hmap⟩
  · obtain ⟨t, ht, ⟨heff, hpend, hmem, hctx, -⟩, hlink⟩ := portSetTakeEffect_takes h
    refine ⟨t, ht, ?_, ?_, fun m hm => ⟨?_, ?_⟩, hlink, fun b => ?_, hctx⟩
    · rw [heff]
      exact SMap.find_put_self _ _ _
    · rw [hpend]
      exact SMap.find_del_self _ _
    · rw [heff]
      exact SMap.find_put_ne _ _ hm
    · rw [hpend]
      exact SMap.find_del_ne _ hm
    · unfold rdByte
      rw [hmem]
      rfl

end Sys2Proof.Machine
end

section
/-!
PROOFS. Counters, event bits and words through a chain of register updates (R10, R676).
-/

namespace Sys2Proof.Machine

theorem mem_pageWords (p : Page) {off : Nat} (h : off < 0x1000) : pageBase p + off ∈ pageWords p :=
  List.mem_map_of_mem (List.mem_range.mpr h)

/-- One more of the words that may differ is written. -/
theorem WordsBut.putWord_of_mem {l : List Nat} {s t : State} {p : Page} {off : Nat} (h : WordsBut l s t) (v : Nat)
    (hm : pageBase p + off ∈ l) : WordsBut l s (putWord t p off v) := by
  obtain ⟨hw, hr⟩ := h
  refine ⟨fun q o hn => ?_, hr⟩
  have hne : pageBase q + o ≠ pageBase p + off := fun he => hn (he ▸ hm)
  rw [rawWord_putWord_ne t p q off o v hne, hw q o hn]

theorem WordsBut.fget_eq {l : List Nat} {s u : State} (h : WordsBut l s u) {p : Page} {f : Fld}
    (hn : pageBase p + f.off ∉ l) : fget u p f = fget s p f := by
  rw [fget, h.1 p f.off hn, fget]

/-- What counted up to a state `t` counts up to a later one that leaves the counter alone. -/
theorem WordsBut.counts {l : List Nat} {s t u : State} (h : WordsBut l t u) {p : Page} {f : Fld} {k : Nat}
    (hc : Counts s t p f k) (hn : pageBase p + f.off ∉ l) : Counts s u p f k :=
  (h.fget_eq hn).trans hc

/-- What counts from a state `t` counts from an earlier one that `t` leaves the counter of alone. -/
theorem WordsBut.counts_from {l : List Nat} {s t u : State} (h : WordsBut l s t) {p : Page} {f : Fld} {k : Nat}
    (hc : Counts t u p f k) (hn : pageBase p + f.off ∉ l) : Counts s u p f k := by
  rw [Counts, ← h.fget_eq hn]
  exact hc

theorem WordsBut.raised {l : List Nat} {s u : State} (h : WordsBut l s u) {p : Page} {b : Nat} (hr : Raised s p b)
    (hn : pageBase p + 0x14 ∉ l) : Raised u p b := by
  rw [Raised, h.1 p 0x14 hn]
  exact hr

theorem counts_fadd (s : State) (p : Page) (f : Fld) (k : Nat) (h : f.lo + f.w ≤ 32) : Counts s (fadd s p f k) p f k :=
  fget_fset_self s p f _ h

theorem Counts.of_reg {s t u : State} {p : Page} {f : Fld} {k : Nat} (h : Counts s t p f k) (hr : u.reg = t.reg)
    (hf : u.fuse = t.fuse) : Counts s u p f k := by
  rw [Counts, fget_congr hr hf]
  exact h

theorem fbit_of_reg {t u : State} {p : Page} {f : Fld} {b : Bool} (h : fbit t p f = b) (hr : u.reg = t.reg)
    (hf : u.fuse = t.fuse) : fbit u p f = b := by
  rw [fbit, fget_congr hr hf]
  exact h

theorem Raised.of_reg {t u : State} {p : Page} {b : Nat} (h : Raised t p b) (hr : u.reg = t.reg) (hf : u.fuse = t.fuse) :
    Raised u p b := by
  rw [Raised, rawWord_congr hr hf]
  exact h

end Sys2Proof.Machine
end

section
/-!
PROOFS. A frame received on a port (R99 to R110): what it counts, and its copy in the relay buffer of the other ring port.
-/

namespace Sys2Proof.Machine

/-! ### Counting a frame -/

/-- A counter of frames received on port `n`, among RX_GOOD to RX_PTP_DROP. -/
structure RxCounter (n : Nat) (g : Fld) : Prop where
  low : 0x110 + 0x80 * n ≤ g.off
  high : g.off < 0x134 + 0x80 * n
  width : g.lo + g.w ≤ 32

theorem rxCounter_good (n : Nat) : RxCounter n (PB4.RX_GOOD n) :=
  ⟨Nat.le_refl _, Nat.add_lt_add_right (by decide) _, Nat.le_refl _⟩

theorem rxCounter_runt (n : Nat) : RxCounter n (PB4.RX_RUNT n) :=
  ⟨Nat.add_le_add_right (by decide) _, Nat.add_lt_add_right (by decide) _, Nat.le_refl _⟩

theorem rxCounter_fcs (n : Nat) : RxCounter n (PB4.RX_FCS n) :=
  ⟨Nat.add_le_add_right (by decide) _, Nat.add_lt_add_right (by decide) _, Nat.le_refl _⟩

theorem rxCounter_oversize (n : Nat) : RxCounter n (PB4.RX_OVERSIZE n) :=
  ⟨Nat.add_le_add_right (by decide) _, Nat.add_lt_add_right (by decide) _, Nat.le_refl _⟩

/-- The words of page B4 apart, the state after a frame is the state before it, but for the rises of the second (R111) and what
a command's end changes; the frame counts in `g`, and its corrected codewords in FEC_CORR. -/
def FrameCounted (s : State) (n : Nat) (f : EthFrame) (g : Fld) (u : State) : Prop :=
  Counts s u (.pkg 4) g 1 ∧ Counts s u (.pkg 4) (PB4.FEC_CORR n) f.fecCorr ∧
    { u with reg := s.reg, ports.rises := s.ports.rises, msix := s.msix, err.inj := s.err.inj } = s ∧
    WordsBut (pageWords (.pkg 4)) s u

/-- The corrected codewords of a frame are counted, and then the frame. -/
def frameCount (s : State) (n : Nat) (f : EthFrame) (g : Fld) : State :=
  finc (fadd s (.pkg 4) (PB4.FEC_CORR n) f.fecCorr) (.pkg 4) g

section Counted

variable (s : State) {n : Nat} (hn : n < 4) (f : EthFrame) {g : Fld} (hg : RxCounter n g)
include hn hg

theorem frameCounted_frameCount : FrameCounted s n f g (frameCount s n f g) := by
  obtain ⟨hlow, hhigh, hw⟩ := hg
  have hfec : WordsBut [0x7F4000 + (0x134 + 0x80 * n)] s (fadd s (.pkg 4) (PB4.FEC_CORR n) f.fecCorr) :=
    wordsBut_putWord s (.pkg 4) _ _
  have hrx : WordsBut [0x7F4000 + g.off] (fadd s (.pkg 4) (PB4.FEC_CORR n) f.fecCorr) (frameCount s n f g) :=
    wordsBut_putWord _ (.pkg 4) _ _
  refine ⟨hfec.counts_from (counts_fadd _ (.pkg 4) g 1 hw) ?_,
    hrx.counts (counts_fadd s (.pkg 4) (PB4.FEC_CORR n) _ (Nat.le_refl _)) ?_, rfl,
    ((wordsBut_refl _ s).putWord_of_mem _ (mem_pageWords (.pkg 4) ?_)).putWord_of_mem _ (mem_pageWords (.pkg 4) ?_)⟩
  · simp only [pageBase, List.mem_singleton]
    omega
  · simp only [pageBase, PB4.FEC_CORR, List.mem_singleton]
    omega
  · simp only [PB4.FEC_CORR]
    omega
  · omega

/-- A frame that counts as a violation latches the port's event bit, and counts in the second's rises (R111). -/
theorem frameCounted_violation :
    FrameCounted s n f g (portViolation (fadd s (.pkg 4) (PB4.FEC_CORR n) f.fecCorr) n g) ∧
      Raised (portViolation (fadd s (.pkg 4) (PB4.FEC_CORR n) f.fecCorr) n g) (.pkg 4) (4 + n) := by
  obtain ⟨hcount, hfec, -, hwords⟩ := frameCounted_frameCount s hn f hg
  have hraise : WordsBut [0x7F4014] (frameCount s n f g)
      (portViolation (fadd s (.pkg 4) (PB4.FEC_CORR n) f.fecCorr) n g) :=
    (wordsBut_putWord (frameCount s n f g) (.pkg 4) 0x14 _).of_reg rfl rfl
  have hevent : Raised (raiseInt (frameCount s n f g) (.pkg 4) (4 + n)) (.pkg 4) (4 + n) := raiseInt_bit _ _ _ (by omega)
  refine ⟨⟨hraise.counts hcount ?_, hraise.counts hfec ?_, rfl,
    (hwords.putWord_of_mem (p := .pkg 4) (off := 0x14) _ (mem_pageWords _ (by decide))).of_reg rfl rfl⟩,
    hevent.of_reg rfl rfl⟩
  · obtain ⟨hlow, -, -⟩ := hg
    simp only [pageBase, List.mem_singleton]
    omega
  · simp only [pageBase, PB4.FEC_CORR, List.mem_singleton]
    omega

end Counted

/-- The end of a command keeps what a frame has counted. -/
theorem FrameCounted.atEnd {s t : State} {n : Nat} {f : EthFrame} {g : Fld} (h : FrameCounted s n f g t) (m : Msix) :
    FrameCounted s n f g { t with msix := m, err.inj := false } := by
  obtain ⟨hcount, hfec, hrest, hwords⟩ := h
  exact ⟨hcount.of_reg rfl rfl, hfec.of_reg rfl rfl, hrest, hwords.of_reg rfl rfl⟩

/-! ### What reception looks at -/

theorem portMac_putWord (s : State) (n o v : Nat) (h : 0x10C + 0x80 * n < o) :
    portMac (putWord s (.pkg 4) o v) n = portMac s n := by
  have hoff : ∀ off, off ≤ 0x10C + 0x80 * n → pageBase (.pkg 4) + off ≠ pageBase (.pkg 4) + o := by omega
  unfold portMac
  rw [fget_putWord_ne _ _ _ _ _ _ (hoff (0x10C + 0x80 * n) (Nat.le_refl _)),
    fget_putWord_ne _ _ _ _ _ _ (hoff (0x108 + 0x80 * n) (Nat.add_le_add_right (by decide) _))]

/-- A word of page B4 is none of the bypass's. -/
theorem bypassClosed_putWord (s : State) {o : Nat} (v : Nat) (h : o < 0x1000) :
    bypassClosed (putWord s (.pkg 4) o v) = bypassClosed s := by
  unfold bypassClosed fbit
  rw [fget_putWord_ne]
  simp only [pageBase, PB5.BYP_STATUS_CLOSED]
  omega

theorem relays_fecCount (s : State) {n : Nat} (hn : n < 4) (k : Nat) (bs : List Nat) :
    relays (fadd s (.pkg 4) (PB4.FEC_CORR n) k) n bs = relays s n bs := by
  unfold relays
  rw [show portMac (fadd s (.pkg 4) (PB4.FEC_CORR n) k) n = portMac s n from
      portMac_putWord s n _ _ (Nat.add_lt_add_right (by decide) _),
    show bypassClosed (fadd s (.pkg 4) (PB4.FEC_CORR n) k) = bypassClosed s from
      bypassClosed_putWord s _ (by simp only [PB4.FEC_CORR]; omega)]
  rfl

theorem portMac_frameCount (s : State) {n : Nat} (f : EthFrame) {g : Fld} (hg : RxCounter n g) :
    portMac (frameCount s n f g) n = portMac s n := by
  obtain ⟨hlow, -, -⟩ := hg
  calc portMac (frameCount s n f g) n = portMac (fadd s (.pkg 4) (PB4.FEC_CORR n) f.fecCorr) n :=
        portMac_putWord _ n _ _ (by omega)
    _ = portMac s n := portMac_putWord s n _ _ (Nat.add_lt_add_right (by decide) _)

theorem relays_of_runt (s : State) (n : Nat) {bs : List Nat} (h : bs.length + 4 < 64) : relays s n bs = false := by
  simp [relays, Nat.not_le.mpr h]

/-- R100: a unicast frame to another station is not used. -/
theorem consume_elsewhere {s : State} {n : Nat} {bs : List Nat} (ts : Nat) (hl : isLinkLocal bs = false)
    (hm : fbe bs 0 6 ≠ portMac s n) (hu : bit (fb bs 0) 0 = false) : consume s n bs ts = s := by
  unfold consume
  extract_lets dst
  rw [if_neg (Bool.eq_false_iff.mp hl), if_pos ⟨hm, hu⟩]

/-! ### The frame is received -/

/-- The bytes of a frame as numbers. -/
def frameBytes (f : EthFrame) : List Nat := f.bytes.map BitVec.toNat

/-- A frame without an uncorrectable codeword is counted by what is wrong with it, or consumed (R100, R109). -/
def received (s : State) (n : Nat) (f : EthFrame) : State :=
  let t := fadd s (.pkg 4) (PB4.FEC_CORR n) f.fecCorr
  if (frameBytes f).length + 4 < 64 then portViolation t n (PB4.RX_RUNT n)
  else if (!f.fcsOk || f.pcsError) = true then portViolation t n (PB4.RX_FCS n)
  else if pget s n (PB4.PORT_CTRL_MAX_FRAME n) < (frameBytes f).length + 4 then portViolation t n (PB4.RX_OVERSIZE n)
  else consume (finc t (.pkg 4) (PB4.RX_GOOD n)) n (frameBytes f) f.ts

/-- A frame in good order, no longer than MAX_FRAME, to the address of another station. -/
structure ElsewhereFrame (s : State) (n : Nat) (f : EthFrame) : Prop where
  long : 64 ≤ (frameBytes f).length + 4
  intact : ¬ (f.fcsOk = false ∨ f.pcsError = true)
  fits : ¬ pget s n (PB4.PORT_CTRL_MAX_FRAME n) < (frameBytes f).length + 4
  address : isLinkLocal (frameBytes f) = false ∧ fbe (frameBytes f) 0 6 ≠ portMac s n ∧ bit (fb (frameBytes f) 0) 0 = false

/-- Such a frame counts in RX_GOOD, and no more. -/
theorem ElsewhereFrame.received_eq {s : State} {n : Nat} {f : EthFrame} (h : ElsewhereFrame s n f) :
    received s n f = frameCount s n f (PB4.RX_GOOD n) := by
  obtain ⟨hlong, hintact, hfits, hlocal, hmac, hunicast⟩ := h
  rw [received, if_neg (Nat.not_lt.mpr hlong), if_neg (by simpa using hintact), if_neg hfits]
  exact consume_elsewhere f.ts hlocal (by rwa [← portMac_frameCount s f (rxCounter_good n)] at hmac) hunicast

section Received

variable {s : State} {n : Fin 4} {f : EthFrame}

theorem ethernetFrameReceive_ignored (h : portReceives s n.val = false) :
    exec (.ethernetFrameReceive n f) s = .next s := by
  change execEthernetFrameReceive n f s = .next s
  rw [execEthernetFrameReceive, h]
  rfl

variable (hr : portReceives s n.val = true) (hu : f.fecUncorr = false)
include hr hu

theorem ethernetFrameReceive_eq : exec (.ethernetFrameReceive n f) s =
    done (if relays s n.val (frameBytes f) then
        relayCopy (received s n.val f) n.val (frameBytes f) f.ts
          ((!f.fcsOk || f.pcsError) || decide ((frameBytes f).length + 4 > ringMax (received s n.val f)))
      else received s n.val f) := by
  change execEthernetFrameReceive n f s = _
  rw [execEthernetFrameReceive, if_neg (by simp [hr]), ← relays_fecCount s n.isLt f.fecCorr]
  simp only [hu, Bool.or_false, Bool.false_eq_true, if_false, received, decide_eq_true_eq]
  rfl

/-- A frame that is not relayed and is in error counts in `g`, and latches the port's event bit. -/
theorem completes_violation {g : Fld} (hrel : relays s n.val (frameBytes f) = false) (hg : RxCounter n.val g)
    (he : received s n.val f = portViolation (fadd s (.pkg 4) (PB4.FEC_CORR n.val) f.fecCorr) n.val g) :
    Completes (exec (.ethernetFrameReceive n f) s) (fun u =>
      FrameCounted s n.val f g u ∧ Raised u (.pkg 4) (4 + n.val)) := by
  obtain ⟨hcounted, hraised⟩ := frameCounted_violation s n.isLt f hg
  rw [ethernetFrameReceive_eq hr hu, hrel, he]
  exact completes_done fun m => ⟨hcounted.atEnd m, hraised.of_reg rfl rfl⟩

theorem completes_runt (hlen : (frameBytes f).length + 4 < 64) :
    Completes (exec (.ethernetFrameReceive n f) s) (fun u =>
      FrameCounted s n.val f (PB4.RX_RUNT n.val) u ∧ Raised u (.pkg 4) (4 + n.val)) :=
  completes_violation hr hu (relays_of_runt s n.val hlen) (rxCounter_runt n.val) (if_pos hlen)

theorem completes_errored (hlen : 64 ≤ (frameBytes f).length + 4) (hrel : relays s n.val (frameBytes f) = false)
    (he : f.fcsOk = false ∨ f.pcsError = true) :
    Completes (exec (.ethernetFrameReceive n f) s) (fun u =>
      FrameCounted s n.val f (PB4.RX_FCS n.val) u ∧ Raised u (.pkg 4) (4 + n.val)) := by
  refine completes_violation hr hu hrel (rxCounter_fcs n.val) ?_
  rw [received, if_neg (Nat.not_lt.mpr hlen), if_pos (by simpa using he)]

theorem completes_oversize (hlen : 64 ≤ (frameBytes f).length + 4) (hrel : relays s n.val (frameBytes f) = false)
    (hok : ¬ (f.fcsOk = false ∨ f.pcsError = true))
    (hx : pget s n.val (PB4.PORT_CTRL_MAX_FRAME n.val) < (frameBytes f).length + 4) :
    Completes (exec (.ethernetFrameReceive n f) s) (fun u =>
      FrameCounted s n.val f (PB4.RX_OVERSIZE n.val) u ∧ Raised u (.pkg 4) (4 + n.val)) := by
  refine completes_violation hr hu hrel (rxCounter_oversize n.val) ?_
  rw [received, if_neg (Nat.not_lt.mpr hlen), if_neg (by simpa using hok), if_pos hx]

theorem completes_elsewhere (hrel : relays s n.val (frameBytes f) = false) (h : ElsewhereFrame s n.val f) :
    Completes (exec (.ethernetFrameReceive n f) s) (FrameCounted s n.val f (PB4.RX_GOOD n.val)) := by
  rw [ethernetFrameReceive_eq hr hu, hrel, h.received_eq]
  exact completes_done fun m => (frameCounted_frameCount s n.isLt f (rxCounter_good n.val)).atEnd m

end Received

/-! ### The relay buffers (R103 to R106) -/

/-- Port `e`'s relay buffer takes a frame behind those that wait in it. -/
def relayPush (s : State) (e : Nat) (fr : RelayFrame) : State :=
  { s with ports.relay := SMap.put s.ports.relay e (SMap.getD s.ports.relay e [] ++ [fr]) }

/-- A frame that is no PTP message, for whose copy there is room and that has not begun to leave, waits. -/
theorem relayCopy_waits {s : State} {n : Nat} {bs : List Nat} (ts : Nat) (hp : ptpOffset bs = none)
    (hb : SMap.find s.ports.begun (1 - n) = none)
    (hroom : ((SMap.getD s.ports.relay (1 - n) []).map (fun g => g.bytes.length + 4)).sum + (bs.length + 4) ≤ 32768) :
    relayCopy s n bs ts false = relayPush s (1 - n) ⟨bs, ts, false⟩ := by
  rw [List.sum_eq_foldl_nat] at hroom
  simp only [relayCopy, hb, Bool.false_eq_true, if_false, Nat.not_lt.mpr hroom, hp]
  rfl

/-- A good frame of the ring for another station waits in the other ring port's relay buffer, behind the others. -/
theorem completes_relayed {s : State} {n : Fin 4} {f : EthFrame} (hr : portReceives s n.val = true)
    (hu : f.fecUncorr = false) (h : ElsewhereFrame s n.val f)
    (hrel : relays s n.val (frameBytes f) = true) (hp : ptpOffset (frameBytes f) = none)
    (hmax : (frameBytes f).length + 4 ≤ ringMax s) (hb : SMap.find s.ports.begun (1 - n.val) = none)
    (hroom : ((SMap.getD s.ports.relay (1 - n.val) []).map (fun g => g.bytes.length + 4)).sum +
      ((frameBytes f).length + 4) ≤ 32768) :
    Completes (exec (.ethernetFrameReceive n f) s) (fun u =>
      SMap.getD u.ports.relay (1 - n.val) [] = SMap.getD s.ports.relay (1 - n.val) [] ++ [⟨frameBytes f, f.ts, false⟩] ∧
      SMap.getD u.ports.relay n.val [] = SMap.getD s.ports.relay n.val [] ∧
      Counts s u (.pkg 4) (PB4.RX_GOOD n.val) 1 ∧ WordsBut (pageWords (.pkg 4)) s u) := by
  obtain ⟨hcount, -, -, hwords⟩ := frameCounted_frameCount s n.isLt f (rxCounter_good n.val)
  have hother : n.val ≠ 1 - n.val := by omega
  have hintact := h.intact
  have hgood : ((!f.fcsOk || f.pcsError) || decide ((frameBytes f).length + 4 > ringMax s)) = false := by
    simpa [not_or] using ⟨by simpa using hintact, hmax⟩
  have hcopy : relayCopy (frameCount s n.val f (PB4.RX_GOOD n.val)) n.val (frameBytes f) f.ts false =
      relayPush (frameCount s n.val f (PB4.RX_GOOD n.val)) (1 - n.val) ⟨frameBytes f, f.ts, false⟩ :=
    relayCopy_waits f.ts hp hb hroom
  rw [ethernetFrameReceive_eq hr hu, hrel, h.received_eq, if_pos rfl,
    show ringMax (frameCount s n.val f (PB4.RX_GOOD n.val)) = ringMax s from rfl, hgood, hcopy]
  refine completes_done fun m => ⟨?_, ?_, hcount.of_reg rfl rfl, hwords.of_reg rfl rfl⟩
  · simp [relayPush, SMap.getD, frameCount, finc]
  · simp [relayPush, SMap.getD, SMap.find_put_ne _ _ hother, frameCount, finc]

theorem relayStart_closed {s : State} (h : bypassClosed s = true) (e : Fin 2) (a : Bool) :
    exec (.relayStart e a) s = .next s := by
  change execRelayStart e a s = .next s
  rw [execRelayStart, h]
  rfl

/-- R103: the oldest frame of a relay buffer leaves. -/
theorem relayStart_eq {s : State} {e : Fin 2} {g : RelayFrame} {rest : List RelayFrame} (a : Bool)
    (hc : bypassClosed s = false) (hb : SMap.find s.ports.begun e.val = none)
    (hq : SMap.find s.ports.relay e.val = some (g :: rest)) (hp : ptpOffset g.bytes = none) :
    exec (.relayStart e a) s =
      done (transmit { s with ports.relay := SMap.put s.ports.relay e.val rest } e.val ⟨g.bytes, g.ts, false⟩) := by
  change execRelayStart e a s = _
  simp only [execRelayStart, hc, hb, SMap.getD, hq, relayPtpBytes, hp, Option.isSome_none, Bool.or_false,
    Bool.false_eq_true, if_false, Option.getD_some]

end Sys2Proof.Machine
end

section
/-!
PROOFS. A port's link (R118, R121), the closing and opening of the ring bypass (R113 to R115), and the records of a second
(R111).
-/

namespace Sys2Proof.Machine

/-! ### A port's link -/

/-- Whether a port's link is up after its receiver finds signal or loses it (R118, R121). -/
def linkOn (s : State) (n : Nat) (up : Bool) : Bool :=
  up && !(portMode s n = 0 || inReset s .pkg) && !(decide (n ≤ 1) && bypassClosed s)

/-- The status bits of a port's link, and its event bit. -/
def linkSet (s : State) (n : Nat) (on : Bool) : State :=
  let s := fsetb (fsetb s (.pkg 4) (PB4.PORT_STATUS_LINK n) on) (.pkg 4) (PB4.PORT_STATUS_BLOCK_LOCK n) on
  raiseInt (fsetb s (.pkg 4) (PB4.PORT_STATUS_FEC_LOCK n) (on && pget s n (PB4.PORT_CTRL_FEC n) = 1)) (.pkg 4) n

/-- A port that no failover waits for changes its link where the new state differs. -/
theorem portLinkChange_eq {s : State} {n : Fin 4} (up : Bool) (h : s.byp.failover.contains n.val = false) :
    exec (.portLinkChange n up) s =
      if fbit s (.pkg 4) (PB4.PORT_STATUS_LINK n.val) = linkOn s n.val up then .next s
      else done (linkSet s n.val (linkOn s n.val up)) := by
  change execPortLinkChange n up s = _
  simp only [execPortLinkChange, h, Bool.and_false, Bool.false_eq_true, if_false]
  rfl

theorem wordsBut_linkSet (s : State) (n : Nat) (on : Bool) :
    WordsBut [pageBase (.pkg 4) + (PB4.PORT_STATUS_LINK n).off, pageBase (.pkg 4) + 0x14] s (linkSet s n on) := by
  have hs : pageBase (.pkg 4) + (PB4.PORT_STATUS_LINK n).off ∈
      [pageBase (.pkg 4) + (PB4.PORT_STATUS_LINK n).off, pageBase (.pkg 4) + 0x14] := List.mem_cons_self
  exact ((((wordsBut_refl _ s).putWord_of_mem _ hs).putWord_of_mem _ hs).putWord_of_mem _ hs).putWord_of_mem _ (by simp)

theorem fbit_linkSet (s : State) (n : Nat) (on : Bool) :
    fbit (linkSet s n on) (.pkg 4) (PB4.PORT_STATUS_LINK n) = on := by
  have hlink : fget (linkSet s n on) (.pkg 4) (PB4.PORT_STATUS_LINK n) = b2n on % 2 := by
    unfold linkSet
    extract_lets t
    unfold raiseInt
    rw [fget_putWord_ne _ _ _ _ _ _ (by simp only [pageBase, PB4.PORT_STATUS_LINK]; omega)]
    exact (fget_fset_field _ _ (PB4.PORT_STATUS_FEC_LOCK n) (PB4.PORT_STATUS_LINK n) _ rfl (Nat.le_of_ble_eq_true rfl)
        (.inl (Nat.le_of_ble_eq_true rfl))).trans
      ((fget_fset_field _ _ (PB4.PORT_STATUS_BLOCK_LOCK n) (PB4.PORT_STATUS_LINK n) _ rfl (Nat.le_of_ble_eq_true rfl)
        (.inl (Nat.le_of_ble_eq_true rfl))).trans
      (fget_fset_self s (.pkg 4) (PB4.PORT_STATUS_LINK n) _ (Nat.le_of_ble_eq_true rfl)))
  rw [fbit, hlink]
  cases on <;> rfl

theorem completes_linkSet (s : State) {n : Nat} (hn : n < 4) (on : Bool) :
    Completes (done (linkSet s n on)) (fun u =>
      fbit u (.pkg 4) (PB4.PORT_STATUS_LINK n) = on ∧ Raised u (.pkg 4) n ∧ OnlyRegisters s u ∧
      WordsBut [pageBase (.pkg 4) + (PB4.PORT_STATUS_LINK n).off, pageBase (.pkg 4) + 0x14] s u) := by
  have hraised : Raised (linkSet s n on) (.pkg 4) n := raiseInt_bit _ _ _ (by omega)
  exact completes_done fun m => ⟨fbit_of_reg (fbit_linkSet s n on) rfl rfl, hraised.of_reg rfl rfl, rfl,
    (wordsBut_linkSet s n on).of_reg rfl rfl⟩

/-! ### A change of the bypass (R115, R732) -/

theorem wordsBut_pushRecord (s : State) (r : Record) : WordsBut [0x7FA058] s (pushRecord s r) := by
  unfold pushRecord
  split
  · exact (wordsBut_refl _ s).of_reg rfl rfl
  · have hdropped : WordsBut [0x7FA058] s { s with hist.dropped := s.hist.dropped + 1 } := (wordsBut_refl _ s).of_reg rfl rfl
    exact hdropped.putWord_of_mem (p := .pkg 10) (off := 0x58) _ (by simp [pageBase])

theorem wordsBut_dropLink (s : State) (n : Nat) : WordsBut [0x7F4000 + (0x104 + 0x80 * n), 0x7F4014] s (dropLink s n) := by
  have hstatus : pageBase (.pkg 4) + (0x104 + 0x80 * n) ∈ [0x7F4000 + (0x104 + 0x80 * n), 0x7F4014] := List.mem_cons_self
  unfold dropLink
  extract_lets was t
  have ht : WordsBut [0x7F4000 + (0x104 + 0x80 * n), 0x7F4014] s t :=
    (((wordsBut_refl _ s).putWord_of_mem _ hstatus).putWord_of_mem _ hstatus).putWord_of_mem _ hstatus
  split
  · exact ht.putWord_of_mem (p := .pkg 4) (off := 0x14) _ (by simp [pageBase])
  · exact ht

/-- A ring port's link is none of page B5's words. -/
theorem pkg5_notMem_dropLink {n : Nat} (hn : n < 4) (o : Nat) :
    pageBase (.pkg 5) + o ∉ [0x7F4000 + (0x104 + 0x80 * n), 0x7F4014] := by
  simp only [pageBase, List.mem_cons, List.not_mem_nil, or_false]
  omega

/-- The status, the time and the event bit of a change of the bypass. -/
def bypassTurned (s : State) (c : Bool) : State :=
  let s := fsetb s (.pkg 5) PB5.BYP_STATUS_CLOSED c
  let s := fsetb (fsetb s (.pkg 4) (PB4.PORT_STATUS_BYPASSED 0) c) (.pkg 4) (PB4.PORT_STATUS_BYPASSED 1) c
  raiseInt (fset s (.pkg 5) PB5.BYP_LAST_NS (devNs s.tb.dev)) (.pkg 5) (if c then 0 else 1)

theorem bypassChange_eq (s : State) (c : Bool) :
    bypassChange s c = recordState (bypassTurned s c) (.pkg 5) 0 (b2n c) (b2n (!c)) := rfl

/-- But for CLOSED, the words that a change of the bypass may write. -/
theorem wordsBut_bypassChange (s : State) (c : Bool) :
    WordsBut [0x7F4104, 0x7F4184, 0x7F504C, 0x7F5014, 0x7FA058] (fsetb s (.pkg 5) PB5.BYP_STATUS_CLOSED c)
      (bypassChange s c) := by
  have hturned : WordsBut [0x7F4104, 0x7F4184, 0x7F504C, 0x7F5014] (fsetb s (.pkg 5) PB5.BYP_STATUS_CLOSED c)
      (bypassTurned s c) := by
    unfold bypassTurned
    exact ((((wordsBut_refl _ _).putWord_of_mem _ (by decide)).putWord_of_mem _ (by decide)).putWord_of_mem _
      (by decide)).putWord_of_mem _ (by decide)
  exact hturned.trans (wordsBut_pushRecord _ _)

@[simp] theorem bypassClosed_bypassChange (s : State) (c : Bool) : bypassClosed (bypassChange s c) = c := by
  have hclosed : fget (bypassChange s c) (.pkg 5) PB5.BYP_STATUS_CLOSED = b2n c % 2 :=
    ((wordsBut_bypassChange s c).fget_eq (by decide)).trans
      (fget_fset_self s (.pkg 5) PB5.BYP_STATUS_CLOSED _ (by decide))
  rw [bypassClosed, fbit, hclosed]
  cases c <;> rfl

theorem raised_bypassChange (s : State) (c : Bool) : Raised (bypassChange s c) (.pkg 5) (if c then 0 else 1) := by
  have hturned : Raised (bypassTurned s c) (.pkg 5) (if c then 0 else 1) := raiseInt_bit _ _ _ (by split <;> decide)
  exact (wordsBut_pushRecord _ _).raised hturned (by decide)

theorem pushRecord_byp (s : State) (r : Record) : (pushRecord s r).byp = s.byp := by
  unfold pushRecord
  split <;> rfl

theorem pushRecord_ports (s : State) (r : Record) : (pushRecord s r).ports = s.ports := by
  unfold pushRecord
  split <;> rfl

@[simp] theorem bypassChange_byp (s : State) (c : Bool) : (bypassChange s c).byp = s.byp :=
  pushRecord_byp (bypassTurned s c) _

@[simp] theorem bypassChange_ports (s : State) (c : Bool) : (bypassChange s c).ports = s.ports :=
  pushRecord_ports (bypassTurned s c) _

@[simp] theorem dropLink_byp (s : State) (n : Nat) : (dropLink s n).byp = s.byp := by
  unfold dropLink
  extract_lets
  split <;> rfl

@[simp] theorem dropLink_ports (s : State) (n : Nat) : (dropLink s n).ports = s.ports := by
  unfold dropLink
  extract_lets
  split <;> rfl

/-! ### The bypass closes (R115) -/

/-- The relay buffers are discarded and counted, and the closing is. -/
def bypassEmptied (s : State) : State :=
  finc { (fadd (fadd s (.pkg 4) (PB4.RELAY_DROP 0) (SMap.getD s.ports.relay 0 []).length) (.pkg 4) (PB4.RELAY_DROP 1)
    (SMap.getD s.ports.relay 1 []).length) with ports.relay := [], ports.begun := [] } (.pkg 5) PB5.BYP_CLOSE_COUNT

theorem bypassClose_eq (s : State) :
    bypassClose s = dropLink (dropLink (bypassChange (bypassEmptied s) true) 0) 1 := rfl

theorem counts_bypassEmptied (s : State) : Counts s (bypassEmptied s) (.pkg 5) PB5.BYP_CLOSE_COUNT 1 := by
  have hdrop := ((wordsBut_putWord s (.pkg 4) 0x14C _).trans (wordsBut_putWord _ (.pkg 4) 0x1CC _)).of_reg
    (u := { (fadd (fadd s (.pkg 4) (PB4.RELAY_DROP 0) (SMap.getD s.ports.relay 0 []).length) (.pkg 4) (PB4.RELAY_DROP 1)
      (SMap.getD s.ports.relay 1 []).length) with ports.relay := [], ports.begun := [] }) rfl rfl
  exact hdrop.counts_from (counts_fadd _ _ _ 1 (by decide)) (by decide)

theorem bypassClosed_bypassClose (s : State) : bypassClosed (bypassClose s) = true := by
  rw [bypassClose_eq, bypassClosed, fbit, (wordsBut_dropLink _ 1).fget_eq (pkg5_notMem_dropLink (by decide) _),
    (wordsBut_dropLink _ 0).fget_eq (pkg5_notMem_dropLink (by decide) _)]
  exact bypassClosed_bypassChange _ true

theorem raised_bypassClose (s : State) : Raised (bypassClose s) (.pkg 5) 0 :=
  (wordsBut_dropLink _ 1).raised ((wordsBut_dropLink _ 0).raised (raised_bypassChange _ true)
    (pkg5_notMem_dropLink (by decide) _)) (pkg5_notMem_dropLink (by decide) _)

theorem counts_bypassClose (s : State) : Counts s (bypassClose s) (.pkg 5) PB5.BYP_CLOSE_COUNT 1 := by
  have hclosed : Counts s (fsetb (bypassEmptied s) (.pkg 5) PB5.BYP_STATUS_CLOSED true) (.pkg 5) PB5.BYP_CLOSE_COUNT 1 :=
    (wordsBut_putWord _ (.pkg 5) 0x44 _).counts (counts_bypassEmptied s) (by decide)
  have hchange := (wordsBut_bypassChange (bypassEmptied s) true).counts hclosed (by decide)
  exact (wordsBut_dropLink _ 1).counts ((wordsBut_dropLink _ 0).counts hchange (pkg5_notMem_dropLink (by decide) _))
    (pkg5_notMem_dropLink (by decide) _)

theorem bypassClose_byp (s : State) : (bypassClose s).byp = s.byp := by
  rw [bypassClose_eq, dropLink_byp, dropLink_byp, bypassChange_byp]
  rfl

theorem bypassClose_ports (s : State) : (bypassClose s).ports = { s.ports with relay := [], begun := [] } := by
  rw [bypassClose_eq, dropLink_ports, dropLink_ports, bypassChange_ports]
  rfl

/-! ### The causes (R113, R114) -/

theorem bypassCauses_even (s : State) : bypassCauses s % 2 = 0 := by
  unfold bypassCauses
  extract_lets absent
  omega

theorem bypassCauses_of_pin {s : State} (h : s.byp.pin = true) : bypassCauses s ≠ 0 := by
  unfold bypassCauses
  extract_lets absent
  rw [h, show b2n true = 1 from rfl]
  omega

theorem bypassCauses_raiseInt (s : State) (p : Page) (b : Nat) : bypassCauses (raiseInt s p b) = bypassCauses s := by
  have hp := pageBase_mod p
  have hword : ∀ k (f : Fld), f.off % 0x1000 ≠ 0x14 → fget (raiseInt s p b) (.pkg k) f = fget s (.pkg k) f := by
    intro k f hf
    have hk := pageBase_mod (.pkg k)
    exact fget_putWord_ne _ _ _ _ _ _ (by omega)
  unfold bypassCauses
  rw [hword 5 _ (by decide), hword 6 _ (by decide), hword 13 _ (by decide)]
  rfl

/-- Every cause stands above bit 0 of BYP_STATUS. -/
@[simp] theorem bypassClosed_noteCauses (s : State) : bypassClosed (noteCauses s) = bypassClosed s := by
  have hclosed : fget (noteCauses s) (.pkg 5) PB5.BYP_STATUS_CLOSED = fget s (.pkg 5) PB5.BYP_STATUS_CLOSED := by
    have heven := bypassCauses_even s
    have hlt : fget s (.pkg 5) PB5.BYP_STATUS_CLOSED < 2 := Nat.mod_lt _ (by decide)
    unfold noteCauses
    rw [fget, show PB5.BYP_STATUS_CLOSED.off = 0x44 from rfl, rawWord_putWord_self, bits_mod _ _ _ _ (by decide)]
    simp only [bits, show PB5.BYP_STATUS_CLOSED.lo = 0 from rfl, show PB5.BYP_STATUS_CLOSED.w = 1 from rfl]
    omega
  rw [bypassClosed, fbit, hclosed, bypassClosed, fbit]

theorem wordsBut_noteCauses (s : State) : WordsBut [0x7F5044] s (noteCauses s) := wordsBut_putWord s (.pkg 5) 0x44 _

/-- R113: a cause cancels a hold-off, and closes the bypass where it is open. -/
theorem bypassUpdate_of_cause {s : State} (h : bypassCauses s ≠ 0) :
    bypassUpdate s = noteCauses (if bypassClosed s then { s with byp.holdoff := none }
      else bypassClose { s with byp.holdoff := none }) := by
  unfold bypassUpdate
  rw [if_pos h]
  rfl

/-- The hold-off runs for HOLDOFF_MS from now. -/
def holdoffStarted (s : State) : State :=
  { s with byp.holdoff := some (s.now + fget s (.pkg 5) PB5.BYP_CTRL_HOLDOFF_MS * 1000000) }

/-- R114: with the last cause gone the hold-off starts. -/
theorem bypassUpdate_starts_holdoff {s : State} (h : bypassCauses s = 0) (hc : bypassClosed s = true)
    (ho : s.byp.holdoff = none) (hms : fget s (.pkg 5) PB5.BYP_CTRL_HOLDOFF_MS ≠ 0) :
    bypassUpdate s = noteCauses (holdoffStarted s) := by
  unfold bypassUpdate
  rw [if_neg (not_not_intro h), if_pos (by rw [hc, ho]; rfl)]
  exact if_neg hms

/-! ### The pin and the hold-off -/

/-- The BYPASS_FORCE pin takes a level, and a change of it is an event. -/
def pinSet (s : State) (high : Bool) : State :=
  { (if s.byp.pin = high then s else raiseInt s (.pkg 5) 2) with byp.pin := high }

theorem bypassForceChange_eq (s : State) (high : Bool) :
    exec (.bypassForceChange high) s = done (bypassUpdate (pinSet s high)) := rfl

theorem pinSet_rest (s : State) (high : Bool) : (pinSet s high).now = s.now ∧
    (pinSet s high).byp = { s.byp with pin := high } ∧ (pinSet s high).mem = s.mem ∧ (pinSet s high).ctx = s.ctx := by
  unfold pinSet
  split <;> exact ⟨rfl, rfl, rfl, rfl⟩

theorem wordsBut_pinSet (s : State) (high : Bool) : WordsBut [0x7F5014] s (pinSet s high) := by
  unfold pinSet
  split
  · exact (wordsBut_refl _ s).of_reg rfl rfl
  · exact (wordsBut_putWord s (.pkg 5) 0x14 _).of_reg rfl rfl

theorem bypassCauses_pinSet (s : State) (high : Bool) :
    bypassCauses (pinSet s high) = bypassCauses { s with byp.pin := high } := by
  unfold pinSet
  split
  · rfl
  · exact bypassCauses_raiseInt { s with byp.pin := high } (.pkg 5) 2

theorem bypassClosed_pinSet (s : State) (high : Bool) : bypassClosed (pinSet s high) = bypassClosed s := by
  rw [bypassClosed, fbit, (wordsBut_pinSet s high).fget_eq (by decide), bypassClosed, fbit]

/-- Memory and the contexts after an update of the bypass at a new level of the pin. -/
theorem bypassUpdate_pinSet_frame (s : State) (high : Bool) :
    (bypassUpdate (pinSet s high)).mem = s.mem ∧ (bypassUpdate (pinSet s high)).ctx = s.ctx := by
  obtain ⟨-, -, hmem, hctx, -⟩ := bypassUpdate_samePorts (pinSet s high)
  obtain ⟨-, -, kmem, kctx⟩ := pinSet_rest s high
  exact ⟨hmem.trans kmem, hctx.trans kctx⟩

/-- The pin closes the bypass; one that was open discards what it relays, and its closing is counted (R113, R115). -/
theorem bypassForceChange_closes (s : State) : Completes (exec (.bypassForceChange true) s) (fun u =>
    bypassClosed u = true ∧ u.byp.pin = true ∧ u.byp.holdoff = none ∧
    (bypassClosed s = false → u.ports.relay = [] ∧ u.ports.begun = [] ∧
      Counts s u (.pkg 5) PB5.BYP_CLOSE_COUNT 1 ∧ Raised u (.pkg 5) 0) ∧
    u.mem = s.mem ∧ u.ctx = s.ctx) := by
  have hpin : (pinSet s true).byp.pin = true := rfl
  obtain ⟨hmem, hctx⟩ := bypassUpdate_pinSet_frame s true
  rw [bypassForceChange_eq]
  rw [bypassUpdate_of_cause (bypassCauses_of_pin hpin), bypassClosed_pinSet] at hmem hctx ⊢
  refine completes_done fun m => ?_
  cases hc : bypassClosed s with
  | true =>
    have hclosed : bypassClosed (noteCauses { pinSet s true with byp.holdoff := none }) = true :=
      (bypassClosed_noteCauses _).trans ((bypassClosed_pinSet s true).trans hc)
    rw [hc] at hmem hctx
    exact ⟨fbit_of_reg hclosed rfl rfl, rfl, rfl, nofun, hmem, hctx⟩
  | false =>
    have hnote := wordsBut_noteCauses (bypassClose { pinSet s true with byp.holdoff := none })
    have hpins : WordsBut [0x7F5014] s { pinSet s true with byp.holdoff := none } := (wordsBut_pinSet s true).of_reg rfl rfl
    have hcount := hnote.counts (hpins.counts_from (counts_bypassClose _) (by decide)) (by decide)
    have hbyp := bypassClose_byp { pinSet s true with byp.holdoff := none }
    have hports := bypassClose_ports { pinSet s true with byp.holdoff := none }
    have hclosed := (bypassClosed_noteCauses _).trans
      (bypassClosed_bypassClose { pinSet s true with byp.holdoff := none })
    have hraised := hnote.raised (raised_bypassClose _) (by decide)
    rw [hc] at hmem hctx
    exact ⟨fbit_of_reg hclosed rfl rfl, congrArg Bypass.pin hbyp, congrArg Bypass.holdoff hbyp, fun _ =>
      ⟨congrArg Ports.relay hports, congrArg Ports.begun hports, hcount.of_reg rfl rfl, hraised.of_reg rfl rfl⟩,
      hmem, hctx⟩

/-- The last cause gone, the bypass stays closed until the hold-off has passed (R114). -/
theorem bypassForceChange_waits {s : State} (hc : bypassClosed s = true)
    (h : bypassCauses { s with byp.pin := false } = 0) (ho : s.byp.holdoff = none)
    (hms : fget s (.pkg 5) PB5.BYP_CTRL_HOLDOFF_MS ≠ 0) :
    Completes (exec (.bypassForceChange false) s) (fun u =>
      bypassClosed u = true ∧ u.byp.holdoff = some (s.now + fget s (.pkg 5) PB5.BYP_CTRL_HOLDOFF_MS * 1000000) ∧
      u.mem = s.mem ∧ u.ctx = s.ctx) := by
  have hfield : fget (pinSet s false) (.pkg 5) PB5.BYP_CTRL_HOLDOFF_MS = fget s (.pkg 5) PB5.BYP_CTRL_HOLDOFF_MS :=
    (wordsBut_pinSet s false).fget_eq (by decide)
  obtain ⟨hnow, hbyp, -, -⟩ := pinSet_rest s false
  have hends : some ((pinSet s false).now + fget (pinSet s false) (.pkg 5) PB5.BYP_CTRL_HOLDOFF_MS * 1000000) =
      some (s.now + fget s (.pkg 5) PB5.BYP_CTRL_HOLDOFF_MS * 1000000) := by rw [hnow, hfield]
  obtain ⟨hmem, hctx⟩ := bypassUpdate_pinSet_frame s false
  have hclosed := (bypassClosed_pinSet s false).trans hc
  have hstill : bypassClosed (noteCauses (holdoffStarted (pinSet s false))) = true :=
    (bypassClosed_noteCauses _).trans hclosed
  rw [bypassForceChange_eq]
  rw [bypassUpdate_starts_holdoff ((bypassCauses_pinSet s false).trans h) hclosed ((congrArg Bypass.holdoff hbyp).trans ho)
    (by rwa [hfield])] at hmem hctx ⊢
  exact completes_done fun m => ⟨fbit_of_reg hstill rfl rfl, hends, hmem, hctx⟩

theorem holdoffExpire_eq {s : State} {t : Nat} (ht : s.byp.holdoff = some t) (hle : t ≤ s.now) (h : bypassCauses s = 0) :
    exec .holdoffExpire s = done (noteCauses (bypassChange { s with byp.holdoff := none } false)) := by
  change execHoldoffExpire s = _
  simp only [execHoldoffExpire, ht, hle, h, decide_true, Bool.and_self, if_true]

/-- The hold-off over, the bypass opens (R114). -/
theorem holdoffExpire_opens {s : State} {t : Nat} (ht : s.byp.holdoff = some t) (hle : t ≤ s.now)
    (h : bypassCauses s = 0) : Completes (exec .holdoffExpire s) (fun u =>
      bypassClosed u = false ∧ u.byp.holdoff = none ∧ Raised u (.pkg 5) 1 ∧ u.mem = s.mem ∧ u.ctx = s.ctx) := by
  obtain ⟨-, -, hmem, hctx, -⟩ := bypassChange_samePorts { s with byp.holdoff := none } false
  have hbyp := bypassChange_byp { s with byp.holdoff := none } false
  rw [holdoffExpire_eq ht hle h]
  have hopen := (bypassClosed_noteCauses _).trans (bypassClosed_bypassChange { s with byp.holdoff := none } false)
  have hraised := (wordsBut_noteCauses _).raised (raised_bypassChange { s with byp.holdoff := none } false) (by decide)
  exact completes_done fun m =>
    ⟨fbit_of_reg hopen rfl rfl, congrArg Bypass.holdoff hbyp, hraised.of_reg rfl rfl, hmem, hctx⟩

/-! ### The records of a second (R111) -/

/-- The record of a counter's rise in the second `sec`. -/
def riseRecord (sec : Nat) (s : State) (r : Nat × Nat) : Record :=
  { mkRecord s 0x03 0 (pageBase (.pkg 4) + r.1 / 4 * 2 ^ 24) ((r.1 - 0x100) / 0x80) r.2 0 with ns := 0, sec := sec }

theorem violationRecordSecond_eq {s : State} (h : devSec s.tb.dev ≠ s.ports.second) :
    exec .violationRecordSecond s =
      done { (s.ports.rises.foldl (fun t r => pushRecord t (riseRecord (devSec s.tb.dev) t r)) s) with
        ports.rises := [], ports.second := devSec s.tb.dev } := by
  change execViolationRecordSecond s = _
  rw [execViolationRecordSecond]
  exact if_neg h

theorem pushRecord_room {s : State} (r : Record) (h : s.hist.queue.length < 64) :
    pushRecord s r = { s with hist.queue := s.hist.queue ++ [r] } := if_pos h

/-- With room for all of them, each rise leaves a record, in order, and nothing else. -/
theorem foldl_riseRecords (sec : Nat) (rises : List (Nat × Nat)) (s : State)
    (h : s.hist.queue.length + rises.length ≤ 64) :
    ∃ rs, rises.foldl (fun t r => pushRecord t (riseRecord sec t r)) s = { s with hist.queue := s.hist.queue ++ rs } ∧
      rs.map (fun r => (r.kind, r.arg1)) = rises.map (fun r => (0x03, r.2 % 2 ^ 32)) := by
  induction rises generalizing s with
  | nil => exact ⟨[], by simp, rfl⟩
  | cons r rises ih =>
    rw [List.length_cons] at h
    obtain ⟨rs, hfold, hmap⟩ := ih { s with hist.queue := s.hist.queue ++ [riseRecord sec s r] } (by simp; omega)
    refine ⟨riseRecord sec s r :: rs, ?_, ?_⟩
    · rw [List.foldl_cons, pushRecord_room _ (by omega), hfold]
      simp
    · rw [List.map_cons, hmap]
      rfl

/-- Each second leaves a record for every counter that rose. -/
theorem violationRecordSecond_records {s : State} (h : devSec s.tb.dev ≠ s.ports.second)
    (hroom : s.hist.queue.length + s.ports.rises.length ≤ 64) :
    Completes (exec .violationRecordSecond s) (fun u =>
      u.ports.rises = [] ∧ u.ports.second = devSec s.tb.dev ∧
      (∃ rs, u.hist.queue = s.hist.queue ++ rs ∧ rs.map (fun r => (r.kind, r.arg1)) =
        s.ports.rises.map (fun r => (0x03, r.2 % 2 ^ 32))) ∧
      { u with ports.rises := s.ports.rises, ports.second := s.ports.second, hist := s.hist, msix := s.msix,
               err.inj := s.err.inj } = s) := by
  obtain ⟨rs, hfold, hmap⟩ := foldl_riseRecords (devSec s.tb.dev) s.ports.rises s hroom
  rw [violationRecordSecond_eq h, hfold]
  exact completes_done fun m => ⟨rfl, rfl, ⟨rs, rfl, hmap⟩, rfl⟩

/-! ### Ports, relay and bypass -/

/-- The oldest frame of a relay buffer leaves, is counted, and nothing else changes (R103). -/
theorem relayStart_sends {s : State} {e : Fin 2} {g : RelayFrame} {rest : List RelayFrame} (a : Bool)
    (hc : bypassClosed s = false) (hb : SMap.find s.ports.begun e.val = none)
    (hq : SMap.find s.ports.relay e.val = some (g :: rest)) (hp : ptpOffset g.bytes = none) :
    Completes (exec (.relayStart e a) s) (fun u =>
      u.ports.sent = (e.val, ⟨g.bytes, g.ts, false⟩) :: s.ports.sent ∧ SMap.find u.ports.relay e.val = some rest ∧
      Counts s u (.pkg 4) (PB4.RELAY_FWD e.val) 1 ∧
      WordsBut [pageBase (.pkg 4) + (PB4.RELAY_FWD e.val).off] s u ∧
      { u with ports.sent := s.ports.sent, ports.relay := s.ports.relay, reg := s.reg, msix := s.msix,
               err.inj := s.err.inj } = s) := by
  have hcount := counts_fadd s (.pkg 4) (PB4.RELAY_FWD e.val) 1 (Nat.le_refl _)
  have hword := wordsBut_putWord s (.pkg 4) (PB4.RELAY_FWD e.val).off
    (setBits (rawWord s (.pkg 4) (PB4.RELAY_FWD e.val).off) 0 32 (fget s (.pkg 4) (PB4.RELAY_FWD e.val) + 1))
  rw [relayStart_eq a hc hb hq hp]
  exact completes_done fun m =>
    ⟨rfl, SMap.find_put_self _ _ _, hcount.of_reg rfl rfl, hword.of_reg rfl rfl, rfl⟩

/-- Settles O37, clause by clause: what a frame counts, its copy in the relay buffer, the links, the bypass, and the records. -/
theorem portsReceiveRelayAndBypass : Obligations.PortsReceiveRelayAndBypass := by
  unfold Obligations.PortsReceiveRelayAndBypass
  intro s n e f p q bs len counted errored excess elsewhere
  have hbytes : (frameBytes f).length + 4 = len := by simp [frameBytes, len]
  refine ⟨ethernetFrameReceive_ignored, fun hr hu => ⟨fun hlt => ?_, fun hlen hrel => ⟨fun he => ?_, fun hok hx => ?_,
    fun hok hx he => ?_⟩, fun hlen hok hx he hrel hp hmax => ?_⟩, fun h a => relayStart_closed h e a,
    fun g rest a hc hb hq hp => relayStart_sends a hc hb hq hp, fun up h => ?_, bypassForceChange_closes s,
    fun hc h ho hms => bypassForceChange_waits hc h ho hms, fun t ht hle h => holdoffExpire_opens ht hle h,
    fun h hroom => violationRecordSecond_records h hroom⟩
  · exact completes_runt hr hu (hbytes ▸ hlt)
  · exact completes_errored hr hu (hbytes ▸ hlen) hrel he
  · exact completes_oversize hr hu (hbytes ▸ hlen) hrel hok (hbytes ▸ hx)
  · exact completes_elsewhere hr hu hrel ⟨hbytes ▸ hlen, hok, hbytes ▸ hx, he⟩
  · intro waiting hb hroom
    exact completes_relayed hr hu ⟨hbytes ▸ hlen, hok, hbytes ▸ hx, he⟩ hrel hp (hbytes ▸ hmax) hb (hbytes ▸ hroom)
  · intro on
    rw [portLinkChange_eq up h]
    exact ⟨fun he => if_pos he, fun hne => (if_neg hne).symm ▸ completes_linkSet s n.isLt on⟩

end Sys2Proof.Machine
end

section
/-!
PROOFS. Rules of the operations that Voxel Halls and Point Fronts share: bytes written, an event counted with its interrupt bit,
and a die's Hall, Point Front, frame slots and index entries.
-/

namespace Sys2Proof.Machine

/-! ### Completion -/

theorem Completes.imp {o : Host.Outcome State Fault Refusal} {P Q : State → Prop} (h : Completes o P)
    (hPQ : ∀ u, P u → Q u) : Completes o Q := by
  obtain ⟨t, ht, hp⟩ := h
  exact ⟨t, ht, hPQ t hp⟩

/-! ### Bytes -/

/-- A write of bytes changes memory alone. -/
theorem wrBytes_eq (s : State) (a : Nat) (bs : List Nat) : ∃ m, wrBytes s a bs = { s with mem := m } := by
  induction bs generalizing s a with
  | nil => exact ⟨s.mem, rfl⟩
  | cons b bs ih =>
    obtain ⟨m, h⟩ := ih (wrByte s a b) (a + 1)
    exact ⟨m, h⟩

@[simp] theorem wrBytes_reg (s : State) (a : Nat) (bs : List Nat) : (wrBytes s a bs).reg = s.reg := by
  obtain ⟨m, h⟩ := wrBytes_eq s a bs
  rw [h]

@[simp] theorem wrBytes_fuse (s : State) (a : Nat) (bs : List Nat) : (wrBytes s a bs).fuse = s.fuse := by
  obtain ⟨m, h⟩ := wrBytes_eq s a bs
  rw [h]

@[simp] theorem wrBytes_hall (s : State) (a : Nat) (bs : List Nat) : (wrBytes s a bs).hall = s.hall := by
  obtain ⟨m, h⟩ := wrBytes_eq s a bs
  rw [h]

/-- Bytes are read from memory alone. -/
theorem rdBytes_congr {s u : State} (h : u.mem = s.mem) : rdBytes u = rdBytes s := by
  funext a n
  induction n generalizing a with
  | zero => rfl
  | succ n ih => rw [rdBytes, rdBytes, ih, rdByte, rdByte, h]

theorem rdBytes_of_mem {s u : State} {a n : Nat} {bs : List Nat} (h : rdBytes s a n = bs) (hm : u.mem = s.mem) :
    rdBytes u a n = bs := by
  rw [rdBytes_congr hm, h]

theorem BytesBut.from_mem {a n : Nat} {s t u : State} (h : BytesBut a n t u) (hm : t.mem = s.mem) : BytesBut a n s u := by
  intro b hb
  rw [h b hb, rdByte, hm, rdByte]

/-! ### An event counted with its interrupt bit -/

theorem counts_event (s : State) (p : Page) {f : Fld} (b : Nat) (hw : f.lo + f.w ≤ 32) (ho : f.off ≠ 0x14) :
    Counts s (raiseInt (finc s p f) p b) p f 1 :=
  (wordsBut_putWord (finc s p f) p 0x14 _).counts (counts_fadd s p f 1 hw) (by simpa using ho)

/-- A count from `t` is a count from a state with the same registers. -/
theorem Counts.from_reg {s t u : State} {p : Page} {f : Fld} {k : Nat} (h : Counts t u p f k) (hr : t.reg = s.reg)
    (hf : t.fuse = s.fuse) : Counts s u p f k :=
  ((wordsBut_refl [] s).of_reg hr hf).counts_from h List.not_mem_nil

/-! ### Halls and Point Fronts by die -/

theorem hallAt_setHall_ne (s : State) {d e : Nat} (x : Hall) (h : e ≠ d) : hallAt (setHall s d x) e = hallAt s e :=
  SMap.getD_setD_ne _ _ _ _ h

theorem frontAt_setFront_ne (s : State) {d e : Nat} (x : Front) (h : e ≠ d) : frontAt (setFront s d x) e = frontAt s e :=
  SMap.getD_setD_ne _ _ _ _ h

/-! ### Frame slots -/

theorem slotFor_frame {s : State} {d f : Nat} {x : Slot} (h : slotFor s d f = some x) : x.frame = f := by
  unfold slotFor at h
  split at h
  · split at h
    · next he => exact Option.some.inj h ▸ he
    · cases h
  · cases h

/-- The slots of a Hall say which frames it holds. -/
theorem slotFor_congr {s u : State} {d : Nat} (h : (hallAt u d).slots = (hallAt s d).slots) (f : Nat) :
    slotFor u d f = slotFor s d f := by
  unfold slotFor
  rw [h]

theorem hallStopped_congr {s u : State} {d : Nat} (h : (hallAt u d).slots = (hallAt s d).slots) :
    hallStopped u d = hallStopped s d := by
  unfold hallStopped
  rw [h]

@[simp] theorem hallAt_setSlot (s : State) (d : Nat) (x : Slot) : hallAt (setSlot s d x) d =
    { hallAt s d with slots := SMap.put (hallAt s d).slots (x.frame % 4) x } :=
  hallAt_setHall_self s d _

theorem slotFor_setSlot_self (s : State) (d : Nat) (x : Slot) : slotFor (setSlot s d x) d x.frame = some x := by
  simp [slotFor]

/-- A flag set in a frame's header changes one slot of the Hall, and memory; of a frame that the Hall does not hold, nothing. -/
theorem flagSlot_cases {P : State → Prop} {s : State} {d : Nat} (f b : Nat) (hs : P s)
    (hw : ∀ x m, P { setSlot s d x with mem := m }) : P (flagSlot s d f b) := by
  unfold flagSlot
  split
  · next x _ =>
    obtain ⟨m, h⟩ := wrBytes_eq (setSlot s d { x with flags := setBits x.flags b 1 1 }) (slotBase s d (f % 4) + 4)
      (toLe 4 (setBits x.flags b 1 1))
    rw [wrN, h]
    exact hw _ m
  · exact hs

@[simp] theorem flagSlot_reg (s : State) (d f b : Nat) : (flagSlot s d f b).reg = s.reg :=
  flagSlot_cases (P := fun u => u.reg = s.reg) f b rfl fun _ _ => rfl

@[simp] theorem flagSlot_fuse (s : State) (d f b : Nat) : (flagSlot s d f b).fuse = s.fuse :=
  flagSlot_cases (P := fun u => u.fuse = s.fuse) f b rfl fun _ _ => rfl

theorem hallAt_flagSlot (s : State) (d f b : Nat) :
    ∃ sl, hallAt (flagSlot s d f b) d = { hallAt s d with slots := sl } :=
  flagSlot_cases (P := fun u => ∃ sl, hallAt u d = { hallAt s d with slots := sl }) f b ⟨(hallAt s d).slots, rfl⟩
    fun x _ => ⟨_, hallAt_setSlot s d x⟩

/-- A flag of a frame is written to the second word of its header (R162). -/
theorem bytesBut_flagSlot (s : State) (d f b : Nat) : BytesBut (slotBase s d (f % 4) + 4) 4 s (flagSlot s d f b) := by
  intro a ha
  unfold flagSlot
  split
  · exact rdByte_wrN_outside _ _ _ _ _ ha
  · rfl

/-! ### Index entries -/

theorem indexAt_congr {s u : State} {d : Nat} (h : (hallAt u d).index = (hallAt s d).index) (i : Nat) :
    indexAt u d i = indexAt s d i := by
  unfold indexAt
  rw [h]

@[simp] theorem hallAt_setIndex (s : State) (d i w : Nat) : hallAt (setIndex s d i w) d =
    { hallAt s d with index := SMap.setD (hallAt s d).index (i % indexSize) (BitVec.ofNat 32 w) 0#32 } :=
  hallAt_setHall_self s d _

theorem slotFor_setIndex (s : State) (d i w f : Nat) : slotFor (setIndex s d i w) d f = slotFor s d f :=
  slotFor_congr (by rw [hallAt_setIndex]) f

theorem queue_setIndex (s : State) (d i w : Nat) : (hallAt (setIndex s d i w) d).queue = (hallAt s d).queue := by
  rw [hallAt_setIndex]

theorem indexAt_setIndex_self (s : State) (d i w : Nat) : indexAt (setIndex s d i w) d i = w % 2 ^ 32 := by
  simp [indexAt]

theorem indexAt_setIndex_ne (s : State) (d w : Nat) {i j : Nat} (h : j % indexSize ≠ i % indexSize) :
    indexAt (setIndex s d i w) d j = indexAt s d j := by
  simp only [indexAt, hallAt_setIndex, SMap.getD_setD_ne _ _ _ _ h]

/-! ### Cell records -/

theorem Cell.bytes_length (c : Cell) : c.bytes.length = 32 := by
  simp [Cell.bytes, toLe_length]

/-- What writing the record of cell `n` of a slot leaves (R142). -/
structure CellWritten (s : State) (d sl n : Nat) (c : Cell) (u : State) : Prop where
  record : rdBytes u (cellAddr s d sl n) 32 = c.bytes.map (· % 256)
  bytes : BytesBut (cellAddr s d sl n) 32 s u
  hall : u.hall = s.hall
  reg : u.reg = s.reg
  fuse : u.fuse = s.fuse

theorem cellWritten_writeCell (s : State) (d sl n : Nat) (c : Cell) : CellWritten s d sl n c (writeCell s d sl n c) where
  record := by
    rw [← c.bytes_length]
    exact rdBytes_wrBytes s (cellAddr s d sl n) c.bytes
  bytes _ hb := rdByte_wrBytes_outside s _ _ _ (c.bytes_length.symm ▸ hb)
  hall := wrBytes_hall s _ _
  reg := wrBytes_reg s _ _
  fuse := wrBytes_fuse s _ _

theorem hallAt_congr {s u : State} (h : u.hall = s.hall) (d : Nat) : hallAt u d = hallAt s d := by
  rw [hallAt, h, hallAt]

/-- Records are read from memory, at the place that CELL_STORE names. -/
theorem readCell_setHall (s : State) (d : Nat) (y : Hall) : readCell (setHall s d y) = readCell s := by
  funext e sl n
  rw [readCell, rdBytes_congr (show (setHall s d y).mem = s.mem from rfl)]
  rfl

theorem indexFind_congr {s u : State} {d : Nat} (hi : (hallAt u d).index = (hallAt s d).index)
    (hr : readCell u = readCell s) (x : Slot) (key : List Int) : indexFind u d x key = indexFind s d x key := by
  simp only [indexFind, indexAt_congr hi, hr]

theorem indexFree_congr {s u : State} {d : Nat} (hi : (hallAt u d).index = (hallAt s d).index) (x : Slot)
    (key : List Int) : indexFree u d x key = indexFree s d x key := by
  simp only [indexFree, indexAt_congr hi]

end Sys2Proof.Machine
end

section
/-!
PROOFS. The point at the head of a die's probe input is offered to its cell (R148, R150, R153, R155, R588).
-/

namespace Sys2Proof.Machine

/-! ### What offering a point leaves alone -/

/-- Only die `d`'s Hall, memory, and words of the die's pages B1 and B2 may differ, and what a command's end changes. -/
structure ProbeKept (s : State) (d : Nat) (u : State) : Prop where
  halls : ∀ e, e ≠ d → hallAt u e = hallAt s e
  rest : { u with hall := s.hall, mem := s.mem, reg := s.reg, msix := s.msix, err.inj := s.err.inj } = s
  words : WordsBut (pageWords (.die d 1) ++ pageWords (.die d 2)) s u

section Kept

variable {s t : State} {d : Nat} (h : ProbeKept s d t)
include h

theorem ProbeKept.setHall (x : Hall) : ProbeKept s d (setHall t d x) where
  halls e he := (hallAt_setHall_ne t x he).trans (h.halls e he)
  rest := h.rest
  words := h.words.of_reg rfl rfl

theorem ProbeKept.memory (m : List Host.Cell) : ProbeKept s d { t with mem := m } :=
  ⟨h.halls, h.rest, h.words.of_reg rfl rfl⟩

theorem ProbeKept.writeCell (sl n : Nat) (c : Cell) : ProbeKept s d (writeCell t d sl n c) := by
  obtain ⟨m, hm⟩ := wrBytes_eq t (cellAddr t d sl n) c.bytes
  rw [Machine.writeCell, hm]
  exact h.memory m

/-- A word of page B1 or B2 of the die is written. -/
theorem ProbeKept.putWord {k off : Nat} (hk : k = 1 ∨ k = 2) (ho : off < 0x1000) (v : Nat) :
    ProbeKept s d (putWord t (.die d k) off v) where
  halls := h.halls
  rest := h.rest
  words := h.words.putWord_of_mem v (by
    obtain rfl | rfl := hk
    · exact List.mem_append_left _ (mem_pageWords _ ho)
    · exact List.mem_append_right _ (mem_pageWords _ ho))

theorem ProbeKept.finc {k : Nat} {g : Fld} (hk : k = 1 ∨ k = 2) (ho : g.off < 0x1000) : ProbeKept s d (finc t (.die d k) g) :=
  h.putWord hk ho _

theorem ProbeKept.raiseInt {k : Nat} (hk : k = 1 ∨ k = 2) (b : Nat) : ProbeKept s d (raiseInt t (.die d k) b) :=
  h.putWord hk (by decide) _

theorem ProbeKept.flagSlot (f b : Nat) : ProbeKept s d (flagSlot t d f b) :=
  flagSlot_cases f b h fun _ m => (h.setHall _).memory m

theorem ProbeKept.defer (f : Nat) (c : Cell) : ProbeKept s d (defer t d f c) := by
  have hflag := h.flagSlot f 6
  unfold Machine.defer
  dsimp only
  split
  · exact ((hflag.setHall _).finc (.inr rfl) (by decide)).raiseInt (.inr rfl) 0
  · exact ((hflag.setHall _).finc (.inr rfl) (by decide)).raiseInt (.inr rfl) 1

theorem ProbeKept.createCell (x : Slot) (c : Cell) : ProbeKept s d (createCell t d x c) :=
  ((h.writeCell _ _ _).setHall _).finc (.inr rfl) (by decide)

theorem ProbeKept.setIndex (i w : Nat) : ProbeKept s d (setIndex t d i w) := h.setHall _

theorem ProbeKept.atEnd (m : Msix) : ProbeKept s d { t with msix := m, err.inj := false } :=
  ⟨h.halls, h.rest, h.words.of_reg rfl rfl⟩

end Kept

theorem ProbeKept.refl (s : State) (d : Nat) : ProbeKept s d s := ⟨fun _ _ => rfl, rfl, wordsBut_refl _ s⟩

/-! ### Where a point goes -/

section Offered

variable {s : State} {d f : Nat} {c : Cell}

/-- A frame that the Hall does not hold loses its point (R141, R158). -/
theorem offer_noFrame (h : slotFor s d f = none) : offer s d f c = s := by
  simp only [offer, h]

/-- No frame being emptied shares its parity with frame `f`. -/
theorem notPinned (h : ∀ g, (hallAt s d).emptying = some g → g % 2 ≠ f % 2) :
    ¬ (hallAt s d).emptying.map (· % 2) = some (f % 2) := by
  rw [Option.map_eq_some_iff]
  rintro ⟨g, hg, hp⟩
  exact h g hg hp

variable {x : Slot} (hx : slotFor s d f = some x)
include hx

/-- A Hall that has stopped refuses the point and counts it (R588). -/
theorem offer_stopped (h : hallStopped s d = true) :
    offer s d f c = raiseInt (finc s (.die d 1) DB1.HALL_DOWN) (.die d 1) 3 := by
  simp only [offer, hx, h, if_true]

variable (hrun : hallStopped s d = false)
include hrun

/-- A point whose frame shares its parity with a frame being emptied is deferred (R153). -/
theorem offer_pinned {g : Nat} (hg : (hallAt s d).emptying = some g) (hp : g % 2 = f % 2) :
    offer s d f c = defer s d f c := by
  simp [offer, hx, hrun, hg, hp]

variable (hfree : ∀ g, (hallAt s d).emptying = some g → g % 2 ≠ f % 2)
include hfree

/-- With no older frame in the way, the point that the probe has placed is counted. -/
theorem offer_placed {t : State} (h : probe s d x c false = (.placed, t)) :
    offer s d f c = finc t (.die d 2) DB2.PLACED := by
  simp only [offer, hx, hrun, notPinned hfree, h, Bool.false_eq_true, if_false]

/-- A key with a cell updates the cell's record (R155). -/
theorem offer_found {n : Nat} (h : indexFind s d x c.key = some n) : offer s d f c =
    finc (writeCell s d (f % 4) n (combine s d x (readCell s d (f % 4) n) c false)) (.die d 2) DB2.PLACED :=
  offer_placed hx hrun hfree (by rw [probe, h, slotFor_frame hx])

/-- A key without a cell takes the first empty entry of its window, and the slot's next cell number. -/
theorem offer_new {i tag : Nat} (h : indexFind s d x c.key = none) (hi : indexFree s d x c.key = some (i, tag)) :
    offer s d f c = finc (setIndex (createCell s d x c) d i (tag * 2 ^ 22 + f % 2 * 2 ^ 21 + x.cells)) (.die d 2)
      DB2.PLACED := by
  have hprobe : probe s d x c false =
      (.placed, setIndex (createCell s d x c) d i (tag * 2 ^ 22 + f % 2 * 2 ^ 21 + x.cells)) := by
    simp only [probe, h, hi, slotFor_frame hx, Bool.false_eq_true, if_false]
  exact offer_placed hx hrun hfree hprobe

/-- With its window full the point is deferred (R150). -/
theorem offer_full (h : indexFind s d x c.key = none) (hi : indexFree s d x c.key = none) :
    offer s d f c = defer s d f c := by
  simp only [offer, hx, hrun, notPinned hfree, probe, h, hi, Bool.false_eq_true, if_false]

end Offered

/-! ### Deferral (R150) -/

/-- What the deferral of a point leaves: DEFERRED in its frame's header, and the point at the end of the alcove or, that being
full, of the overflow region. -/
structure Deferred (s : State) (d f : Nat) (c : Cell) (u : State) : Prop where
  header : BytesBut (slotBase s d (f % 4) + 4) 4 s u
  room : (hallAt s d).alcove.length < 65536 → (hallAt u d).alcove = (hallAt s d).alcove ++ [(f, c)] ∧
    (hallAt u d).ovf = (hallAt s d).ovf ∧ Counts s u (.die d 2) DB2.ALCOVE_IN 1 ∧ Raised u (.die d 2) 0
  full : 65536 ≤ (hallAt s d).alcove.length → (hallAt u d).alcove = (hallAt s d).alcove ∧
    (hallAt u d).ovf = (hallAt s d).ovf ++ [(f, c)] ∧ Counts s u (.die d 2) DB2.DRAM_OVF_IN 1 ∧ Raised u (.die d 2) 1
  queue : (hallAt u d).queue = (hallAt s d).queue
  index : (hallAt u d).index = (hallAt s d).index

theorem deferred_defer (s : State) (d f : Nat) (c : Cell) : Deferred s d f c (defer s d f c) := by
  obtain ⟨sl, hsl⟩ := hallAt_flagSlot s d f 6
  have hcount : ∀ (y : Hall) (g : Fld) (b : Nat), g.lo + g.w ≤ 32 → g.off ≠ 0x14 →
      Counts s (raiseInt (finc (setHall (flagSlot s d f 6) d y) (.die d 2) g) (.die d 2) b) (.die d 2) g 1 :=
    fun y g b hw ho => (counts_event _ _ b hw ho).from_reg (flagSlot_reg s d f 6) (flagSlot_fuse s d f 6)
  have hhall : ∀ (y : Hall) (g : Fld) (b : Nat),
      hallAt (raiseInt (finc (setHall (flagSlot s d f 6) d y) (.die d 2) g) (.die d 2) b) d = y :=
    fun y _ _ => hallAt_setHall_self _ d y
  unfold defer
  dsimp only
  split
  · next hroom =>
    refine ⟨bytesBut_flagSlot s d f 6, fun _ => ?_, fun hfull => absurd hroom (by omega), ?_, ?_⟩ <;> rw [hhall, hsl]
    exact ⟨rfl, rfl, hcount _ _ _ (by decide) (by decide), raiseInt_bit _ _ _ (by decide)⟩
  · next hfull =>
    refine ⟨bytesBut_flagSlot s d f 6, fun hroom => absurd hroom hfull, fun _ => ?_, ?_, ?_⟩ <;> rw [hhall, hsl]
    exact ⟨rfl, rfl, hcount _ _ _ (by decide) (by decide), raiseInt_bit _ _ _ (by decide)⟩

theorem Deferred.atEnd {s t : State} {d f : Nat} {c : Cell} (h : Deferred s d f c t) (m : Msix) :
    Deferred s d f c { t with msix := m, err.inj := false } :=
  ⟨h.header, h.room, h.full, h.queue, h.index⟩

/-! ### A new cell -/

/-- A cell made of a candidate: its record, the slot with one more cell, and CELLS_NEW; the index is as it was. -/
structure CellMade (s : State) (d : Nat) (x : Slot) (c : Cell) (u : State) : Prop where
  record : rdBytes u (cellAddr s d (x.frame % 4) x.cells) 32 = ({ c with feat := 0xFFFFFFFF }).bytes.map (· % 256)
  bytes : BytesBut (cellAddr s d (x.frame % 4) x.cells) 32 s u
  slot : slotFor u d x.frame = some { x with cells := x.cells + 1 }
  index : (hallAt u d).index = (hallAt s d).index
  queue : (hallAt u d).queue = (hallAt s d).queue
  count : Counts s u (.die d 2) DB2.CELLS_NEW 1
  words : WordsBut [pageBase (.die d 2) + DB2.CELLS_NEW.off] s u

theorem CellWritten.made {s t : State} {d : Nat} {x : Slot} {c : Cell}
    (h : CellWritten s d (x.frame % 4) x.cells { c with feat := 0xFFFFFFFF } t) :
    CellMade s d x c (finc (setSlot t d { x with cells := x.cells + 1 }) (.die d 2) DB2.CELLS_NEW) := by
  obtain ⟨hrecord, hbytes, hhall, hreg, hfuse⟩ := h
  have hset : hallAt (finc (setSlot t d { x with cells := x.cells + 1 }) (.die d 2) DB2.CELLS_NEW) d =
      { hallAt s d with slots := SMap.put (hallAt s d).slots (x.frame % 4) { x with cells := x.cells + 1 } } := by
    rw [← hallAt_congr hhall]
    exact hallAt_setSlot t d _
  exact {
    record := rdBytes_of_mem hrecord rfl
    bytes := hbytes
    slot := slotFor_setSlot_self t d { x with cells := x.cells + 1 }
    index := by rw [hset]
    queue := by rw [hset]
    count := (counts_fadd (setSlot t d _) _ DB2.CELLS_NEW 1 (by decide)).from_reg hreg hfuse
    words := ((wordsBut_refl [] s).of_reg hreg hfuse).trans (wordsBut_putWord t (.die d 2) DB2.CELLS_NEW.off _) }

theorem cellMade_createCell (s : State) (d : Nat) (x : Slot) (c : Cell) : CellMade s d x c (createCell s d x c) :=
  (cellWritten_writeCell s d _ _ _).made

/-- What a new cell leaves once its number stands in entry `i` of the index, as word `w`, and the point counts as placed. -/
structure CellIndexed (s : State) (d : Nat) (x : Slot) (c : Cell) (i w : Nat) (u : State) : Prop where
  record : rdBytes u (cellAddr s d (x.frame % 4) x.cells) 32 = ({ c with feat := 0xFFFFFFFF }).bytes.map (· % 256)
  bytes : BytesBut (cellAddr s d (x.frame % 4) x.cells) 32 s u
  entry : indexAt u d i = w % 2 ^ 32
  others : ∀ j, j % indexSize ≠ i % indexSize → indexAt u d j = indexAt s d j
  slot : slotFor u d x.frame = some { x with cells := x.cells + 1 }
  queue : (hallAt u d).queue = (hallAt s d).queue
  made : Counts s u (.die d 2) DB2.CELLS_NEW 1
  placed : Counts s u (.die d 2) DB2.PLACED 1

theorem CellIndexed.atEnd {s t : State} {d : Nat} {x : Slot} {c : Cell} {i w : Nat} (h : CellIndexed s d x c i w t)
    (m : Msix) : CellIndexed s d x c i w { t with msix := m, err.inj := false } :=
  ⟨rdBytes_of_mem h.record rfl, h.bytes, h.entry, h.others, h.slot, h.queue, h.made.of_reg rfl rfl, h.placed.of_reg rfl rfl⟩

theorem CellMade.indexed {s t : State} {d : Nat} {x : Slot} {c : Cell} (h : CellMade s d x c t) (i w : Nat) :
    CellIndexed s d x c i w (finc (setIndex t d i w) (.die d 2) DB2.PLACED) := by
  obtain ⟨hrecord, hbytes, hslot, hindex, hqueue, hcount, hwords⟩ := h
  have hplaced : Counts t (finc (setIndex t d i w) (.die d 2) DB2.PLACED) (.die d 2) DB2.PLACED 1 :=
    (counts_fadd _ _ DB2.PLACED 1 (by decide)).from_reg rfl rfl
  have hword : WordsBut [pageBase (.die d 2) + DB2.PLACED.off] t (finc (setIndex t d i w) (.die d 2) DB2.PLACED) :=
    wordsBut_putWord t (.die d 2) DB2.PLACED.off _
  exact {
    record := rdBytes_of_mem hrecord rfl
    bytes := hbytes
    entry := indexAt_setIndex_self t d i w
    others := fun j hj => (indexAt_setIndex_ne t d w hj).trans (indexAt_congr hindex j)
    slot := (slotFor_setIndex t d i w x.frame).trans hslot
    queue := (queue_setIndex t d i w).trans hqueue
    made := hword.counts hcount (by simp [DB2.CELLS_NEW, DB2.PLACED])
    placed := hwords.counts_from hplaced (by simp [DB2.CELLS_NEW, DB2.PLACED]) }

/-! ### A cell that has a record -/

/-- What an update of cell `n`'s record to `y` leaves, the point counting as placed. -/
structure CellUpdated (s : State) (d sl n : Nat) (y : Cell) (u : State) : Prop where
  record : rdBytes u (cellAddr s d sl n) 32 = y.bytes.map (· % 256)
  bytes : BytesBut (cellAddr s d sl n) 32 s u
  hall : u.hall = s.hall
  placed : Counts s u (.die d 2) DB2.PLACED 1

theorem CellWritten.updated {s t : State} {d sl n : Nat} {y : Cell} (h : CellWritten s d sl n y t) :
    CellUpdated s d sl n y (finc t (.die d 2) DB2.PLACED) :=
  ⟨rdBytes_of_mem h.record rfl, h.bytes, h.hall, (counts_fadd t _ DB2.PLACED 1 (by decide)).from_reg h.reg h.fuse⟩

theorem CellUpdated.atEnd {s t : State} {d sl n : Nat} {y : Cell} (h : CellUpdated s d sl n y t) (m : Msix) :
    CellUpdated s d sl n y { t with msix := m, err.inj := false } :=
  ⟨rdBytes_of_mem h.record rfl, h.bytes, h.hall, h.placed.of_reg rfl rfl⟩

/-! ### The probe -/

theorem exec_pointProbe (d : Fin 2) (s : State) : exec (.pointProbe d) s = execPointProbe d s := rfl

/-- The Hall with the point at the head of its probe input taken from it. -/
def pointTaken (s : State) (d : Nat) (rest : List (Nat × Cell)) : State := setHall s d { hallAt s d with queue := rest }

theorem pointProbe_eq {s : State} {d : Fin 2} {f : Nat} {c : Cell} {rest : List (Nat × Cell)}
    (h : (hallAt s d.val).queue = (f, c) :: rest) :
    exec (.pointProbe d) s = done (offer (pointTaken s d.val rest) d.val f c) := by
  simp only [exec_pointProbe, execPointProbe, h, pointTaken]

section Taken

variable (s : State) (d : Nat) (rest : List (Nat × Cell))

theorem hallAt_pointTaken : hallAt (pointTaken s d rest) d = { hallAt s d with queue := rest } := hallAt_setHall_self s d _

theorem cellAddr_pointTaken : cellAddr (pointTaken s d rest) = cellAddr s := rfl

theorem slots_pointTaken : (hallAt (pointTaken s d rest) d).slots = (hallAt s d).slots := by
  rw [hallAt_pointTaken]

theorem index_pointTaken : (hallAt (pointTaken s d rest) d).index = (hallAt s d).index := by
  rw [hallAt_pointTaken]

theorem queue_pointTaken : (hallAt (pointTaken s d rest) d).queue = rest := by
  rw [hallAt_pointTaken]

theorem slotFor_pointTaken (f : Nat) : slotFor (pointTaken s d rest) d f = slotFor s d f :=
  slotFor_congr (slots_pointTaken s d rest) f

theorem hallStopped_pointTaken : hallStopped (pointTaken s d rest) d = hallStopped s d :=
  hallStopped_congr (slots_pointTaken s d rest)

theorem readCell_pointTaken : readCell (pointTaken s d rest) = readCell s := readCell_setHall s d _

theorem combine_pointTaken : combine (pointTaken s d rest) = combine s := rfl

theorem indexFind_pointTaken (x : Slot) (key : List Int) :
    indexFind (pointTaken s d rest) d x key = indexFind s d x key :=
  indexFind_congr (index_pointTaken s d rest) (readCell_pointTaken s d rest) x key

theorem indexFree_pointTaken (x : Slot) (key : List Int) :
    indexFree (pointTaken s d rest) d x key = indexFree s d x key :=
  indexFree_congr (index_pointTaken s d rest) x key

theorem probeKept_pointTaken : ProbeKept s d (pointTaken s d rest) := (ProbeKept.refl s d).setHall _

end Taken

section Probed

variable {s : State} {d : Fin 2} {f : Nat} {c : Cell} {rest : List (Nat × Cell)}
  (hq : (hallAt s d.val).queue = (f, c) :: rest)
include hq

theorem pointProbe_noFrame (h : slotFor s d.val f = none) : Completes (exec (.pointProbe d) s) (fun u =>
    hallAt u d.val = { hallAt s d.val with queue := rest } ∧ SameBytes s u ∧ u.reg = s.reg ∧ ProbeKept s d.val u) := by
  rw [pointProbe_eq hq, offer_noFrame ((slotFor_pointTaken s d.val rest f).trans h)]
  exact completes_done fun m =>
    ⟨hallAt_pointTaken s d.val rest, fun _ => rfl, rfl, (probeKept_pointTaken s d.val rest).atEnd m⟩

/-- What the deferral of a die's next point leaves of the state before. -/
def PointDeferred (s : State) (d f : Nat) (c : Cell) (rest : List (Nat × Cell)) (u : State) : Prop :=
  BytesBut (slotBase s d (f % 4) + 4) 4 s u ∧
  ((hallAt s d).alcove.length < 65536 → (hallAt u d).alcove = (hallAt s d).alcove ++ [(f, c)] ∧
    (hallAt u d).ovf = (hallAt s d).ovf ∧ Counts s u (.die d 2) DB2.ALCOVE_IN 1 ∧ Raised u (.die d 2) 0) ∧
  (65536 ≤ (hallAt s d).alcove.length → (hallAt u d).alcove = (hallAt s d).alcove ∧
    (hallAt u d).ovf = (hallAt s d).ovf ++ [(f, c)] ∧ Counts s u (.die d 2) DB2.DRAM_OVF_IN 1 ∧ Raised u (.die d 2) 1) ∧
  (hallAt u d).queue = rest ∧ (hallAt u d).index = (hallAt s d).index ∧ ProbeKept s d u

theorem pointProbe_defers (h : offer (pointTaken s d.val rest) d.val f c = defer (pointTaken s d.val rest) d.val f c) :
    Completes (exec (.pointProbe d) s) (PointDeferred s d.val f c rest) := by
  have hdefer := deferred_defer (pointTaken s d.val rest) d.val f c
  have hkept := (probeKept_pointTaken s d.val rest).defer f c
  have hdone : Completes (exec (.pointProbe d) s)
      (fun u => Deferred (pointTaken s d.val rest) d.val f c u ∧ ProbeKept s d.val u) := by
    rw [pointProbe_eq hq, h]
    exact completes_done fun m => ⟨hdefer.atEnd m, hkept.atEnd m⟩
  refine hdone.imp fun u ⟨⟨hheader, hroom, hfull, hqueue, hindex⟩, hkept⟩ => ?_
  rw [hallAt_pointTaken] at hroom hfull hqueue hindex
  exact ⟨hheader.from_mem rfl, hroom, hfull, hqueue, hindex, hkept⟩

variable {x : Slot} (hx : slotFor s d.val f = some x)
include hx

theorem pointProbe_stopped (h : hallStopped s d.val = true) : Completes (exec (.pointProbe d) s) (fun u =>
    hallAt u d.val = { hallAt s d.val with queue := rest } ∧ Counts s u (.die d.val 1) DB1.HALL_DOWN 1 ∧
    Raised u (.die d.val 1) 3 ∧ SameBytes s u ∧ ProbeKept s d.val u) := by
  have hcount : Counts s (raiseInt (finc (pointTaken s d.val rest) (.die d.val 1) DB1.HALL_DOWN) (.die d.val 1) 3)
      (.die d.val 1) DB1.HALL_DOWN 1 := (counts_event _ _ 3 (by decide) (by decide)).from_reg rfl rfl
  have hraised := raiseInt_bit (finc (pointTaken s d.val rest) (.die d.val 1) DB1.HALL_DOWN) (.die d.val 1) 3 (by decide)
  have hkept := ((probeKept_pointTaken s d.val rest).finc (g := DB1.HALL_DOWN) (.inl rfl) (by decide)).raiseInt (.inl rfl) 3
  rw [pointProbe_eq hq, offer_stopped ((slotFor_pointTaken s d.val rest f).trans hx)
    ((hallStopped_pointTaken s d.val rest).trans h)]
  exact completes_done fun m =>
    ⟨hallAt_pointTaken s d.val rest, hcount.of_reg rfl rfl, Raised.of_reg hraised rfl rfl, fun _ => rfl, hkept.atEnd m⟩

variable (hrun : hallStopped s d.val = false)
  (hfree : ∀ g, (hallAt s d.val).emptying = some g → g % 2 ≠ f % 2)
include hrun hfree

theorem pointProbe_found {n : Nat} (h : indexFind s d.val x c.key = some n) : Completes (exec (.pointProbe d) s) (fun u =>
    CellUpdated (pointTaken s d.val rest) d.val (f % 4) n (combine s d.val x (readCell s d.val (f % 4) n) c false) u ∧
    ProbeKept s d.val u) := by
  rw [pointProbe_eq hq, offer_found ((slotFor_pointTaken s d.val rest f).trans hx)
    ((hallStopped_pointTaken s d.val rest).trans hrun) (by rwa [hallAt_pointTaken])
    ((indexFind_pointTaken s d.val rest x c.key).trans h), readCell_pointTaken, combine_pointTaken]
  have hupdated := (cellWritten_writeCell (pointTaken s d.val rest) d.val (f % 4) n
    (combine s d.val x (readCell s d.val (f % 4) n) c false)).updated
  have hkept := ((probeKept_pointTaken s d.val rest).writeCell (f % 4) n
    (combine s d.val x (readCell s d.val (f % 4) n) c false)).finc (g := DB2.PLACED) (.inr rfl) (by decide)
  exact completes_done fun m => ⟨hupdated.atEnd m, hkept.atEnd m⟩

theorem pointProbe_new {i tag : Nat} (h : indexFind s d.val x c.key = none)
    (hi : indexFree s d.val x c.key = some (i, tag)) : Completes (exec (.pointProbe d) s) (fun u =>
      CellIndexed (pointTaken s d.val rest) d.val x c i (tag * 2 ^ 22 + f % 2 * 2 ^ 21 + x.cells) u ∧
      ProbeKept s d.val u) := by
  rw [pointProbe_eq hq, offer_new ((slotFor_pointTaken s d.val rest f).trans hx)
    ((hallStopped_pointTaken s d.val rest).trans hrun) (by rwa [hallAt_pointTaken])
    ((indexFind_pointTaken s d.val rest x c.key).trans h) ((indexFree_pointTaken s d.val rest x c.key).trans hi)]
  have hindexed := (cellMade_createCell (pointTaken s d.val rest) d.val x c).indexed i
    (tag * 2 ^ 22 + f % 2 * 2 ^ 21 + x.cells)
  have hkept := (((probeKept_pointTaken s d.val rest).createCell x c).setIndex i
    (tag * 2 ^ 22 + f % 2 * 2 ^ 21 + x.cells)).finc (g := DB2.PLACED) (.inr rfl) (by decide)
  exact completes_done fun m => ⟨hindexed.atEnd m, hkept.atEnd m⟩

end Probed

/-- Settles O38: each clause is one of the places that `offer` finds for the point, which has left the probe input. -/
theorem pointsAreProbedInOrder : Obligations.PointsAreProbedInOrder := by
  unfold Obligations.PointsAreProbedInOrder
  intro s d f c rest h p hq kept header deferred
  have hkept : ∀ u, ProbeKept s d.val u → kept u := fun u ⟨hhalls, hrest, hwords⟩ => ⟨hhalls, hrest, hwords⟩
  have hdefers : offer (pointTaken s d.val rest) d.val f c = defer (pointTaken s d.val rest) d.val f c →
      Completes (exec (.pointProbe d) s) deferred := fun hd => (pointProbe_defers hq hd).imp
    fun u ⟨hheader, hroom, hfull, hqueue, hindex, hk⟩ => ⟨hheader, hroom, hfull, hqueue, hindex, hkept u hk⟩
  refine ⟨fun hx => ?_, fun x hx => ⟨fun hstop => ?_, fun hrun hpin => ?_, fun hrun hfree => ⟨fun n hn => ?_,
    fun i tag hn hi => ?_, fun hn hi => ?_⟩⟩⟩
  · exact (pointProbe_noFrame hq hx).imp fun u ⟨hhall, hmem, hreg, hk⟩ => ⟨hhall, hmem, hreg, hkept u hk⟩
  · exact (pointProbe_stopped hq hx hstop).imp fun u ⟨hhall, hcount, hraised, hmem, hk⟩ =>
      ⟨hhall, hcount, hraised, hmem, hkept u hk⟩
  · obtain ⟨g, hg, hp⟩ := hpin
    exact hdefers (offer_pinned ((slotFor_pointTaken s d.val rest f).trans hx)
      ((hallStopped_pointTaken s d.val rest).trans hrun) (by rwa [hallAt_pointTaken]) hp)
  · exact (pointProbe_found hq hx hrun hfree hn).imp fun u ⟨⟨hrecord, hbytes, hhall, hplaced⟩, hk⟩ =>
      ⟨hrecord, hbytes.from_mem rfl, (hallAt_congr hhall d.val).trans (hallAt_pointTaken s d.val rest),
        hplaced.from_reg rfl rfl, hkept u hk⟩
  · obtain rfl := slotFor_frame hx
    refine (pointProbe_new hq hx hrun hfree hn hi).imp fun u
      ⟨⟨hrecord, hbytes, hentry, hothers, hslot, hqueue, hmade, hplaced⟩, hk⟩ => ?_
    rw [cellAddr_pointTaken] at hrecord hbytes
    rw [queue_pointTaken] at hqueue
    exact ⟨hrecord, hbytes.from_mem rfl, hentry,
      fun j hj => (hothers j hj).trans (indexAt_congr (index_pointTaken s d.val rest) j), hslot, hqueue,
      hmade.from_reg rfl rfl, hplaced.from_reg rfl rfl, hkept u hk⟩
  · exact hdefers (offer_full ((slotFor_pointTaken s d.val rest f).trans hx)
      ((hallStopped_pointTaken s d.val rest).trans hrun) (by rwa [hallAt_pointTaken])
      ((indexFind_pointTaken s d.val rest x c.key).trans hn) ((indexFree_pointTaken s d.val rest x c.key).trans hi))

end Sys2Proof.Machine
end

section
/-!
PROOFS. What a point on its way through a Point Front to a Hall leaves alone: no core, no context and no byte of host memory
differs, whatever the packet and its points meet (R100 to R146, R731).
-/

namespace Sys2Proof.Machine

/-- The cores, their contexts and host memory are as they were. -/
structure SameThreads (s u : State) : Prop where
  core : u.core = s.core
  ctx : u.ctx = s.ctx
  hostMem : u.hostMem = s.hostMem

theorem SameThreads.refl (s : State) : SameThreads s s := ⟨rfl, rfl, rfl⟩

theorem SameThreads.trans {s t u : State} (h : SameThreads s t) (k : SameThreads t u) : SameThreads s u :=
  ⟨k.core.trans h.core, k.ctx.trans h.ctx, k.hostMem.trans h.hostMem⟩

/-- The same with the later step first, which says what stands between the two. -/
theorem SameThreads.after {s t u : State} (k : SameThreads t u) (h : SameThreads s t) : SameThreads s u := h.trans k

theorem SameThreads.ite {s t u : State} {c : Prop} [Decidable c] (ht : SameThreads s t) (hu : SameThreads s u) :
    SameThreads s (if c then t else u) := by
  split
  · exact ht
  · exact hu

/-! ### Shared operations -/

theorem finc_sameThreads (s : State) (p : Page) (f : Fld) : SameThreads s (finc s p f) := ⟨rfl, rfl, rfl⟩

theorem frontCount_sameThreads (s : State) (d : Nat) (f : Fld) (b : Nat) : SameThreads s (frontCount s d f b) :=
  ⟨rfl, rfl, rfl⟩

theorem portViolation_sameThreads (s : State) (n : Nat) (f : Fld) : SameThreads s (portViolation s n f) := ⟨rfl, rfl, rfl⟩

theorem setFront_sameThreads (s : State) (d : Nat) (x : Front) : SameThreads s (setFront s d x) := ⟨rfl, rfl, rfl⟩

theorem setFrontFrame_sameThreads (s : State) (d f : Nat) (x : FrontFrame) : SameThreads s (setFrontFrame s d f x) :=
  ⟨rfl, rfl, rfl⟩

theorem flagSlot_sameThreads (s : State) (d f b : Nat) : SameThreads s (flagSlot s d f b) :=
  flagSlot_cases f b (.refl s) fun _ _ => ⟨rfl, rfl, rfl⟩

theorem pushRecord_sameThreads (s : State) (r : Record) : SameThreads s (pushRecord s r) := by
  unfold pushRecord
  split <;> exact ⟨rfl, rfl, rfl⟩

/-! ### The newel angle (R66 to R69) -/

theorem enterHoldover_sameThreads (s : State) : SameThreads s (enterHoldover s) := by
  unfold enterHoldover
  split
  · exact .refl s
  · exact (pushRecord_sameThreads _ _).after ⟨rfl, rfl, rfl⟩

theorem measureRevolution_sameThreads (s : State) (a t : Nat) : SameThreads s (measureRevolution s a t) := by
  unfold measureRevolution
  split
  · exact ⟨rfl, rfl, rfl⟩
  · split
    · exact .refl s
    · dsimp only
      split
      · exact (enterHoldover_sameThreads _).after ⟨rfl, rfl, rfl⟩
      · exact ⟨rfl, rfl, rfl⟩

theorem acceptSample_sameThreads (s : State) (a t : Nat) : SameThreads s (acceptSample s a t) := by
  unfold acceptSample
  extract_lets _ u v n _ w here
  have hv : SameThreads s v := (measureRevolution_sameThreads u a t).after ⟨rfl, rfl, rfl⟩
  split
  · split
    · exact hv.trans ⟨rfl, rfl, rfl⟩
    · exact hv.trans ⟨rfl, rfl, rfl⟩
  · split
    · exact hv
    · exact hv.trans ⟨rfl, rfl, rfl⟩

theorem newelSample_sameThreads (s : State) (unit t : Nat) : SameThreads s (newelSample s unit t) := by
  unfold newelSample
  dsimp only
  split
  · exact acceptSample_sameThreads s _ t
  · split
    · split <;> exact ⟨rfl, rfl, rfl⟩
    · exact acceptSample_sameThreads s _ t

/-! ### Admission (R138 to R146, R731) -/

theorem markLate_sameThreads (s : State) (home f tread : Nat) : SameThreads s (markLate s home f tread) :=
  (flagSlot_sameThreads _ home f 5).after ⟨rfl, rfl, rfl⟩

theorem holdPoint_sameThreads (s : State) (d f sensor time inten : Nat) (pv : List Nat) :
    SameThreads s (holdPoint s d f sensor time inten pv) := ⟨rfl, rfl, rfl⟩

theorem admitPoint_sameThreads (s : State) (d : Nat) (g : StairFrame) (sensor time inten : Nat) (p : List Nat) (stale : Bool) :
    SameThreads s (admitPoint s d g sensor time inten p stale) := by
  unfold admitPoint
  extract_lets s0
  have h0 : SameThreads s s0 := by
    unfold s0
    split
    · exact frontCount_sameThreads s d _ 1
    · exact .refl s
  clear_value s0
  split
  · exact h0.trans (frontCount_sameThreads s0 d _ 6)
  split
  · exact h0.trans (frontCount_sameThreads s0 d _ 3)
  split
  · exact h0.trans (finc_sameThreads s0 _ _)
  split
  · exact h0.trans (finc_sameThreads s0 _ _)
  extract_lets _ _ home s1 s2 s3 n s4 s5 newest s6 late s7 off c s8
  have h6 : SameThreads s s6 := by
    have h5 : SameThreads s s5 := h0.trans ⟨rfl, rfl, rfl⟩
    unfold s6
    split
    · exact h5.trans ⟨rfl, rfl, rfl⟩
    · exact h5
  have h7 : SameThreads s s7 := by
    unfold s7
    clear_value late
    cases late with
    | true => exact h6.trans (markLate_sameThreads s6 home g.no _)
    | false => exact h6
  have h8 : SameThreads s s8 := by
    unfold s8
    split
    · exact h7.trans ((flagSlot_sameThreads s7 d g.no 3).trans (flagSlot_sameThreads _ home g.no 3))
    · exact h7
  split
  · exact h0.trans ((frontCount_sameThreads s0 d _ 3).trans (flagSlot_sameThreads _ d g.no 7))
  split
  · have h2 : SameThreads s s2 := h0.trans ((setFrontFrame_sameThreads s0 d g.no _).trans (frontCount_sameThreads s1 d _ 0))
    have h3 : SameThreads s s3 := h2.trans (finc_sameThreads s2 _ _)
    exact h3.trans ((flagSlot_sameThreads s3 0 g.no 1).trans (flagSlot_sameThreads _ 1 g.no 1))
  split
  · exact h8
  · exact h8.trans ⟨rfl, rfl, rfl⟩

theorem joinFrame_sameThreads (s : State) (d sensor time inten : Nat) (pv : List Nat) :
    SameThreads s (joinFrame s d sensor time inten pv) := by
  unfold joinFrame
  extract_lets enabled
  split
  · exact frontCount_sameThreads s d _ 6
  split
  · exact frontCount_sameThreads s d _ 6
  split
  · exact holdPoint_sameThreads s d _ sensor time inten pv
  split
  extract_lets vox cut
  split
  · exact admitPoint_sameThreads s d _ sensor time inten _ _
  split
  split
  · exact admitPoint_sameThreads s d _ sensor time inten _ _
  · exact holdPoint_sameThreads s d _ sensor time inten pv

/-! ### Packets (R127 to R132) -/

theorem parseRecord_sameThreads (d sensor prof packet : Nat) (s : State) (rcd : List Nat) :
    SameThreads s (parseRecord s d sensor prof packet rcd) := by
  unfold parseRecord
  split
  · exact finc_sameThreads s _ _
  split
  · exact finc_sameThreads s _ _
  · exact joinFrame_sameThreads s d sensor _ _ _

theorem foldl_sameThreads {α : Type} {f : State → α → State} (hf : ∀ t x, SameThreads t (f t x)) (l : List α) (s : State) :
    SameThreads s (l.foldl f s) := by
  induction l generalizing s with
  | nil => exact .refl s
  | cons x l ih => exact (hf s x).trans (ih (f s x))

theorem parsePacket_sameThreads (s : State) (d n m ingress : Nat) (shift : Int) (payload : List Nat) :
    SameThreads s (parsePacket s d n m ingress shift payload) := by
  unfold parsePacket
  extract_lets p prof hdr stride count rs azs fr
  split
  · exact frontCount_sameThreads s d _ 4
  split
  · exact frontCount_sameThreads s d _ 4
  extract_lets back s1 s2 s3
  split
  · exact portViolation_sameThreads s n _
  split
  · exact portViolation_sameThreads s n _
  have h2 : SameThreads s s2 := by
    unfold s2
    split
    · exact (setFront_sameThreads s d _).trans (frontCount_sameThreads s1 d _ 4)
    · exact setFront_sameThreads s d _
  have h3 : SameThreads s s3 := by
    unfold s3
    clear_value azs
    cases azs with
    | nil => exact h2
    | cons a azs =>
      refine SameThreads.ite ?_ h2
      split
      · exact h2.trans (newelSample_sameThreads s2 _ _)
      · exact h2
  exact h3.trans (foldl_sameThreads (parseRecord_sameThreads d m prof _) rs s3)

theorem deliverPoints_sameThreads (s : State) (d n m ingress : Nat) (shift : Int) (payload : List Nat) :
    SameThreads s (deliverPoints s d n m ingress shift payload) := by
  unfold deliverPoints
  split
  · exact parsePacket_sameThreads s d n m ingress shift payload
  · exact ⟨rfl, rfl, rfl⟩

theorem replayFrame_sameThreads (s : State) (d n ingress : Nat) (shift : Int) (bs : List Nat) :
    SameThreads s (replayFrame s d n ingress shift bs) := by
  unfold replayFrame
  refine SameThreads.ite ?_ ?_
  · exact frontCount_sameThreads s d _ 5
  split
  · exact portViolation_sameThreads s n _
  split
  · exact portViolation_sameThreads s n _
  split
  · exact portViolation_sameThreads s n _
  split
  · exact portViolation_sameThreads s n _
  · exact portViolation_sameThreads s n _
  split
  · exact deliverPoints_sameThreads s d n _ ingress shift _
  · exact portViolation_sameThreads s n _

end Sys2Proof.Machine
end

section
/-!
PROOFS. The ego-motion ring and the replay ring: the registers that say where the host has written up to, the samples and the
entries read (R133, R134, R168, R169, R674).
-/

namespace Sys2Proof.Machine

/-! ### A register that holds one RW field -/

theorem fget_of_reg {t u : State} {p : Page} {f : Fld} {k : Nat} (h : fget t p f = k) (hr : u.reg = t.reg)
    (hf : u.fuse = t.fuse) : fget u p f = k := by
  rw [fget_congr hr hf, h]

section OneField

variable {s : State} {p : Page} {off : Nat} {r : RegRow} (hrow : rowsAt p off = [r]) (hacc : r.acc = .rw) (v : Nat)
include hrow hacc

theorem writtenWord_oneField :
    writtenWord s p off v = setBits (rawWord s p off) r.fld.lo r.fld.w (bits v r.fld.lo r.fld.w) := by
  simp [writtenWord, hrow, hacc]

/-- The write holds the field's new word, or changes nothing where the word is the same. -/
theorem storeReg_oneField : storeReg s p off v =
    if setBits (rawWord s p off) r.fld.lo r.fld.w (bits v r.fld.lo r.fld.w) = rawWord s p off then s
    else putWord s p off (setBits (rawWord s p off) r.fld.lo r.fld.w (bits v r.fld.lo r.fld.w)) := by
  simp only [storeReg, writtenWord_oneField hrow hacc v]
  simp [hrow, fieldLocked, hacc]

theorem fget_storeReg_oneField (ho : r.fld.off = off) (hw : r.fld.lo + r.fld.w ≤ 32) :
    fget (storeReg s p off v) p r.fld = bits v r.fld.lo r.fld.w := by
  have hmod : bits v r.fld.lo r.fld.w % 2 ^ r.fld.w = bits v r.fld.lo r.fld.w := Nat.mod_mod _ _
  rw [storeReg_oneField hrow hacc v, fget, ho]
  split
  · next h => rw [← h, setBits_same, hmod]
  · rw [rawWord_putWord_self, bits_mod _ _ _ _ hw, setBits_same, hmod]

end OneField

theorem onlyRegisters_storeReg (s : State) (p : Page) (off v : Nat) : OnlyRegisters s (storeReg s p off v) := by
  unfold storeReg
  dsimp only
  split <;> split <;> rfl

theorem wordsBut_storeReg_oneField {s : State} {p : Page} {off : Nat} {r : RegRow} (hrow : rowsAt p off = [r])
    (hacc : r.acc = .rw) (v : Nat) : WordsBut [pageBase p + off] s (storeReg s p off v) := by
  rw [storeReg_oneField hrow hacc v]
  split
  · exact wordsBut_refl _ s
  · exact wordsBut_putWord s p off _

/-- A write of a register of page B1 of a die that holds one RW field sets the field, and no other word (R10). -/
theorem completes_doWrite_oneField {s : State} {rq : Requester} {d off : Nat} {r : RegRow} (v : Nat)
    (hc : Accepted s rq (pageBase (.die d 1) + off) false true (.die d 1)) (hlow : 0x40 ≤ off) (hoff : off < 0x1000)
    (hrow : rowsAt (.die d 1) off = [r]) (hacc : r.acc = .rw) (ho : r.fld.off = off) (hw : r.fld.lo + r.fld.w ≤ 32) :
    Completes (doWrite s rq (pageBase (.die d 1) + off) 4 v) (fun u =>
      fget u (.die d 1) r.fld = bits v r.fld.lo r.fld.w ∧ u.ans = .none ∧ OnlyRegisters s u ∧
      WordsBut [pageBase (.die d 1) + off] s u) := by
  have hmod : (pageBase (.die d 1) + off) % 0x1000 = off := by
    have := pageBase_mod (.die d 1)
    omega
  have hstore : regWrite s rq (.die d 1) off v = storeReg s (.die d 1) off v := if_neg (by omega)
  refine completes_doWrite hc fun m => ?_
  rw [hmod, hstore]
  exact ⟨fget_of_reg (fget_storeReg_oneField hrow hacc v ho hw) rfl rfl, rfl,
    (onlyRegisters_storeReg s (.die d 1) off v).trans (onlyRegisters_end _ _ m false),
    (wordsBut_storeReg_oneField hrow hacc v).of_reg rfl rfl⟩

/-! ### Where the host has written up to -/

theorem exec_egoWrWrite (rq : Requester) (d : Fin 2) (v : Word) (s : State) :
    exec (.egoWrWrite rq d v) s = doWrite s rq (pageBase (.die d.val 1) + 0x5C) 4 v.toNat := rfl

theorem exec_egoWrBothWrite (rq : Requester) (v : Word) (s : State) :
    exec (.egoWrBothWrite rq v) s = doWrite s rq 0x7F7054 4 v.toNat := rfl

theorem exec_replayWrWrite (rq : Requester) (d : Fin 2) (v : Word) (s : State) :
    exec (.replayWrWrite rq d v) s = doWrite s rq (pageBase (.die d.val 1) + 0x70) 4 v.toNat := rfl

/-- The one row of EGO_WR (R170). -/
theorem rowsAt_egoWr (d : Nat) : rowsAt (.die d 1) 0x5C = [⟨DB1.EGO_WR, 0, 1, 0, 1, .rw, .val 0⟩] := rfl

/-- The one row of REPLAY_WR (R170). -/
theorem rowsAt_replayWr (d : Nat) : rowsAt (.die d 1) 0x70 = [⟨DB1.REPLAY_WR, 0, 1, 0, 1, .rw, .val 0⟩] := rfl

theorem completes_egoWrWrite {s : State} {rq : Requester} {d : Fin 2} (v : Word)
    (hc : Accepted s rq (pageBase (.die d.val 1) + 0x5C) false true (.die d.val 1)) :
    Completes (exec (.egoWrWrite rq d v) s) (fun u => fget u (.die d.val 1) DB1.EGO_WR = v.toNat % 2 ^ 16 ∧ u.ans = .none ∧
      OnlyRegisters s u ∧ WordsBut [pageBase (.die d.val 1) + 0x5C] s u) := by
  have hv : bits v.toNat 0 16 = v.toNat % 2 ^ 16 := by rw [bits, Nat.pow_zero, Nat.div_one]
  rw [exec_egoWrWrite]
  exact (completes_doWrite_oneField v.toNat hc (by decide) (by decide) (rowsAt_egoWr d.val) rfl rfl (by decide)).imp
    fun u ⟨hfield, hrest⟩ => ⟨hfield.trans hv, hrest⟩

theorem completes_replayWrWrite {s : State} {rq : Requester} {d : Fin 2} (v : Word)
    (hc : Accepted s rq (pageBase (.die d.val 1) + 0x70) false true (.die d.val 1)) :
    Completes (exec (.replayWrWrite rq d v) s) (fun u => fget u (.die d.val 1) DB1.REPLAY_WR = v.toNat ∧ u.ans = .none ∧
      OnlyRegisters s u ∧ WordsBut [pageBase (.die d.val 1) + 0x70] s u) := by
  have hv : bits v.toNat 0 32 = v.toNat := by rw [bits, Nat.pow_zero, Nat.div_one, Nat.mod_eq_of_lt v.isLt]
  rw [exec_replayWrWrite]
  exact (completes_doWrite_oneField v.toNat hc (by decide) (by decide) (rowsAt_replayWr d.val) rfl rfl (by decide)).imp
    fun u ⟨hfield, hrest⟩ => ⟨hfield.trans hv, hrest⟩

/-- EGO_WR of one die takes the value of EGO_WR_BOTH unless its page is answered by a stub. -/
def egoWrTaken (s : State) (d v : Nat) : State :=
  if pageStubbed s (.die d 1) then s else fset s (.die d 1) DB1.EGO_WR v

theorem egoBoth_eq (s : State) (v : Nat) : egoBoth s v = egoWrTaken (egoWrTaken s 0 v) 1 v := rfl

theorem fget_egoWrTaken (s : State) (d v : Nat) : fget (egoWrTaken s d v) (.die d 1) DB1.EGO_WR =
    if pageStubbed s (.die d 1) then fget s (.die d 1) DB1.EGO_WR else v % 2 ^ 16 := by
  unfold egoWrTaken
  split
  · rfl
  · exact fget_fset_self s (.die d 1) DB1.EGO_WR v (by decide)

theorem onlyRegisters_egoWrTaken (s : State) (d v : Nat) : OnlyRegisters s (egoWrTaken s d v) := by
  unfold egoWrTaken
  split <;> rfl

theorem wordsBut_egoWrTaken (s : State) (d v : Nat) :
    WordsBut [pageBase (.die d 1) + 0x5C] s (egoWrTaken s d v) := by
  unfold egoWrTaken
  split
  · exact wordsBut_refl _ s
  · exact wordsBut_putWord s (.die d 1) 0x5C _

/-- Die 0's EGO_WR says nothing of what die 1 answers. -/
theorem pageStubbed_egoWrTaken (s : State) (v : Nat) (p : Page) :
    pageStubbed (egoWrTaken s 0 v) p = pageStubbed s p := by
  have hrec : fbit (egoWrTaken s 0 v) (.pkg 13) PB13.BOOT_STATUS_RECOVERY = fbit s (.pkg 13) PB13.BOOT_STATUS_RECOVERY := by
    rw [fbit, (wordsBut_egoWrTaken s 0 v).fget_eq (by decide), fbit]
  have hrst : (egoWrTaken s 0 v).rst = s.rst := by
    unfold egoWrTaken
    split <;> rfl
  simp only [pageStubbed, recoveryHolds, hrec, inReset, blockState, hrst]

theorem completes_egoWrBothWrite {s : State} {rq : Requester} (v : Word) (hc : Accepted s rq 0x7F7054 false true (.pkg 7)) :
    Completes (exec (.egoWrBothWrite rq v) s) (fun u =>
      (∀ e, e < 2 → fget u (.die e 1) DB1.EGO_WR =
        if pageStubbed s (.die e 1) then fget s (.die e 1) DB1.EGO_WR else v.toNat % 2 ^ 16) ∧
      u.ans = .none ∧ OnlyRegisters s u ∧
      WordsBut [pageBase (.die 0 1) + 0x5C, pageBase (.die 1 1) + 0x5C] s u) := by
  rw [exec_egoWrBothWrite]
  refine completes_doWrite hc fun m => ?_
  rw [show regWrite s rq (.pkg 7) (0x7F7054 % 0x1000) v.toNat = egoBoth s v.toNat from rfl, egoBoth_eq]
  have hzero := wordsBut_egoWrTaken s 0 v.toNat
  have hone := wordsBut_egoWrTaken (egoWrTaken s 0 v.toNat) 1 v.toNat
  refine ⟨fun e he => ?_, rfl, ((onlyRegisters_egoWrTaken s 0 _).trans (onlyRegisters_egoWrTaken _ 1 _)).trans
    (onlyRegisters_end _ _ m false), (hzero.trans hone).of_reg rfl rfl⟩
  refine fget_of_reg (t := egoWrTaken (egoWrTaken s 0 v.toNat) 1 v.toNat) ?_ rfl rfl
  obtain rfl | rfl : e = 0 ∨ e = 1 := by omega
  · rw [hone.fget_eq (by decide), fget_egoWrTaken]
  · rw [fget_egoWrTaken, pageStubbed_egoWrTaken, hzero.fget_eq (by decide)]

/-! ### The ego-motion ring (R134) -/

theorem exec_egoSampleRead (d : Fin 2) (s : State) : exec (.egoSampleRead d) s = execEgoSampleRead d s := rfl

/-- The place in the ring of the next sample to be read. -/
def egoNext (s : State) (d : Nat) : Nat := (frontAt s d).egoRd % eget s (.die d 1) DB1.EGO_SIZE

/-- The address of the next sample. -/
def egoAddr (s : State) (d : Nat) : Nat :=
  eget s (.die d 1) DB1.EGO_BASE_LO + eget s (.die d 1) DB1.EGO_BASE_HI * 2 ^ 32 + 48 * egoNext s d

/-- The Point Front with the next sample passed. -/
def egoPassed (s : State) (d : Nat) : Front :=
  { frontAt s d with egoRd := (egoNext s d + 1) % eget s (.die d 1) DB1.EGO_SIZE }

/-- The Point Front with the sample `b` passed and held, the newest of at most 64. -/
def egoTaken (s : State) (d : Nat) (b : List Nat) : Front :=
  { egoPassed s d with ego := ((egoSample b).2 :: (frontAt s d).ego).take 64 }

/-- A sample is bad that is not VALID, or not later than the newest one held. -/
def EgoBad (x : Front) (b : List Nat) : Prop := (egoSample b).1 = false ∨ ∃ y ∈ x.ego.head?, (egoSample b).2.t ≤ y.t

section TakeEgo

variable (s : State) (d : Nat)

theorem takeEgo_none : takeEgo s d none = frontCount s d DB1.EGO_BAD 2 := rfl

theorem takeEgo_bad {b : List Nat} (h : EgoBad (frontAt s d) b) : takeEgo s d (some b) = frontCount s d DB1.EGO_BAD 2 := by
  unfold takeEgo
  obtain hv | ⟨y, hy, ht⟩ := h
  · simp [hv]
  · cases he : (frontAt s d).ego with
    | nil => simp [he] at hy
    | cons z zs =>
      obtain rfl : z = y := by simpa [he] using hy
      simp [he, Nat.not_lt.mpr ht]

theorem takeEgo_good {b : List Nat} (h : ¬ EgoBad (frontAt s d) b) : takeEgo s d (some b) =
    setFront s d { frontAt s d with ego := ((egoSample b).2 :: (frontAt s d).ego).take 64 } := by
  simp only [EgoBad, not_or, not_exists, not_and, Bool.not_eq_false, Nat.not_le] at h
  obtain ⟨hv, hlater⟩ := h
  unfold takeEgo
  cases he : (frontAt s d).ego with
  | nil => simp [he, hv]
  | cons z zs => simp [he, hv, hlater z (by simp [he])]

end TakeEgo

/-- The ring is read up to EGO_WR and no further. -/
theorem egoSampleRead_idle {s : State} {d : Fin 2}
    (h : egoNext s d.val = fget s (.die d.val 1) DB1.EGO_WR % eget s (.die d.val 1) DB1.EGO_SIZE) :
    exec (.egoSampleRead d) s = .next s := by
  rw [exec_egoSampleRead]
  exact if_pos (.inr (.inr h))

theorem egoSampleRead_eq {s : State} {d : Fin 2} {r : Option (List Nat)} (hs : outOfService s (.point d.val) = false)
    (hn : eget s (.die d.val 1) DB1.EGO_SIZE ≠ 0)
    (h : egoNext s d.val ≠ fget s (.die d.val 1) DB1.EGO_WR % eget s (.die d.val 1) DB1.EGO_SIZE)
    (hr : frontRead s (egoAddr s d.val) 48 = (r, s)) :
    exec (.egoSampleRead d) s = done (takeEgo (setFront s d.val (egoPassed s d.val)) d.val r) := by
  have hread : ¬ (outOfService s (.point d.val) = true ∨ eget s (.die d.val 1) DB1.EGO_SIZE = 0 ∨
      egoNext s d.val = fget s (.die d.val 1) DB1.EGO_WR % eget s (.die d.val 1) DB1.EGO_SIZE) := by
    simp [hs, hn, h]
  rw [exec_egoSampleRead, egoPassed]
  simp only [egoAddr, egoNext] at hr hread ⊢
  simp only [execEgoSampleRead, if_neg hread, hr]

/-- Only die `d`'s Point Front, EGO_BAD and INT_RAW of its page B1 may differ, and what a command's end changes. -/
structure EgoKept (s : State) (d : Nat) (u : State) : Prop where
  fronts : ∀ e, e ≠ d → frontAt u e = frontAt s e
  rest : { u with front := s.front, reg := s.reg, msix := s.msix, err.inj := s.err.inj } = s
  words : WordsBut [pageBase (.die d 1) + DB1.EGO_BAD.off, pageBase (.die d 1) + 0x14] s u

theorem EgoKept.setFront {s t : State} {d : Nat} (h : EgoKept s d t) (x : Front) : EgoKept s d (setFront t d x) where
  fronts e he := (frontAt_setFront_ne t x he).trans (h.fronts e he)
  rest := h.rest
  words := h.words.of_reg rfl rfl

theorem EgoKept.countBad {s t : State} {d : Nat} (h : EgoKept s d t) : EgoKept s d (frontCount t d DB1.EGO_BAD 2) where
  fronts := h.fronts
  rest := h.rest
  words := (h.words.putWord_of_mem (off := DB1.EGO_BAD.off) _ List.mem_cons_self).putWord_of_mem _
    (List.mem_cons_of_mem _ List.mem_cons_self)

theorem EgoKept.atEnd {s t : State} {d : Nat} (h : EgoKept s d t) (m : Msix) :
    EgoKept s d { t with msix := m, err.inj := false } := ⟨h.fronts, h.rest, h.words.of_reg rfl rfl⟩

theorem egoKept_passed (s : State) (d : Nat) : EgoKept s d (setFront s d (egoPassed s d)) :=
  EgoKept.setFront ⟨fun _ _ => rfl, rfl, wordsBut_refl _ s⟩ _

theorem completes_egoGood {s : State} {d : Nat} {b : List Nat} (h : ¬ EgoBad (frontAt s d) b) :
    Completes (done (takeEgo (setFront s d (egoPassed s d)) d (some b))) (fun u =>
      frontAt u d = egoTaken s d b ∧ u.reg = s.reg ∧ EgoKept s d u) := by
  have hfront : frontAt (setFront s d (egoPassed s d)) d = egoPassed s d := frontAt_setFront_self s d _
  have hgood : ¬ EgoBad (frontAt (setFront s d (egoPassed s d)) d) b := by rwa [hfront]
  have htake : takeEgo (setFront s d (egoPassed s d)) d (some b) =
      setFront (setFront s d (egoPassed s d)) d (egoTaken s d b) := by
    rw [takeEgo_good _ _ hgood, hfront]
    rfl
  have htaken := frontAt_setFront_self (setFront s d (egoPassed s d)) d (egoTaken s d b)
  rw [htake]
  exact completes_done fun m => ⟨htaken, rfl, ((egoKept_passed s d).setFront _).atEnd m⟩

/-- A sample that cannot be read, is not VALID or is not later counts in EGO_BAD. -/
theorem completes_egoBad {s : State} {d : Nat} {r : Option (List Nat)} (h : ∀ b ∈ r, EgoBad (frontAt s d) b) :
    Completes (done (takeEgo (setFront s d (egoPassed s d)) d r)) (fun u => frontAt u d = egoPassed s d ∧
      Counts s u (.die d 1) DB1.EGO_BAD 1 ∧ Raised u (.die d 1) 2 ∧ EgoKept s d u) := by
  have hfront : frontAt (setFront s d (egoPassed s d)) d = egoPassed s d := frontAt_setFront_self s d _
  have hbad : takeEgo (setFront s d (egoPassed s d)) d r = frontCount (setFront s d (egoPassed s d)) d DB1.EGO_BAD 2 := by
    cases r with
    | none => exact takeEgo_none _ d
    | some b =>
      have hb : EgoBad (frontAt (setFront s d (egoPassed s d)) d) b := by
        rw [hfront]
        exact h b rfl
      exact takeEgo_bad _ d hb
  have hcount : Counts s (frontCount (setFront s d (egoPassed s d)) d DB1.EGO_BAD 2) (.die d 1) DB1.EGO_BAD 1 :=
    (counts_event _ _ 2 (by decide) (by decide)).from_reg rfl rfl
  have hraised : Raised (frontCount (setFront s d (egoPassed s d)) d DB1.EGO_BAD 2) (.die d 1) 2 :=
    raiseInt_bit _ _ 2 (by decide)
  rw [hbad]
  exact completes_done fun m => ⟨hfront, hcount.of_reg rfl rfl, hraised.of_reg rfl rfl, ((egoKept_passed s d).countBad).atEnd m⟩

/-! ### The replay ring (R168, R169) -/

theorem exec_replayRelease (d : Fin 2) (s : State) : exec (.replayRelease d) s = execReplayRelease d s := rfl

/-- The address of the entry at REPLAY_RD. -/
def replayAddr (s : State) (d : Nat) : Nat :=
  eget s (.die d 1) DB1.REPLAY_BASE_LO + eget s (.die d 1) DB1.REPLAY_BASE_HI * 2 ^ 32 + fget s (.die d 1) DB1.REPLAY_RD

/-- REPLAY_SHIFT. -/
def replayShift (s : State) (d : Nat) : Int :=
  sext 64 (eget s (.die d 1) DB1.REPLAY_SHIFT_LO + eget s (.die d 1) DB1.REPLAY_SHIFT_HI * 2 ^ 32)

/-- VALID of an entry's descriptor. -/
def replayValid (h : List Nat) : Bool := bit (leNat ((h.drop 0xD).take 1)) 0

/-- LEN of an entry. -/
def replayLen (h : List Nat) : Nat := leNat ((h.drop 0xA).take 2)

/-- The extent of an entry in the ring, whole blocks of 64 bytes. -/
def replayExtent (h : List Nat) : Nat := (16 + replayLen h + 63) / 64 * 64

/-- PORT of an entry. -/
def replayPort (h : List Nat) : Nat := leNat ((h.drop 0xC).take 1)

/-- The device time at which an entry is released. -/
def replayDue (s : State) (d : Nat) (h : List Nat) : Int :=
  ((leNat ((h.drop 4).take 4) + leNat ((h.drop 8).take 2) * 2 ^ 32) * 1000000000 + leNat (h.take 4) : Nat) + replayShift s d

/-- An entry of a length that a frame may have, within the ring. -/
def ReplayFits (s : State) (d : Nat) (h : List Nat) : Prop := 60 ≤ replayLen h ∧ replayLen h ≤ 9212 ∧
  fget s (.die d 1) DB1.REPLAY_RD + replayExtent h ≤ eget s (.die d 1) DB1.REPLAY_SIZE

/-- Where REPLAY_RD goes past an entry. -/
def replayAfter (s : State) (d : Nat) (h : List Nat) : Nat :=
  if fget s (.die d 1) DB1.REPLAY_RD + replayExtent h = eget s (.die d 1) DB1.REPLAY_SIZE then 0
  else fget s (.die d 1) DB1.REPLAY_RD + replayExtent h

/-- The frame that the blocks of an entry hold. -/
def replayedFrame (h bs : List Nat) : List Nat := (bs.drop 16).take (replayLen h)

/-- The replay ring of die `d` runs: its Point Front is in service, takes work, and REPLAY_EN is set. -/
structure ReplayRuns (s : State) (d : Nat) : Prop where
  serves : outOfService s (.point d) = false
  takes : quiescing s (.die d 1) = false
  enabled : ebit s (.die d 1) DB1.PF_CTRL_REPLAY_EN = true

/-- The ring is read up to REPLAY_WR and no further. -/
theorem replayRelease_idle {s : State} {d : Fin 2}
    (h : fget s (.die d.val 1) DB1.REPLAY_RD = fget s (.die d.val 1) DB1.REPLAY_WR) :
    exec (.replayRelease d) s = .next s := by
  rw [exec_replayRelease]
  exact if_pos (.inr (.inr (.inr h)))

/-- A ring that runs and has entries to read releases them. -/
theorem replayGuard {s : State} {d : Fin 2} (hruns : ReplayRuns s d.val)
    (hrd : fget s (.die d.val 1) DB1.REPLAY_RD ≠ fget s (.die d.val 1) DB1.REPLAY_WR) :
    ¬ (outOfService s (.point d.val) = true ∨ quiescing s (.die d.val 1) = true ∨
      (!ebit s (.die d.val 1) DB1.PF_CTRL_REPLAY_EN) = true ∨
      fget s (.die d.val 1) DB1.REPLAY_RD = fget s (.die d.val 1) DB1.REPLAY_WR) := by
  obtain ⟨hserves, htakes, henabled⟩ := hruns
  simp [hserves, htakes, henabled, hrd]

theorem notFits_iff {s : State} {d : Nat} {h : List Nat} : ¬ ReplayFits s d h ↔ replayLen h < 60 ∨ 9212 < replayLen h ∨
    fget s (.die d 1) DB1.REPLAY_RD + replayExtent h > eget s (.die d 1) DB1.REPLAY_SIZE := by
  unfold ReplayFits
  omega

section Release

variable {s : State} {d : Fin 2} {h : List Nat} (hruns : ReplayRuns s d.val)
  (hrd : fget s (.die d.val 1) DB1.REPLAY_RD ≠ fget s (.die d.val 1) DB1.REPLAY_WR)
  (hread : frontRead s (replayAddr s d.val) 16 = (some h, s))
include hruns hrd hread

theorem replayRelease_invalid (hv : replayValid h = false) : exec (.replayRelease d) s = done (setReplayRd s d.val 0) := by
  have hgo := replayGuard hruns hrd
  simp only [replayAddr, replayValid] at hread hv
  simp only [exec_replayRelease, execReplayRelease, if_neg hgo, hread, hv, Bool.not_false, if_true]

variable (hv : replayValid h = true)
include hv

theorem replayRelease_unfit (hfit : ¬ ReplayFits s d.val h) :
    exec (.replayRelease d) s = done (setReplayRd (dropReplay s d.val) d.val 0) := by
  have hgo := replayGuard hruns hrd
  simp only [replayAddr, replayValid] at hread hv
  have hno := notFits_iff.mp hfit
  simp only [replayLen, replayExtent] at hno
  simp only [exec_replayRelease, execReplayRelease, if_neg hgo, hread, hv, Bool.not_true, Bool.false_eq_true, if_false,
    if_pos hno]

variable (hfit : ReplayFits s d.val h)
include hfit

theorem replayRelease_early (hdue : (devNsCount s : Int) < replayDue s d.val h) : exec (.replayRelease d) s = .next s := by
  have hgo := replayGuard hruns hrd
  simp only [replayAddr, replayValid] at hread hv
  have hyes := mt notFits_iff.mpr (not_not_intro hfit)
  simp only [replayLen, replayExtent, replayDue, replayShift] at hyes hdue
  simp only [exec_replayRelease, execReplayRelease, if_neg hgo, hread, hv, Bool.not_true, Bool.false_eq_true, if_false,
    if_neg hyes, List.drop_zero, gt_iff_lt, if_pos hdue]

theorem replayRelease_due {bs : List Nat} (hdue : replayDue s d.val h ≤ devNsCount s)
    (hbs : frontBlocks s (replayAddr s d.val) (replayExtent h / 64) = (some bs, s)) : exec (.replayRelease d) s =
      done (setReplayRd (replayFrame s d.val (replayPort h) ((replayDue s d.val h).toNat * 65536) (replayShift s d.val)
        (replayedFrame h bs)) d.val (replayAfter s d.val h)) := by
  have hgo := replayGuard hruns hrd
  have hyes := mt notFits_iff.mpr (not_not_intro hfit)
  have hlate := Int.not_lt.mpr hdue
  simp only [replayAddr, replayValid, replayLen, replayExtent, replayDue, replayShift] at hread hv hyes hlate hbs
  simp only [exec_replayRelease, execReplayRelease, if_neg hgo, hread, hv, Bool.not_true, Bool.false_eq_true, if_false,
    if_neg hyes, List.drop_zero, gt_iff_lt, if_neg hlate, hbs]
  rfl

end Release

/-! ### What a release leaves -/

/-- The words that an entry released without a frame may change. -/
def replayWords (d : Nat) : List Nat :=
  [pageBase (.die d 1) + DB1.REPLAY_RD.off, pageBase (.die d 1) + DB1.REPLAY_DROP.off, pageBase (.die d 1) + 0x14]

/-- REPLAY_RD is moved to `v`, and nothing but registers of the ring differs. -/
structure ReplayMoved (s : State) (d v : Nat) (u : State) : Prop where
  rd : fget u (.die d 1) DB1.REPLAY_RD = v % 2 ^ 32
  regs : OnlyRegisters s u
  words : WordsBut (replayWords d) s u

theorem fget_setReplayRd (s : State) (d v : Nat) : fget (setReplayRd s d v) (.die d 1) DB1.REPLAY_RD = v % 2 ^ 32 :=
  fget_fset_self s (.die d 1) DB1.REPLAY_RD v (by decide)

theorem wordsBut_setReplayRd (s : State) (d v : Nat) :
    WordsBut [pageBase (.die d 1) + DB1.REPLAY_RD.off] s (setReplayRd s d v) :=
  wordsBut_putWord s (.die d 1) DB1.REPLAY_RD.off _

theorem replayMoved_setReplayRd {s t : State} {d : Nat} (v : Nat) (hregs : OnlyRegisters s t)
    (hwords : WordsBut (replayWords d) s t) : ReplayMoved s d v (setReplayRd t d v) where
  rd := fget_setReplayRd t d v
  regs := hregs.trans (onlyRegisters_putWord t _ _ _)
  words := hwords.putWord_of_mem (off := DB1.REPLAY_RD.off) _ List.mem_cons_self

theorem ReplayMoved.atEnd {s t : State} {d v : Nat} (h : ReplayMoved s d v t) (m : Msix) :
    ReplayMoved s d v { t with msix := m, err.inj := false } :=
  ⟨fget_of_reg h.rd rfl rfl, h.regs.trans (onlyRegisters_end t t.ans m false), h.words.of_reg rfl rfl⟩

/-- An entry that is not VALID moves REPLAY_RD and counts nothing. -/
theorem completes_replayMoved (s : State) (d v : Nat) : Completes (done (setReplayRd s d v)) (fun u =>
    ReplayMoved s d v u ∧ fget u (.die d 1) DB1.REPLAY_DROP = fget s (.die d 1) DB1.REPLAY_DROP ∧
    rawWord u (.die d 1) 0x14 = rawWord s (.die d 1) 0x14) := by
  have hmoved := replayMoved_setReplayRd v (OnlyRegisters.refl s) (wordsBut_refl (replayWords d) s)
  have hword := wordsBut_setReplayRd s d v
  have hdrop : fget (setReplayRd s d v) (.die d 1) DB1.REPLAY_DROP = fget s (.die d 1) DB1.REPLAY_DROP :=
    hword.fget_eq (by simp [DB1.REPLAY_RD, DB1.REPLAY_DROP])
  have hraw : rawWord (setReplayRd s d v) (.die d 1) 0x14 = rawWord s (.die d 1) 0x14 :=
    hword.1 _ _ (by simp [DB1.REPLAY_RD])
  exact completes_done fun m => ⟨hmoved.atEnd m, fget_of_reg hdrop rfl rfl, hraw⟩

/-- An entry that the Point Front does not use moves REPLAY_RD and counts in REPLAY_DROP. -/
theorem completes_replayDropped (s : State) (d v : Nat) : Completes (done (setReplayRd (dropReplay s d) d v)) (fun u =>
    ReplayMoved s d v u ∧ Counts s u (.die d 1) DB1.REPLAY_DROP 1 ∧ Raised u (.die d 1) 5) := by
  have hdrop : WordsBut (replayWords d) s (dropReplay s d) :=
    ((wordsBut_refl (replayWords d) s).putWord_of_mem (p := .die d 1) (off := DB1.REPLAY_DROP.off) _
      (List.mem_cons_of_mem _ List.mem_cons_self)).putWord_of_mem _
        (List.mem_cons_of_mem _ (List.mem_cons_of_mem _ List.mem_cons_self))
  have hmoved := replayMoved_setReplayRd v (show OnlyRegisters s (dropReplay s d) from rfl) hdrop
  have hword := wordsBut_setReplayRd (dropReplay s d) d v
  have hcount : Counts s (setReplayRd (dropReplay s d) d v) (.die d 1) DB1.REPLAY_DROP 1 :=
    hword.counts (counts_event s _ 5 (by decide) (by decide)) (by simp [DB1.REPLAY_RD, DB1.REPLAY_DROP])
  have hraised : Raised (setReplayRd (dropReplay s d) d v) (.die d 1) 5 :=
    hword.raised (raiseInt_bit _ _ 5 (by decide)) (by simp [DB1.REPLAY_RD])
  exact completes_done fun m => ⟨hmoved.atEnd m, hcount.of_reg rfl rfl, hraised.of_reg rfl rfl⟩

/-- An entry of no port of the die, or whose frame is a PTP message, is not used (R169). -/
theorem replayFrame_unused {s : State} {d n : Nat} {bs : List Nat} (ingress : Nat) (shift : Int)
    (h : 4 ≤ n ∨ n / 2 ≠ d ∨ (ptpOffset bs).isSome = true) : replayFrame s d n ingress shift bs = dropReplay s d := by
  have hport : n ≥ 4 ∨ (if n ≤ 1 then 0 else 1) ≠ d ∨ (ptpOffset bs).isSome = true := by
    by_cases hn : 4 ≤ n
    · exact .inl hn
    · refine .inr (h.resolve_left hn |>.imp_left fun hd => ?_)
      split <;> omega
  exact if_pos hport

/-- A frame released goes where its points go: REPLAY_RD is past the entry, and no core, context or host byte differs. -/
theorem completes_replayFrame (s : State) (d n ingress : Nat) (shift : Int) (bs : List Nat) (v : Nat) :
    Completes (done (setReplayRd (replayFrame s d n ingress shift bs) d v)) (fun u =>
      fget u (.die d 1) DB1.REPLAY_RD = v % 2 ^ 32 ∧ SameThreads s u) := by
  have hframe := replayFrame_sameThreads s d n ingress shift bs
  exact completes_done fun m => ⟨fget_of_reg (fget_setReplayRd _ d v) rfl rfl, hframe.trans ⟨rfl, rfl, rfl⟩⟩

/-- Settles O39: the three writes, and then each ring by what its next sample or entry is. -/
theorem ringsAreReadUpToTheirWriters : Obligations.RingsAreReadUpToTheirWriters := by
  unfold Obligations.RingsAreReadUpToTheirWriters
  intro s d p
  refine ⟨fun rq v hc => completes_egoWrWrite v hc, fun rq v hc => completes_egoWrBothWrite v hc,
    fun rq v hc => completes_replayWrWrite v hc, fun hs => ?_, fun hs hquiet hen => ?_⟩
  · intro fr n i g bad kept
    have hkept : ∀ u, EgoKept s d.val u → kept u := fun u ⟨hfronts, hrest, hwords⟩ => ⟨hfronts, hrest, hwords⟩
    have hbad : ∀ r, (∀ b ∈ r, EgoBad (frontAt s d.val) b) → n ≠ 0 → i ≠ fget s p DB1.EGO_WR % n → frontRead s g 48 = (r, s) →
        Completes (exec (.egoSampleRead d) s) (fun u => frontAt u d.val = { fr with egoRd := (i + 1) % n } ∧
          Counts s u p DB1.EGO_BAD 1 ∧ Raised u p 2 ∧ kept u) := fun r hb hn hi hr => by
      rw [egoSampleRead_eq hs hn hi hr]
      exact (completes_egoBad hb).imp fun u ⟨hfront, hcount, hraised, hk⟩ => ⟨hfront, hcount, hraised, hkept u hk⟩
    refine ⟨fun _ hi => egoSampleRead_idle hi, fun hn hi => ⟨fun b hr hb => ?_, fun b hr hb => ?_, fun hr => ?_⟩⟩
    · rw [egoSampleRead_eq hs hn hi hr]
      exact (completes_egoGood hb).imp fun u ⟨hfront, hreg, hk⟩ => ⟨hfront, hreg, hkept u hk⟩
    · exact hbad (some b) (fun c hc => Option.some.inj hc ▸ hb) hn hi hr
    · exact hbad none nofun hn hi hr
  · intro rd base shift moved
    have hruns : ReplayRuns s d.val := ⟨hs, hquiet, hen⟩
    have hmoved : ∀ u, ReplayMoved s d.val 0 u → moved u := fun u ⟨hrd, hregs, hwords⟩ => ⟨hrd, hregs, hwords⟩
    refine ⟨replayRelease_idle, fun h hrd hread => ?_⟩
    intro len ext due fits
    refine ⟨fun hv => ?_, fun hv hfit => ?_, fun hv hfit hdue => replayRelease_early hruns hrd hread hv hfit hdue,
      fun bs hv hfit hdue hbs => ?_⟩
    · rw [replayRelease_invalid hruns hrd hread hv]
      exact (completes_replayMoved s d.val 0).imp fun u ⟨hm, hdrop, hraw⟩ => ⟨hmoved u hm, hdrop, hraw⟩
    · rw [replayRelease_unfit hruns hrd hread hv hfit]
      exact (completes_replayDropped s d.val 0).imp fun u ⟨hm, hcount, hraised⟩ => ⟨hmoved u hm, hcount, hraised⟩
    · intro n frame nx
      rw [replayRelease_due hruns hrd hread hv hfit hdue hbs]
      refine ⟨fun hunused => ?_, fun _ _ _ => ?_⟩
      · rw [replayFrame_unused (n := replayPort h) (bs := replayedFrame h bs) _ _ hunused]
        exact (completes_replayDropped s d.val nx).imp fun u ⟨⟨hnext, hregs, hwords⟩, hcount, hraised⟩ =>
          ⟨hnext, hcount, hraised, hregs, hwords⟩
      · exact (completes_replayFrame s d.val n _ _ frame nx).imp fun u ⟨hnext, hcore, hctx, hhost⟩ =>
          ⟨hnext, hcore, hctx, hhost⟩

end Sys2Proof.Machine
end

section
/-!
PROOFS. A segment built and counted in SEGMENTS (R192), and then notified at a counter whose number no core has (R185, R393).
-/

namespace Sys2Proof.Machine

/-! ### A build whose target is no counter -/

/-- The number that puts an arrival counter of slot 0 on the word of die 0's SEGMENTS. A core has counters 0 to 63 and RB_BUILD
takes no other for a target (R184), but the target of a rulebook in `State` is any number. -/
def strayCounter : Nat := (pageBase (.die 0 3) + DB3.SEGMENTS.off - (pageBase (.core 0 1) + (KB1.CTR 0).off)) / 4

/-- A SUBMANIFOLD rulebook of frame 4 with its segment 0 to build; but for its target it stands as RB_BUILD leaves it. -/
def strayRb : Rb where
  frame := 4
  id := 0
  kind := 0
  shape := 0
  stride := 1
  dil := 1
  reach := 0
  inGrid := 0
  outGrid := 0
  pairCap := 16
  code := 0
  off := [0x1000, 0x1000]
  size := rbBytes 0 16
  targets := [(0, strayCounter)]
  order := [0]
  built := []
  told := 0
  heap := [0x1100, 0x1100]
  gone := []

/-- Frame 4 without a cell. -/
def emptySlot : Slot where
  frame := 4
  ref := 0
  code := 0
  b := 0
  voxel := []
  roiMin := []
  roiMax := []
  policy := 0
  rule := 0
  sweeps := 0
  seed := 0
  quota := 0
  landed := true
  stopped := false
  live := true
  cells := 0
  admitted := 0
  carried := 0
  unindexed := 0
  listed := 0
  flags := 0

/-- The part with every block in service, frame 4 open on both dies, and that segment at the head of die 0's queue. -/
def strayBuild : State :=
  let s := { State.reset with rst.blocks := [], bld := ⟨[strayRb], [], [(0, [(4, (0, 0))])]⟩ }
  setSlot (setSlot s 0 emptySlot) 1 emptySlot

theorem strayBuild_serves : outOfService strayBuild (.point 0) = false := by decide +kernel

theorem strayBuild_slot : frameSlot strayBuild 0 4 = some emptySlot := by decide +kernel

theorem segments_strayBuild : fget strayBuild (.die 0 3) DB3.SEGMENTS = 0 := by decide +kernel

/-- The build counts its segment, and the notification of its target adds 1 to the same word. -/
theorem segments_buildHead_strayBuild : fget (buildHead strayBuild 0) (.die 0 3) DB3.SEGMENTS = 2 := by decide +kernel

/-! ### Building the segment at the head -/

theorem segmentBuildDone_eq {s : State} {d : Fin 2} (hs : outOfService s (.point d.val) = false) :
    exec (.segmentBuildDone d) s = done (buildHead s d.val) :=
  if_neg (Bool.eq_false_iff.mp hs)

/-- What a command that ends in `done t` counts, it counts in `t`. -/
theorem Completes.counts_done {s t : State} {p : Page} {f : Fld} {k : Nat}
    (h : Completes (done t) (fun u => Counts s u p f k)) : Counts s t p f k := by
  obtain ⟨u, hu, hcount⟩ := h
  obtain ⟨m, hm⟩ := done_eq t
  obtain rfl : { t with msix := m, err.inj := false } = u := Host.Outcome.next.inj (hm.symm.trans hu)
  exact hcount

/-- Refutes O40: the notification of a target whose counter number is beyond a core's 64 counters falls on SEGMENTS, which then
counts 2 for one segment. -/
theorem not_enginesTakeTheirWorkInOrder : ¬ Obligations.EnginesTakeTheirWorkInOrder := by
  unfold Obligations.EnginesTakeTheirWorkInOrder
  intro h
  obtain ⟨hbuild, -⟩ := h strayBuild 0
  have hdone := (hbuild strayBuild_serves).2 4 0 0 [] strayRb emptySlot rfl rfl strayBuild_slot
  rw [segmentBuildDone_eq strayBuild_serves] at hdone
  have hcount : Counts strayBuild (buildHead strayBuild 0) (.die 0 3) DB3.SEGMENTS 1 :=
    (hdone.imp fun u ⟨_, _, hc, _⟩ => hc).counts_done
  rw [Counts, segments_strayBuild, segments_buildHead_strayBuild] at hcount
  exact absurd hcount (by decide)

end Sys2Proof.Machine
end
